-- ==== Sys2Proof/Word.lean ====
section
/-!
DEFINITION. The word types of the Genil and the sparse stores in which the state keeps
whatever is addressed by number.
-/
namespace Sys2Proof

/-- One byte (R4: all multi-byte values are little-endian). -/
abbrev Byte := BitVec 8
/-- One 16-bit parcel of a stream (R67). -/
abbrev Parcel := BitVec 16
/-- A scalar register value (R7). -/
abbrev Word := BitVec 64
/-- A taint set: a mask of the sixteen tags (R237). -/
abbrev Taint := BitVec 16
/-- An 8-bit cause code (R287). -/
abbrev Cause := BitVec 8

/-- A sparse store: pairs in strictly rising order of the key. -/
abbrev Store (α : Type) := List (Nat × α)

/-- The value listed under a key, if any. -/
def Store.find? {α : Type} : Store α → Nat → Option α
  | [], _ => none
  | (k, v) :: m, i => if i = k then some v else Store.find? m i

/-- The value under a key, or the default of the store. -/
def Store.getD {α : Type} (m : Store α) (i : Nat) (z : α) : α := (Store.find? m i).getD z

/-- Puts a value under a key, keeping the keys in rising order. -/
def Store.put {α : Type} (i : Nat) (x : α) : Store α → Store α
  | [] => [(i, x)]
  | (k, v) :: m =>
    if i < k then (i, x) :: (k, v) :: m
    else if i = k then (i, x) :: m
    else (k, v) :: Store.put i x m

/-- Removes a key. -/
def Store.erase {α : Type} (i : Nat) : Store α → Store α
  | [] => []
  | (k, v) :: m => if i = k then m else (k, v) :: Store.erase i m

/-- Every key of the store is above `i`. -/
def Store.above {α : Type} (i : Nat) : Store α → Bool
  | [] => true
  | (k, _) :: m => decide (i < k) && Store.above i m

/-- The keys rise strictly. -/
def Store.rising {α : Type} : Store α → Bool
  | [] => true
  | (k, _) :: m => Store.above k m && Store.rising m

/-- The keys of a store. -/
def Store.keys {α : Type} (m : Store α) : List Nat := m.map Prod.fst

/-- The four sequencers (R6: ld = 0, ex = 1, st = 2, ctl = 3). -/
inductive Sq where
  | ld | ex | st | ctl
  deriving DecidableEq, Repr

/-- The number of a sequencer (R6). -/
def Sq.num : Sq → Nat
  | .ld => 0 | .ex => 1 | .st => 2 | .ctl => 3

/-- The sequencer of a number; numbers from 3 on give ctl. -/
def Sq.ofNum : Nat → Sq
  | 0 => .ld | 1 => .ex | 2 => .st | _ => .ctl

/-- One value for each sequencer of a core. -/
structure Quad (α : Type) where
  ld : α
  ex : α
  st : α
  ctl : α
  deriving DecidableEq, Repr

/-- The value of one sequencer. -/
def Quad.get {α : Type} (q : Quad α) : Sq → α
  | .ld => q.ld | .ex => q.ex | .st => q.st | .ctl => q.ctl

/-- Replaces the value of one sequencer. -/
def Quad.set {α : Type} (q : Quad α) (i : Sq) (x : α) : Quad α :=
  match i with
  | .ld => { q with ld := x }
  | .ex => { q with ex := x }
  | .st => { q with st := x }
  | .ctl => { q with ctl := x }

/-- The same value for every sequencer. -/
def Quad.all {α : Type} (x : α) : Quad α := ⟨x, x, x, x⟩

/-- The four values in sequencer order. -/
def Quad.toList {α : Type} (q : Quad α) : List α := [q.ld, q.ex, q.st, q.ctl]

end Sys2Proof
end

