-- ==== Sys2Proof/Syntax.lean ====
section
/-!
DEFINITION. The instructions and operations of the Genil: one constructor per row of the opcode table.
The first part are the instructions of the sequencers, with the operand fields of their encoding
(05_encoding.md) and, where a literal word follows (R69), the literal. The second part are the
operations and events that the other agents carry out whole and indivisibly (95_what_each_step_holds.md);
they have no encoding, and their operands say which unit acts and what the outside world brings.
-/
namespace Sys2Proof

/-- A tenant policy (R305): masks for HREQ and MINT, address ranges, permits, counter limit. -/
structure TenantPolicy where
  hreqRights : BitVec 8
  hreqFlags : BitVec 8
  mintRights : BitVec 8
  mintFlags : BitVec 8
  ranges : List (Nat × Nat)
  permitRevoke : Bool
  permitRotate : Bool
  maxCounters : Nat
  deriving DecidableEq, Repr

/-- What the driver and the MC give for a launch queue (R258), with the context it belongs to. -/
structure QueueSetup where
  tenant : Nat
  queue : Nat
  ctx : Nat
  part : Nat
  tdi : Nat
  root : Nat
  ringBase : Nat
  ringLog : Nat
  sigHandle : BitVec 256
  areaLen : Nat
  deriving DecidableEq, Repr

/-- What the MC gives for a new partition (R339, R36, R288): its resources, its second-stage root with the
descriptors the MC writes (R278), the owner records it sets (R311, R320), the process group, and its bounds in microseconds, or none where the default holds. -/
structure PartSetup where
  part : Nat
  clusters : List Nat
  slices : List Nat
  ports : List Nat
  root : Nat
  modules : List Nat
  rank : Nat
  writes : List (Nat × Word)
  owners : List (Nat × Nat)
  startTimeout : Option Nat
  drainBound : Option Nat
  quiescentBound : Option Nat
  deriving DecidableEq, Repr

/-- Who makes a request of the TC (R299): an SPDM session, by its number, or the MC over its channel. -/
inductive Requester where
  | session (id : Nat)
  | mc
  deriving DecidableEq, Repr

/-- The session over which a request comes. -/
def Requester.number : Requester → Option Nat
  | .session id => some id
  | .mc => none

/-- A request of the TC: who makes it, and the tenant, the counter or the images that it is about. -/
structure Request (α : Type) where
  who : Requester
  topic : α
  deriving DecidableEq, Repr

/-- What the members of a collective compare at their rendezvous (R350): the number of the COLL on its channel, the layout
words, the format, the extents, L, X and the completion kind. -/
structure CollWords where
  channel : Nat
  nth : Nat
  l1 : Word
  l2 : Word
  fmt : Nat
  extents : List Nat
  louvre : Bool
  exchange : Bool
  kind : Nat
  deriving DecidableEq, Repr

/-- A link frame (R337) but its tag: the fields of its header, and its payload. -/
structure Frame where
  part : Nat
  gen : Nat
  seq : Nat
  payload : List Byte
  deriving DecidableEq, Repr

/-- What the other modules bring to a round of the aperture (R344): their contributions, and the bytes of their own memory, by
rank × 2^50 + address, that their releases put before it (R365). -/
structure PeerRound where
  values : List (BitVec 64)
  released : List (Nat × BitVec 8)
  deriving DecidableEq, Repr

/-- An SPDM request through a TDI: the index of the measurement block, and the nonce of a request that asks for a signature
(R323). -/
structure Measure where
  tdi : Nat
  index : Nat
  nonce : Option (BitVec 256)
  deriving DecidableEq, Repr

/-- One constructor per row of spec/opcode_table.json. -/
inductive Instr where
  /-- Block header: on block entry checks the block and starts its body, which runs REPEAT + 1 times (R70). -/
  | hdr (r l : BitVec 12)
  /-- Takes one issue cycle and does nothing else (R120). -/
  | nop
  /-- Copies register a into register d, taint included (R104). -/
  | mov (d a : BitVec 5)
  /-- Two-address form: d := d + a modulo 2^64 (R104). -/
  | addShort (d a : BitVec 5)
  /-- Two-address form: d := d − a modulo 2^64 (R104). -/
  | subShort (d a : BitVec 5)
  /-- Two-address form: d := d AND a (R104). -/
  | andShort (d a : BitVec 5)
  /-- Two-address form: d := d OR a (R104). -/
  | orShort (d a : BitVec 5)
  /-- Two-address form: d := d XOR a (R104). -/
  | xorShort (d a : BitVec 5)
  /-- Adds a sign-extended 6-bit immediate to d (R104). -/
  | addi6 (d : BitVec 5) (i : BitVec 6)
  /-- Shifts d left by an immediate amount 0–63 (R104). -/
  | shliShort (d : BitVec 5) (n : BitVec 6)
  /-- Shifts d right, arithmetic or logical, by an immediate 0–31 (R104). -/
  | shriShort (d : BitVec 5) (x : BitVec 1) (n : BitVec 5)
  /-- Loads a sign-extended 6-bit immediate into d with an empty taint set (R104). -/
  | li6 (d : BitVec 5) (i : BitVec 6)
  /-- Empties the taint set of d, and with x the control taint too (R168). -/
  | tclr (d : BitVec 5) (x : BitVec 1)
  /-- Advances a rill's producer or consumer pointer by 1–32 slots (R127). -/
  | adv (n : BitVec 5) (x : BitVec 1) (w : BitVec 4)
  /-- Adds 1–32 tokens to a token queue from this sequencer (R123). -/
  | tks (n : BitVec 5) (q : BitVec 4)
  /-- Waits until a token queue holds 1–32 tokens and subtracts them (R123). -/
  | tkw (n : BitVec 5) (q : BitVec 4)
  /-- Arrives at a barrier and continues (R131). -/
  | arr (b : BitVec 5)
  /-- Issues the next instruction n times, stepping its register fields (R77). -/
  | rep (v x b a d : BitVec 1) (n : BitVec 6)
  /-- Sets predicate pd to pa, optionally negated (R113). -/
  | pmov (d : BitVec 3) (n : BitVec 1) (a : BitVec 3)
  /-- Jumps to the parcel offset held in s30 (R117). -/
  | ret
  /-- Branches by a signed 11-bit parcel displacement (R115). -/
  | br16 (d : BitVec 11)
  /-- Ends the sequencer (R120). -/
  | endStream
  /-- Marks a quiescent point for a pending translation invalidation (R169). -/
  | qpt
  /-- Waits for d's taint set to empty, then stores d to its spill slot (R171). -/
  | spl (d s : BitVec 5)
  /-- Reads a spill slot into d with an empty taint set (R171). -/
  | fil (d s : BitVec 5)
  /-- d := a + b modulo 2^64 (R105). -/
  | add (d a b : BitVec 5) (u : BitVec 1)
  /-- d := a − b modulo 2^64 (R105). -/
  | sub (d a b : BitVec 5) (u : BitVec 1)
  /-- d := low 64 bits of a × b (R105). -/
  | mul (d a b : BitVec 5) (u : BitVec 1)
  /-- d := high 64 bits of the signed product (R105). -/
  | mulh (d a b : BitVec 5) (u : BitVec 1)
  /-- d := high 64 bits of the unsigned product (R105). -/
  | mulhu (d a b : BitVec 5) (u : BitVec 1)
  /-- Signed division truncating toward zero; a zero divisor traps with 0xB0 (R42). -/
  | div (d a b : BitVec 5) (u : BitVec 1)
  /-- Unsigned division; a zero divisor traps with 0xB0 (R42). -/
  | divu (d a b : BitVec 5) (u : BitVec 1)
  /-- Signed remainder with the dividend's sign (R42). -/
  | rem (d a b : BitVec 5) (u : BitVec 1)
  /-- Unsigned remainder (R42). -/
  | remu (d a b : BitVec 5) (u : BitVec 1)
  /-- Bitwise AND of a and b (R105). -/
  | and (d a b : BitVec 5) (u : BitVec 1)
  /-- Bitwise OR of a and b (R105). -/
  | or (d a b : BitVec 5) (u : BitVec 1)
  /-- Bitwise XOR of a and b (R105). -/
  | xor (d a b : BitVec 5) (u : BitVec 1)
  /-- d := a AND NOT b (R105). -/
  | andn (d a b : BitVec 5) (u : BitVec 1)
  /-- Shifts a left by b mod 64 (R105). -/
  | shl (d a b : BitVec 5) (u : BitVec 1)
  /-- Logical right shift of a by b mod 64 (R105). -/
  | shr (d a b : BitVec 5) (u : BitVec 1)
  /-- Arithmetic right shift of a by b mod 64 (R105). -/
  | sar (d a b : BitVec 5) (u : BitVec 1)
  /-- Rotates a left by b mod 64 (R105). -/
  | rot (d a b : BitVec 5) (u : BitVec 1)
  /-- Signed minimum of a and b (R105). -/
  | min (d a b : BitVec 5) (u : BitVec 1)
  /-- Signed maximum of a and b (R105). -/
  | max (d a b : BitVec 5) (u : BitVec 1)
  /-- Unsigned minimum of a and b (R105). -/
  | minu (d a b : BitVec 5) (u : BitVec 1)
  /-- Unsigned maximum of a and b (R105). -/
  | maxu (d a b : BitVec 5) (u : BitVec 1)
  /-- Counts leading zeros of a (R105). -/
  | clz (d a : BitVec 5) (u : BitVec 1)
  /-- Counts trailing zeros of a (R105). -/
  | ctz (d a : BitVec 5) (u : BitVec 1)
  /-- Counts the one bits of a (R105). -/
  | popc (d a : BitVec 5) (u : BitVec 1)
  /-- Sign-extends the low n bits of a, n from b (R106). -/
  | sext (d a b : BitVec 5) (u : BitVec 1)
  /-- Zero-extends the low n bits of a, n from b (R106). -/
  | zext (d a b : BitVec 5) (u : BitVec 1)
  /-- Extracts a bit field of a at position and length from b (R106). -/
  | bfx (d a b : BitVec 5) (u : BitVec 1)
  /-- Inserts the low bits of a into d at position and length from b (R106). -/
  | bfi (d a b : BitVec 5) (u : BitVec 1)
  /-- d := a if p0 is 1, else b (R105). -/
  | selp (d a b : BitVec 5) (u : BitVec 1)
  /-- Signed addition clamped to the 64-bit range (R105). -/
  | addsat (d a b : BitVec 5) (u : BitVec 1)
  /-- Signed subtraction clamped to the 64-bit range (R105). -/
  | subsat (d a b : BitVec 5) (u : BitVec 1)
  /-- d := d + a × b modulo 2^64 (R105). -/
  | madd (d a b : BitVec 5) (u : BitVec 1)
  /-- Sets pd to a = b and adds the operands' taint to control taint (R105). -/
  | cmpeq (d a b : BitVec 5) (u : BitVec 1)
  /-- Sets pd to a ≠ b (R105). -/
  | cmpne (d a b : BitVec 5) (u : BitVec 1)
  /-- Sets pd to a < b, signed (R105). -/
  | cmplt (d a b : BitVec 5) (u : BitVec 1)
  /-- Sets pd to a ≤ b, signed (R105). -/
  | cmple (d a b : BitVec 5) (u : BitVec 1)
  /-- Sets pd to a < b, unsigned (R105). -/
  | cmpltu (d a b : BitVec 5) (u : BitVec 1)
  /-- Sets pd to a ≤ b, unsigned (R105). -/
  | cmpleu (d a b : BitVec 5) (u : BitVec 1)
  /-- ADD with the sign-extended literal as operand b (R105). -/
  | addLit (d a : BitVec 5) (u : BitVec 1) (lit : BitVec 32)
  /-- SUB with the literal as operand b (R105). -/
  | subLit (d a : BitVec 5) (u : BitVec 1) (lit : BitVec 32)
  /-- MUL with the literal as operand b (R105). -/
  | mulLit (d a : BitVec 5) (u : BitVec 1) (lit : BitVec 32)
  /-- MULH with the literal as operand b (R105). -/
  | mulhLit (d a : BitVec 5) (u : BitVec 1) (lit : BitVec 32)
  /-- MULHU with the literal as operand b (R105). -/
  | mulhuLit (d a : BitVec 5) (u : BitVec 1) (lit : BitVec 32)
  /-- DIV with the literal as divisor (R42). -/
  | divLit (d a : BitVec 5) (u : BitVec 1) (lit : BitVec 32)
  /-- DIVU with the literal as divisor (R42). -/
  | divuLit (d a : BitVec 5) (u : BitVec 1) (lit : BitVec 32)
  /-- REM with the literal as divisor (R42). -/
  | remLit (d a : BitVec 5) (u : BitVec 1) (lit : BitVec 32)
  /-- REMU with the literal as divisor (R42). -/
  | remuLit (d a : BitVec 5) (u : BitVec 1) (lit : BitVec 32)
  /-- AND with the literal as operand b (R105). -/
  | andLit (d a : BitVec 5) (u : BitVec 1) (lit : BitVec 32)
  /-- OR with the literal as operand b (R105). -/
  | orLit (d a : BitVec 5) (u : BitVec 1) (lit : BitVec 32)
  /-- XOR with the literal as operand b (R105). -/
  | xorLit (d a : BitVec 5) (u : BitVec 1) (lit : BitVec 32)
  /-- ANDN with the literal as operand b (R105). -/
  | andnLit (d a : BitVec 5) (u : BitVec 1) (lit : BitVec 32)
  /-- SHL with the literal as shift amount (R105). -/
  | shlLit (d a : BitVec 5) (u : BitVec 1) (lit : BitVec 32)
  /-- SHR with the literal as shift amount (R105). -/
  | shrLit (d a : BitVec 5) (u : BitVec 1) (lit : BitVec 32)
  /-- SAR with the literal as shift amount (R105). -/
  | sarLit (d a : BitVec 5) (u : BitVec 1) (lit : BitVec 32)
  /-- ROT with the literal as rotate amount (R105). -/
  | rotLit (d a : BitVec 5) (u : BitVec 1) (lit : BitVec 32)
  /-- MIN with the literal as operand b (R105). -/
  | minLit (d a : BitVec 5) (u : BitVec 1) (lit : BitVec 32)
  /-- MAX with the literal as operand b (R105). -/
  | maxLit (d a : BitVec 5) (u : BitVec 1) (lit : BitVec 32)
  /-- MINU with the literal as operand b (R105). -/
  | minuLit (d a : BitVec 5) (u : BitVec 1) (lit : BitVec 32)
  /-- MAXU with the literal as operand b (R105). -/
  | maxuLit (d a : BitVec 5) (u : BitVec 1) (lit : BitVec 32)
  /-- SEXT with its width from the literal (R106). -/
  | sextLit (d a : BitVec 5) (u : BitVec 1) (lit : BitVec 32)
  /-- ZEXT with its width from the literal (R106). -/
  | zextLit (d a : BitVec 5) (u : BitVec 1) (lit : BitVec 32)
  /-- BFX with position and length from the literal (R106). -/
  | bfxLit (d a : BitVec 5) (u : BitVec 1) (lit : BitVec 32)
  /-- BFI with position and length from the literal (R106). -/
  | bfiLit (d a : BitVec 5) (u : BitVec 1) (lit : BitVec 32)
  /-- SELP with the literal as the alternative (R105). -/
  | selpLit (d a : BitVec 5) (u : BitVec 1) (lit : BitVec 32)
  /-- ADDSAT with the literal as operand b (R105). -/
  | addsatLit (d a : BitVec 5) (u : BitVec 1) (lit : BitVec 32)
  /-- SUBSAT with the literal as operand b (R105). -/
  | subsatLit (d a : BitVec 5) (u : BitVec 1) (lit : BitVec 32)
  /-- MADD with the literal as operand b (R105). -/
  | maddLit (d a : BitVec 5) (u : BitVec 1) (lit : BitVec 32)
  /-- CMPEQ against the literal (R105). -/
  | cmpeqLit (d a : BitVec 5) (u : BitVec 1) (lit : BitVec 32)
  /-- CMPNE against the literal (R105). -/
  | cmpneLit (d a : BitVec 5) (u : BitVec 1) (lit : BitVec 32)
  /-- CMPLT against the literal (R105). -/
  | cmpltLit (d a : BitVec 5) (u : BitVec 1) (lit : BitVec 32)
  /-- CMPLE against the literal (R105). -/
  | cmpleLit (d a : BitVec 5) (u : BitVec 1) (lit : BitVec 32)
  /-- CMPLTU against the literal (R105). -/
  | cmpltuLit (d a : BitVec 5) (u : BitVec 1) (lit : BitVec 32)
  /-- CMPLEU against the literal (R105). -/
  | cmpleuLit (d a : BitVec 5) (u : BitVec 1) (lit : BitVec 32)
  /-- d := a + sext(imm14) (R108). -/
  | addi (d a : BitVec 5) (i : BitVec 14)
  /-- d := a AND sext(imm14) (R108). -/
  | andi (d a : BitVec 5) (i : BitVec 14)
  /-- d := a OR sext(imm14) (R108). -/
  | ori (d a : BitVec 5) (i : BitVec 14)
  /-- d := a XOR sext(imm14) (R108). -/
  | xori (d a : BitVec 5) (i : BitVec 14)
  /-- d := a shifted left by an immediate 0–63 (R109). -/
  | shli (d a : BitVec 5) (n : BitVec 6)
  /-- d := a shifted right logically by an immediate (R109). -/
  | shri (d a : BitVec 5) (n : BitVec 6)
  /-- d := a shifted right arithmetically by an immediate (R109). -/
  | sari (d a : BitVec 5) (n : BitVec 6)
  /-- d := a rotated left by an immediate (R109). -/
  | roti (d a : BitVec 5) (n : BitVec 6)
  /-- Sets pd to the relation of a to a sign-extended 11-bit comparand (R110). -/
  | cmpi (d a : BitVec 5) (r : BitVec 3) (c : BitVec 11)
  /-- d := the sign-extended 32-bit literal (R111). -/
  | lit (d : BitVec 5) (lit : BitVec 32)
  /-- Replaces bits 63:32 of d with the literal (R111). -/
  | lith (d : BitVec 5) (lit : BitVec 32)
  /-- pd := pa AND pb (R112). -/
  | pand (d a b : BitVec 3) (u : BitVec 1)
  /-- pd := pa OR pb (R112). -/
  | por (d a b : BitVec 3) (u : BitVec 1)
  /-- pd := pa XOR pb (R112). -/
  | pxor (d a b : BitVec 3) (u : BitVec 1)
  /-- pd := NOT pa (R112). -/
  | pnot (d a : BitVec 3) (u : BitVec 1)
  /-- Sets pd to the constant 0 or 1 in field a (R112). -/
  | pset (d : BitVec 3) (v u : BitVec 1)
  /-- PAND with bit 0 of the literal as operand b (R112). -/
  | pandLit (d a : BitVec 3) (u : BitVec 1) (lit : BitVec 32)
  /-- POR with bit 0 of the literal as operand b (R112). -/
  | porLit (d a : BitVec 3) (u : BitVec 1) (lit : BitVec 32)
  /-- PXOR with bit 0 of the literal as operand b (R112). -/
  | pxorLit (d a : BitVec 3) (u : BitVec 1) (lit : BitVec 32)
  /-- Samples a predicate once and guards the next 1–8 issue units as then or else (R81). -/
  | pb (c n : BitVec 3) (p : BitVec 8)
  /-- Branches by a 16-bit displacement when the condition on a register or predicate holds (R114). -/
  | brc (a : BitVec 5) (c : BitVec 3) (d : BitVec 16)
  /-- Branches by a signed 24-bit parcel displacement (R115). -/
  | br (d : BitVec 24)
  /-- Writes the link to s30 and branches by a 24-bit displacement (R116). -/
  | call (d : BitVec 24)
  /-- Jumps to the address held in register a (R117). -/
  | jr (a : BitVec 5) (u : BitVec 1)
  /-- Jumps to register a plus the sign-extended literal (R117). -/
  | jrLit (a : BitVec 5) (u : BitVec 1) (lit : BitVec 32)
  /-- Jumps through register a and writes the link to d (R117). -/
  | jalr (d a : BitVec 5) (u : BitVec 1)
  /-- JALR with the literal added to the target (R117). -/
  | jalrLit (d a : BitVec 5) (u : BitVec 1) (lit : BitVec 32)
  /-- Long return: jumps to s30 (R117). -/
  | retL (u : BitVec 1)
  /-- Long return to s30 plus the literal (R117). -/
  | retLLit (u : BitVec 1) (lit : BitVec 32)
  /-- Decrements a register and branches while it is non-zero (ctl only) (R119). -/
  | loop (a : BitVec 5) (d : BitVec 16)
  /-- Adds s[a] + imm10 tokens to a token queue (R123). -/
  | tksL (q a : BitVec 5) (n : BitVec 10)
  /-- Waits for and takes s[a] + imm10 tokens (R123). -/
  | tkwL (q a : BitVec 5) (n : BitVec 10)
  /-- Records a join to a barrier, effective at the next phase boundary or at once if empty (R130). -/
  | bjoin (b : BitVec 5)
  /-- Records a leave from a barrier, counting as an arrival (R130). -/
  | bleave (b : BitVec 5)
  /-- Arrives at a barrier and waits for the phase to complete (R131). -/
  | barr (b : BitVec 5)
  /-- Arrives, writes the phase number and continues (R131). -/
  | barn (d b : BitVec 5)
  /-- Waits until the barrier reaches a target phase without arriving (R132). -/
  | bwait (a b : BitVec 5)
  /-- Reads a barrier's arrivals, members and phase (R133). -/
  | bcnt (d b : BitVec 5)
  /-- Ends a computation step, waiting for every sequencer of the launch (R136). -/
  | sstep
  /-- Ends a communication step with all prior writes made visible (R136). -/
  | ssync
  /-- Reads the SSYNC count and step kind (R136). -/
  | sphase (d : BitVec 5)
  /-- Sets a rill's geometry and resets its counts (ctl only) (R125). -/
  | winit (w a : BitVec 5)
  /-- Waits until a rill's fill count reaches n (R126). -/
  | wwaitf (w a : BitVec 5) (n : BitVec 10)
  /-- Waits until a rill's free count reaches n (R126). -/
  | wwaite (w a : BitVec 5) (n : BitVec 10)
  /-- Advances a rill's producer pointer by n (R126). -/
  | wadvp (w a : BitVec 5) (n : BitVec 10)
  /-- Advances a rill's consumer pointer by n (R126). -/
  | wadvc (w a : BitVec 5) (n : BitVec 10)
  /-- Reads a rill's counts and pointers (R128). -/
  | wstat (d : BitVec 5) (w : BitVec 4)
  /-- Loads 1–8 bytes through a handle into a register or a receive queue (R156). -/
  | ld (d h a : BitVec 5) (z o : BitVec 2) (s : BitVec 3) (q : BitVec 1)
  /-- LD with a literal added to the offset (R156). -/
  | ldLit (d h a : BitVec 5) (z o : BitVec 2) (s : BitVec 3) (q : BitVec 1) (lit : BitVec 32)
  /-- Stores 1–8 bytes of a register through a handle (R158). -/
  | st (d h a : BitVec 5) (z o : BitVec 2) (s : BitVec 3)
  /-- ST with a literal added to the offset (R158). -/
  | stLit (d h a : BitVec 5) (z o : BitVec 2) (s : BitVec 3) (lit : BitVec 32)
  /-- Atomic add returning the old value (R162). -/
  | aadd (d h a : BitVec 5) (s : BitVec 3) (w : BitVec 1)
  /-- Atomic AND returning the old value (R162). -/
  | aand (d h a : BitVec 5) (s : BitVec 3) (w : BitVec 1)
  /-- Atomic OR returning the old value (R162). -/
  | aor (d h a : BitVec 5) (s : BitVec 3) (w : BitVec 1)
  /-- Atomic XOR returning the old value (R162). -/
  | axor (d h a : BitVec 5) (s : BitVec 3) (w : BitVec 1)
  /-- Atomic signed minimum (R162). -/
  | amin (d h a : BitVec 5) (s : BitVec 3) (w : BitVec 1)
  /-- Atomic signed maximum (R162). -/
  | amax (d h a : BitVec 5) (s : BitVec 3) (w : BitVec 1)
  /-- Atomic unsigned minimum (R162). -/
  | aminu (d h a : BitVec 5) (s : BitVec 3) (w : BitVec 1)
  /-- Atomic unsigned maximum (R162). -/
  | amaxu (d h a : BitVec 5) (s : BitVec 3) (w : BitVec 1)
  /-- Atomic swap (R162). -/
  | aswp (d h a : BitVec 5) (s : BitVec 3) (w : BitVec 1)
  /-- Atomic compare-and-swap (R162). -/
  | acas (d h a : BitVec 5) (s : BitVec 3) (w : BitVec 1)
  /-- Atomically adds to a 64-bit signal as a system-scope release (R165). -/
  | sigadd (d a h : BitVec 5)
  /-- Waits until a signal stands in a relation to s[d], then acquires (R166). -/
  | sigwait (d a : BitVec 5) (t : BitVec 1) (r : BitVec 3) (h : BitVec 5)
  /-- Orders the sequencer's accesses of a kind at a scope, waiting until performed (R164). -/
  | fence (k : BitVec 2) (s : BitVec 3)
  /-- Pairs with the matching ALIGN of the other of ld and st to order their accesses (R167). -/
  | align (k : BitVec 4)
  /-- Long form of TCLR (R168). -/
  | tclrL (d : BitVec 5) (x : BitVec 1)
  /-- Long form of QPT (R169). -/
  | qptL
  /-- Installs translations of 1–8 pages into the die TLBs (R161). -/
  | pref (h a : BitVec 5) (z : BitVec 2)
  /-- PREF with a literal added to the offset (R161). -/
  | prefLit (h a : BitVec 5) (z : BitVec 2) (lit : BitVec 32)
  /-- Copies a shaped box of elements between handles as an engine operation (R176). -/
  | cpy (hd hs : BitVec 5) (y : BitVec 4) (a : BitVec 5) (lit : BitVec 32)
  /-- Imports and verifies a sealed record into local memory (R181). -/
  | cpyin (hd hs : BitVec 5) (y : BitVec 4) (a : BitVec 5) (lit : BitVec 32)
  /-- Exports data as a sealed record on an export stream (R182). -/
  | cpyout (hd hs : BitVec 5) (y : BitVec 4) (a : BitVec 5) (lit : BitVec 32)
  /-- Writes zeros over a shaped destination box (R176). -/
  | cpyz (hd : BitVec 5) (y : BitVec 4) (a : BitVec 5) (lit : BitVec 32)
  /-- Copies with element-by-element format conversion (R178). -/
  | cpycv (hd hs : BitVec 5) (y : BitVec 4) (a : BitVec 5) (lit : BitVec 32)
  /-- Copies rows selected by a local index array into a dense destination (R180). -/
  | gather (hd hs : BitVec 5) (y : BitVec 4) (a : BitVec 5) (lit : BitVec 32)
  /-- Copies dense rows to destination rows selected by a local index array (R180). -/
  | scatter (hd hs : BitVec 5) (y : BitVec 4) (a : BitVec 5) (lit : BitVec 32)
  /-- Writes one field of a copy shape slot (R173). -/
  | cesh (a : BitVec 5) (f : BitVec 2) (i y : BitVec 4)
  /-- Waits until the core completion counter reaches a target, joining copies (R186). -/
  | cwait (a : BitVec 5) (n : BitVec 10)
  /-- Reads the core completion counter (R186). -/
  | ccnt (d : BitVec 5)
  /-- Reads and clears the sequencer's copy status (R186). -/
  | cstat (d : BitVec 5)
  /-- Reads the number of copies the sequencer has issued (R186). -/
  | cstatIssued (d : BitVec 5)
  /-- Sends a handle mint request to the TC under a tag (R138). -/
  | hreq (a : BitVec 5) (t : BitVec 3)
  /-- Waits for a mint answer and writes status and handle (R139). -/
  | hwait (h a : BitVec 5) (t : BitVec 3)
  /-- Copies one handle register to another (R140). -/
  | hmov (d a : BitVec 5)
  /-- Clears a handle register (R140). -/
  | hclr (d : BitVec 5)
  /-- Loads 32 bytes into a handle register (R141). -/
  | hld (d a m : BitVec 5)
  /-- Stores a handle register as 32 bytes (R141). -/
  | hst (d a m : BitVec 5)
  /-- Runs a handle's checks and returns the first failing cause (R142). -/
  | hchk (d a : BitVec 5) (m : BitVec 8)
  /-- Reads one field of a handle (R143). -/
  | hget (d a : BitVec 5) (s : BitVec 4)
  /-- Revokes one handle serial and waits for the sweep (R144). -/
  | hrevk (d a : BitVec 5)
  /-- Revokes every handle of the tenant by advancing the epoch (R144). -/
  | hrevkAll (d : BitVec 5)
  /-- Asks the TC to begin rotating the tenant's key generation (R145). -/
  | krot (d : BitVec 5)
  /-- Reads rotation state or a progress mark (R146). -/
  | kstat (d : BitVec 5) (s : BitVec 10)
  /-- Raises cause 0xF0 + n (R150). -/
  | trap (n : BitVec 4)
  /-- Reads a system register (R151). -/
  | gets (a : BitVec 5) (r : BitVec 11)
  /-- Writes a system register (R151). -/
  | sets (a : BitVec 5) (r : BitVec 11)
  /-- Reports whether a slice-end drain is pending (R152). -/
  | yield (a : BitVec 5)
  /-- Reads the cycle count or the module time base (R152). -/
  | clk (a : BitVec 5) (c : BitVec 1)
  /-- Reads a queue's energy counter (R152). -/
  | enrg (a : BitVec 5) (l : BitVec 1) (q : BitVec 6)
  /-- Long no-operation (R120). -/
  | nopl
  /-- Appends a 256-byte record to a launch queue of the context (R147). -/
  | launch (d a h : BitVec 5)
  /-- Reads a launch queue's head, pending count and state (R148). -/
  | qstat (d a : BitVec 5)
  /-- Writes a sealed image of the running task, session or persistent (R149). -/
  | save (d h : BitVec 5) (c : BitVec 1)
  /-- Starts a collective derived from a pair of layouts (R348). -/
  | coll (d a : BitVec 5) (e l : BitVec 1) (y x : BitVec 3) (lit : BitVec 32)
  /-- Waits for a collective to end, reads its status and frees its id (R352). -/
  | collw (d a : BitVec 5)
  /-- Cancels a collective at every member, then waits as COLLW (R352). -/
  | collwCancel (d a : BitVec 5)
  /-- Waits until a louvre tile's precision counter reaches n (R357). -/
  | plwait (a n : BitVec 5)
  /-- Reads a louvre tile's precision counter (R357). -/
  | plcnt (d a : BitVec 5)
  /-- Cuts a louvre tile at plane n (R357). -/
  | plcut (a : BitVec 5) (n : BitVec 4)
  /-- Contributes a word to the reduction aperture as a partition-scope release (R344). -/
  | apst (d a h : BitVec 5)
  /-- Waits for an aperture round and loads its reduced word (R344). -/
  | apld (d a h : BitVec 5)
  /-- Reserves reduction slots of a type on every owned plane (R342). -/
  | rslotReserve (d a : BitVec 5) (t : BitVec 3)
  /-- Releases the highest-numbered held reduction slots (R342). -/
  | rslotRelease (d a : BitVec 5)
  /-- Sets a layout register (R346). -/
  | layx (a : BitVec 5) (x : BitVec 3)
  /-- Writes a matrix-engine shadow register with its taint (R208). -/
  | mxset (a : BitVec 5) (r : BitVec 11)
  /-- Reads a shadow register or the active RPROG (R208). -/
  | mxget (a : BitVec 5) (r : BitVec 11)
  /-- Checks the shadow set and queues it as a pending ME operation (R200). -/
  | mxgo
  /-- Waits until no ME operation is outstanding, joining them (R208). -/
  | mxwait
  /-- Reads the ME status word (R208). -/
  | mxprog (a : BitVec 5)
  /-- Discards the pending operation and stops the active one (R209). -/
  | mxabort
  /-- Preloads the first weight block of the shadow set's operation (R210). -/
  | wld
  /-- Writes a mask register from a scalar (R211). -/
  | kset (k : BitVec 3) (a : BitVec 5)
  /-- Writes a mask register with 2^c − 1 (R211). -/
  | kgen (k : BitVec 3) (a : BitVec 5) (n : BitVec 10)
  /-- Lane-wise floating add (R212). -/
  | vadd (t : BitVec 2) (d a b : BitVec 6)
  /-- Lane-wise floating subtract (R212). -/
  | vsub (t : BitVec 2) (d a b : BitVec 6)
  /-- Lane-wise floating multiply (R212). -/
  | vmul (t : BitVec 2) (d a b : BitVec 6)
  /-- Lane-wise fused multiply-add into d (R212). -/
  | vfma (t : BitVec 2) (d a b : BitVec 6)
  /-- Lane-wise fused negated multiply-add into d (R212). -/
  | vfms (t : BitVec 2) (d a b : BitVec 6)
  /-- Lane-wise minimumNumber (R212). -/
  | vmin (t : BitVec 2) (d a b : BitVec 6)
  /-- Lane-wise maximumNumber (R212). -/
  | vmax (t : BitVec 2) (d a b : BitVec 6)
  /-- Magnitude of a with the sign of b (R212). -/
  | vcpys (t : BitVec 2) (d a b : BitVec 6)
  /-- Adds a scalar to every lane (R212). -/
  | vadds (t : BitVec 2) (d a : BitVec 6) (s : BitVec 5)
  /-- Multiplies every lane by a scalar (R212). -/
  | vmuls (t : BitVec 2) (d a : BitVec 6) (s : BitVec 5)
  /-- Fused multiply-add with a scalar (R212). -/
  | vfmas (t : BitVec 2) (d a : BitVec 6) (s : BitVec 5)
  /-- maximumNumber against a scalar (R212). -/
  | vmaxs (t : BitVec 2) (d a : BitVec 6) (s : BitVec 5)
  /-- minimumNumber against a scalar (R212). -/
  | vmins (t : BitVec 2) (d a : BitVec 6) (s : BitVec 5)
  /-- Subtracts a scalar from every lane (R212). -/
  | vsubs (t : BitVec 2) (d a : BitVec 6) (s : BitVec 5)
  /-- Lane-wise integer add (R213). -/
  | viadd (t : BitVec 2) (d a b : BitVec 6)
  /-- Lane-wise integer subtract (R213). -/
  | visub (t : BitVec 2) (d a b : BitVec 6)
  /-- Lane-wise integer multiply, low bits (R213). -/
  | vimul (t : BitVec 2) (d a b : BitVec 6)
  /-- Lane-wise integer multiply-accumulate (R213). -/
  | vimac (t : BitVec 2) (d a b : BitVec 6)
  /-- Lane-wise bitwise AND (R213). -/
  | vand (t : BitVec 2) (d a b : BitVec 6)
  /-- Lane-wise bitwise OR (R213). -/
  | vor (t : BitVec 2) (d a b : BitVec 6)
  /-- Lane-wise bitwise XOR (R213). -/
  | vxor (t : BitVec 2) (d a b : BitVec 6)
  /-- Lane-wise left shift (R213). -/
  | vshl (t : BitVec 2) (d a b : BitVec 6)
  /-- Lane-wise logical right shift (R213). -/
  | vshr (t : BitVec 2) (d a b : BitVec 6)
  /-- Lane-wise arithmetic right shift (R213). -/
  | vsar (t : BitVec 2) (d a b : BitVec 6)
  /-- Lane-wise signed minimum (R213). -/
  | vimin (t : BitVec 2) (d a b : BitVec 6)
  /-- Lane-wise signed maximum (R213). -/
  | vimax (t : BitVec 2) (d a b : BitVec 6)
  /-- Compares lanes for equality into vm (R214). -/
  | vceq (t m : BitVec 2) (a b : BitVec 6)
  /-- Compares lanes for inequality into vm (R214). -/
  | vcne (t m : BitVec 2) (a b : BitVec 6)
  /-- Compares lanes a < b into vm (R214). -/
  | vclt (t m : BitVec 2) (a b : BitVec 6)
  /-- Compares lanes a ≤ b into vm (R214). -/
  | vcle (t m : BitVec 2) (a b : BitVec 6)
  /-- Selects lanes of a or b by vm (R214). -/
  | vsel (t : BitVec 2) (d a b : BitVec 6)
  /-- Inverts all 256 bits of vm (R214). -/
  | vmnot
  /-- Counts set vm bits below the tile's lane count into a scalar (R214). -/
  | vmpop (t : BitVec 2) (s : BitVec 5)
  /-- Lane-wise 2^a at 20 significant bits (R216). -/
  | vexp2 (t : BitVec 2) (d a : BitVec 6)
  /-- Lane-wise log2 a at 20 significant bits (R216). -/
  | vlog2 (t : BitVec 2) (d a : BitVec 6)
  /-- Lane-wise 12-bit reciprocal estimate (R61). -/
  | vrcpa (t : BitVec 2) (d a : BitVec 6)
  /-- Lane-wise 12-bit reciprocal square-root estimate (R61). -/
  | vrsqa (t : BitVec 2) (d a : BitVec 6)
  /-- One Newton step refining a reciprocal estimate (R62). -/
  | vrcpr (t : BitVec 2) (d a b : BitVec 6)
  /-- One Newton step refining a reciprocal square-root estimate (R62). -/
  | vrsqr (t : BitVec 2) (d a b : BitVec 6)
  /-- Lane-wise floor (R217). -/
  | vflr (t : BitVec 2) (d a : BitVec 6)
  /-- Lane-wise rounding to integral in the FPMODE direction (R217). -/
  | vrnd (t : BitVec 2) (d a : BitVec 6)
  /-- Lane-wise fractional part, never 1.0 (R217). -/
  | vfrc (t : BitVec 2) (d a : BitVec 6)
  /-- Tree sum of active lanes into lane 0 (R218). -/
  | vrsum (t : BitVec 2) (d a : BitVec 6)
  /-- Tree maximum of active lanes into lane 0 (R218). -/
  | vrmax (t : BitVec 2) (d a : BitVec 6)
  /-- Tree minimum of active lanes into lane 0 (R218). -/
  | vrmin (t : BitVec 2) (d a : BitVec 6)
  /-- Folds 64 lanes into a Welford triple (R64). -/
  | vwelf (t : BitVec 2) (d a : BitVec 6)
  /-- Merges two Welford triples (R63). -/
  | vwmrg (t : BitVec 2) (d a : BitVec 6)
  /-- Permutes lanes of a by indices in b (R218). -/
  | vshf (t : BitVec 2) (d a b : BitVec 6)
  /-- Rotates lanes by a scalar count (R218). -/
  | vrot (t : BitVec 2) (d a : BitVec 6) (s : BitVec 5)
  /-- Broadcasts one lane selected by a scalar (R218). -/
  | vbcst (t : BitVec 2) (d a : BitVec 6) (s : BitVec 5)
  /-- Converts a row part between element types (R219). -/
  | vcvt (t : BitVec 2) (d a : BitVec 6) (p : BitVec 2) (s : BitVec 3)
  /-- Encodes 64 lanes into two KBF blocks as a packed row (R220). -/
  | vkenc (t : BitVec 2) (d a : BitVec 6) (h : BitVec 1) (f : BitVec 2)
  /-- Decodes a packed row of two KBF blocks into lanes (R220). -/
  | vkdec (t : BitVec 2) (d a : BitVec 6) (h : BitVec 1) (f : BitVec 2)
  /-- Decodes 64 elements of a landed louvre tile by its precision counter (R221). -/
  | vpldec (t : BitVec 2) (d : BitVec 6) (s : BitVec 5) (m : BitVec 1)
  /-- Loads active lanes of a row from memory (R222). -/
  | vld (t : BitVec 2) (d : BitVec 6) (h s : BitVec 5)
  /-- Stores active lanes of a row to memory (R222). -/
  | vst (t : BitVec 2) (d : BitVec 6) (h s : BitVec 5)
  /-- Loads consecutive memory elements into active lanes in order (R222). -/
  | vldc (t : BitVec 2) (d : BitVec 6) (h s : BitVec 5)
  /-- Stores active lanes to consecutive memory elements (R222). -/
  | vstc (t : BitVec 2) (d : BitVec 6) (h s : BitVec 5)
  /-- Clears a run of tile rows to zero (R224). -/
  | aclr (t : BitVec 2) (d c : BitVec 6)
  /-- Sets a tile's element type (R224). -/
  | afmt (t : BitVec 2) (y : BitVec 6)
  /-- Copies a row from another tile with its taint (R224). -/
  | amov (t : BitVec 2) (d a : BitVec 6) (s : BitVec 2)
  /-- Transposes a tile in place (R224). -/
  | axpose (t : BitVec 2)
  /-- Waits until no outstanding ME operation writes the tile, joining them (R224). -/
  | await (t : BitVec 2)
  -- operations and events of the other agents (rows without an encoding)
  /-- A loaded value returns to its register or receive-queue entry (R240). -/
  | loadValueDelivery (core id : Nat)
  /-- A remote load performs and its taint tag leaves every set (R240). -/
  | loadPerformed (core id : Nat)
  /-- A copy's writes have performed and its completion object is delivered (R183). -/
  | copyCompletion (core id : Nat)
  /-- A CPYIN's tag and counter are verified and its rows marked verified or zeroed (R181). -/
  | cpyinVerify (core id : Nat)
  /-- A pending ME operation moves into the empty active set and starts (R195). -/
  | meOperationStart (core : Nat)
  /-- One row-step of the active ME operation commits (R198). -/
  | meRowStep (core : Nat)
  /-- The ME reads the next weight block into a free buffer (R199). -/
  | weightBlockFill (core : Nat)
  /-- The last member issues its broadcast operation and the rendezvous compares and starts (R201). -/
  | meBroadcastRendezvous (core : Nat)
  /-- The TC answers a mint request under its tag (R304). -/
  | mintAnswer (core tag : Nat)
  /-- The revocation sweep runs its steps across modules and reports its counts (R307). -/
  | revocationSweep (tenant : Nat)
  /-- A slice walker re-encrypts one page under the new generation (R312). -/
  | rotationPageConvert (slice : Nat)
  /-- A bank walker re-keys one scratchpad row (R312). -/
  | bankRowRekey (core : Nat)
  /-- The scrub walk writes one zero row and advances the watermark (R319). -/
  | zeroWalkRow (core : Nat)
  /-- A slice scrub walker zeroes one page under its new keys and clears its scrub bit (R320). -/
  | hbmScrubPage (page : Nat)
  /-- After a verified read-back the TC commits the counter with its record (R334). -/
  | persistentCommit (idx : Nat) (good : Bool)
  /-- A translation invalidation reaches a core and the CE places its marker (R252). -/
  | invalidation (core : Nat)
  /-- The MC resolves a second-stage fault and retries, or ends the task (R286). -/
  | secondStageFaultService (id : Nat) (resolved : Bool) (writes : List (Nat × Word)) (owners : List (Nat × Nat))
  /-- A write of QTAIL appends records or is discarded with OVF (R260). -/
  | qtailWrite (tdi q value : Nat)
  /-- Writing 1 to QSTATE bit 8 clears OVF (R259). -/
  | qstateOvfClear (tdi q : Nat)
  /-- Writing QCTL bit 0 requests a queue reset (R271). -/
  | qctlReset (tdi q : Nat)
  /-- Once started records complete, unstarted ones abort and the queue clears ERROR (R271). -/
  | queueResetComplete (tdi q : Nat)
  /-- Retries the halted unit whose fault carries the id (R285). -/
  | fresRetry (tdi id : Nat)
  /-- Ends the task of the halted unit with FAULT (R285). -/
  | fresEndTask (tdi id : Nat)
  /-- A write to a fault-ring register with no behaviour of its own (FRBASE, FRSIZE, FRCONS) (R284). -/
  | registerWrite (tdi off value : Nat)
  /-- A queue's candidate record is checked against R23 to R25 and its offsets (R261). -/
  | candidateCheck (tenant q : Nat)
  /-- The candidate's wait-list signals are read in one pass after a listed signal changes (R262). -/
  | waitListEvaluation (tenant q : Nat)
  /-- The MC copies and remaps range pages into the partition's slices (R263). -/
  | rangeMigration (tenant q : Nat) (frames : List Nat) (writes : List (Nat × Word)) (owners : List (Nat × Nat))
  /-- A module's arrival stamped with the generation number reaches the start barrier (R36). -/
  | startBarrierArrival (tenant q idx rank gen : Nat)
  /-- A replica's completion reaches the originating queue, which completes when all are done (R269). -/
  | replicaCompletion (tenant q idx rank status cause task : Nat)
  /-- The LW claims and scrubs free cores for a PROTECTED task (R24). -/
  | coreClaim (tenant q idx : Nat)
  /-- The LW dispatches a task or gang to free cores and preloads its registers (R27). -/
  | taskDispatch (part : Nat)
  /-- A task ends once its sequencers ended and its operations completed (R29). -/
  | taskEnd (core : Nat)
  /-- A busy tenant with no balance borrows tokens from an idle tenant (R273). -/
  | tokenBorrow (part tenant : Nat)
  /-- At each 100 µs boundary debts are repaid and balances refilled (R272). -/
  | arbitrationPeriod (part : Nat)
  /-- Every 10 µs a capped partition's throttle level is adjusted (R276). -/
  | powerCapTick (part watts : Nat)
  /-- Every 10 µs the module limiter adjusts uncapped partitions' level (R367). -/
  | moduleLimiterTick (watts10us watts1s : Nat)
  /-- Every 10 µs a die's thermal level rises or falls (R370). -/
  | thermalLevelTick (die degrees : Nat)
  /-- At 120 °C power is removed from every die and a trip is recorded (R370). -/
  | thermalTrip
  /-- A droop gates matrix and vector issue on a die for 64 cycles (R368). -/
  | supplyDroop (die : Nat)
  /-- After 4,096 stuck cycles every task of the gang ends with 0xA5 (R39). -/
  | deadlockWatchdog (gang : Nat)
  /-- An unacknowledged invalidation hard-stops the core's task with 0xD5 (R292). -/
  | quiescentPointWatchdog (core : Nat)
  /-- A drain that exceeds its bound reports 0xD2 and escalates to a hard stop (R288). -/
  | drainWatchdog (ctx : Nat)
  /-- The start barrier times out and every module faults the record with 0xC4 (R36). -/
  | podStartTimeout (tenant q idx : Nat)
  /-- Stops dispatch of a context and drains its running tasks (R288). -/
  | sliceEndPreemption (ctx : Nat)
  /-- All tasks have ended; walker positions are saved and 0xD0 reported (R288). -/
  | drainComplete (ctx : Nat)
  /-- Stops a task at boundaries and seals its context image (R289). -/
  | hardStop (core : Nat) (persist : Bool) (handles : List (BitVec 256))
  /-- The MC pre-copies, stops and transfers a partition to another module (R294). -/
  | migration (part : Nat) (handles : List (BitVec 256))
  /-- The MC moves a slice page by page through a forwarding table (R295). -/
  | sliceMove (part slice target : Nat)
  /-- The MC stops every task, copies slices and restores them (R296). -/
  | legacySliceCopy (part slice target : Nat)
  /-- The MC reads and clears 64 bits of a partition's dirty bitmap (R293). -/
  | dirtyBitmapRead (part word : Nat)
  /-- The driver assigns a launch queue to a context with its ring and signal area (R258). -/
  | queueConfigure (cfg : QueueSetup)
  /-- The MC sets a tenant's token budget in a partition (R272). -/
  | setBudget (part tenant tokens : Nat)
  /-- The MC sets partition power caps within the envelope (R276). -/
  | setPowerCap (caps : List (Nat × Nat))
  /-- The MC sets reduction-slot quotas on every plane (R380). -/
  | setSlotQuota (quotas : List (Nat × Nat))
  /-- The MC sets a partition's cistern share (R341). -/
  | setCisternShare (part stack units : Nat)
  /-- Binds a tenant to a key slot with its owner identity and policy (R299). -/
  | bind (w : Requester) (tenant : Nat) (pol : TenantPolicy)
  /-- Replaces a tenant's policy whole (R305). -/
  | policy (w : Requester) (tenant : Nat) (pol : TenantPolicy)
  /-- Ends the tenant's contexts, zeroises its slot and scrubs its pages and rows (R299). -/
  | unbind (r : Request Nat)
  /-- The driver asks the TC to mint a handle (R304). -/
  | mint (r : Request Nat) (ctx base len rights fmt flags : Nat)
  /-- Revokes a serial or all handles through the TC (R307). -/
  | revoke (r : Request Nat) (serial : Nat) (all : Bool)
  /-- Starts a key-generation rotation through the TC (R312). -/
  | rotate (r : Request Nat)
  /-- Registers an import or export stream with its key (R322). -/
  | streamOpen (r : Request Nat) (stream : Nat) (outward : Bool) (key : BitVec 256) (last : Nat)
  /-- Waits for the stream's copies, then erases its key (R322). -/
  | streamClose (r : Request Nat) (stream : Nat)
  /-- Binds a persistent counter to a task (R333). -/
  | counterBind (r : Request Nat) (ctx task : Nat)
  /-- Reads a persistent counter (R299). -/
  | counterRead (r : Request Nat)
  /-- The TC checks an image and restores it onto free cores (R330). -/
  | restore (r : Request (List (BitVec 256)))
  /-- Blows the next fuse pair after verifying a signed manifest (R335). -/
  | fuseAdvance (r : Request Nat) (version : Nat) (signed cut : Bool)
  /-- Returns the lifetime record with a fresh digest (R376). -/
  | lifeRead
  /-- Hourly or at shutdown the record is written to alternating copies (R375). -/
  | lifetimeSave
  /-- A patrol reads and corrects an HBM line, poisoning uncorrectable ones (R373). -/
  | patrolScrub (line errs : Nat)
  /-- Application of power resets the device and runs bring-up (R371). -/
  | coldReset
  /-- PERST# resets the device to the reset state (R371). -/
  | warmReset
  /-- Power is lost; counters keep a consistent value (R372). -/
  | powerLoss
  /-- Function-level reset of a TDI ends its contexts and scrubs their state (R291). -/
  | flr (tdi : Nat)
  /-- A TDI enters ERROR and every context ends as by an FLR (R321). -/
  | tdiError (tdi : Nat)
  /-- A link frame arrives and its GCM tag is checked (R337). -/
  | frameReceive (port : Nat) (frame : Frame) (tag : List Byte) (core id : Nat) (result : Bool)
  /-- A Eutor link opens after mutual SPDM authentication (R324). -/
  | linkOpen (port : Nat) (authentic : Bool) (peer : BitVec 384) (peerPort : Nat)
  /-- A link-key generation is retired when every link acknowledged its successor (R361). -/
  | linkKeyRetire (part : Nat)
  /-- All members have issued their COLL; layouts are compared and slots granted (R350). -/
  | collectiveRendezvous (core id : Nat) (members : List (Nat × CollWords)) (reachable : Bool)
  /-- A louvre header or plane lands and the tile's precision counter advances (R355). -/
  | planeLanding (core id tile : Nat) (peers : List (Nat × List Byte))
  /-- A collective's writes have performed and its completion object is delivered (R353). -/
  | collectiveCompletion (core id status : Nat) (peers : List (Nat × List Byte))
  /-- All modules have contributed to a word's round and waiting APLDs complete (R344). -/
  | apertureRoundComplete (core slot word : Nat) (others : PeerRound)
  /-- A store, atomic or signal addition issued earlier performs at memory, which FENCE, releases, SIGWAIT and task end wait for (R158). -/
  | storePerformed (core id : Nat)
  /-- A running copy, GATHER, SCATTER or collective chunk meets a first-stage fault (0x48) or an integrity failure at an element and halts or ends the task (R283). -/
  | copyTranslationFault (core id elem : Nat) (coll : Bool)
  /-- The host reads or writes device memory through a TDI, setting dirty bits and changing signals (R293). -/
  | hostAccess (tdi addr len : Nat) (write : Bool) (data : List Byte)
  /-- The MC creates a partition with its clusters, slices, ports and routes, throttle level 0 and a 64 MiB cistern share per stack (R339). -/
  | partitionCreate (cfg : PartSetup)
  /-- A TDISP message moves a TDI through its states, such as to CONFIG_LOCKED or RUN (R321). -/
  | tdispMessage (tdi target : Nat)
  /-- The TC answers an SPDM request such as session setup or GET_MEASUREMENTS (R323). -/
  | spdmMessage (m : Measure)
  /-- A drained context is resumed and dispatch continues from its saved walker positions (R288). -/
  | contextResume (ctx : Nat)
  /-- One page of a moving slice finishes copying, its forwarding state turns to New, and the writes waiting on it apply (R295). -/
  | sliceMovePage (part slice : Nat)
  /-- A link of a partition is updated to a new link-key generation, after which its sender seals new frames under that generation (R361). -/
  | linkKeyUpdate (part port : Nat)
  /-- Each second the hottest junction is sampled into the lifetime record's temperature bins and power-on time advances (R375). -/
  | junctionTemperatureSample (degrees : Nat)
  deriving DecidableEq, Repr

end Sys2Proof
end

