-- ==== Sys2Proof/Config.lean ====
section
/-!
DEFINITION. What is fixed for the part, and the free values: constants without a body for what the manual leaves
open. A free value is applied to the counter `draws` of the state, so that each use has its own.
-/
namespace Sys2Proof

namespace Config

/-- Free value: the keys the TC draws (R298, R299, R303, R312). -/
opaque randomKey : Nat → BitVec 256
/-- Free value: the initialisation vectors the TC draws (R329). -/
opaque randomIv : Nat → BitVec 96
/-- Free value: the session epoch drawn at power-on (R331). -/
opaque sessionEpoch : Nat → BitVec 64
/-- Free value: whether a die TLB still holds the entry of a virtual page at a step (R279, R253). -/
opaque tlbHolds : Nat → Nat → Bool
/-- Free value: what the running tasks of a queue are charged over some cycles, in microjoules, of a use and a queue
(R277). -/
opaque energy : Nat → Nat → Nat
/-- Free value: which fuse of a pair is left half blown when power is lost (R335, R372). -/
opaque halfBlown : Nat → Bool
/-- Free value: a number by which an open choice is made (R338: what was outstanding on a link; R350, R357, R359: slots,
cuts, and what has landed). -/
opaque pick : Nat → Nat
/-- Free value: the step at which bring-up fails, if it does (R372). -/
opaque bringUp : Nat → Option Nat
/-- Free value: a byte that the manual leaves open, of a use and a place (R20: the bytes of a scalar register that a narrower
window write does not name). -/
opaque openByte : Nat → Nat → BitVec 8
/-- Free value: the translation fault that an access meets at a peer module, of a use and an address: a place in the list of
causes, past its end where there is none (R340). -/
opaque peerFault : Nat → Nat → Nat
/-- Free value: what a staging chunk holds that carries neither this module's source nor anything that a program may read, of a
use (R341, R347). -/
opaque chunkBytes : Nat → List (BitVec 8)
/-- The device-physical address of a staging chunk in the cistern, which the manual does not give, of the core and the collective
whose it is and its number (R315, R341). -/
opaque cisternAddr : Nat → Nat → Nat → Nat
/-- Free value: the firmware images that the TC loads at a boot (R335): of the boot and the fuse counter that guards each, its
security version and its bytes. -/
opaque firmwareVersion : Nat → Nat → Nat
opaque firmwareImage : Nat → Nat → List (BitVec 8)
/-- The form in which a configuration is measured, which the manual does not give: of a measurement block and the numbers that
it holds (R323). -/
opaque measured : Nat → List Nat → List (BitVec 8)
/-- SPDM's transcript of an exchange, which is what a signature covers, of the requester's nonce or share and what the TC answers;
and its key schedule, of a shared secret: the manual names the standard and gives neither (R323). -/
opaque transcript : List (BitVec 8) → List (BitVec 8) → List (BitVec 8)
opaque sessionKey : Nat → BitVec 256
/-- From manufacture, and never read out (R310, R323): the TC's persistence root, its identity key and its certificate chain. -/
opaque persistenceRoot : BitVec 256
opaque identityKey : BitVec 384
opaque certificates : List (BitVec 8)
/-- The wrapping of a key under the persistence root, whose algorithm the manual does not give (R310, R333): a mask. -/
opaque wrapMask : BitVec 256 → BitVec 256
/-- The bank cipher and its row tag, whose rounds the manual does not give (Table 17-7): of the key, the core, the row and the
plaintext or the ciphertext. -/
opaque bankCipher : BitVec 256 → Nat → Nat → List (BitVec 8) → List (BitVec 8)
opaque bankTag : BitVec 256 → Nat → Nat → List (BitVec 8) → BitVec 24
/-- The module identifier (R151, MODID): fixed for a module, not given by the manual. -/
opaque moduleId : BitVec 64

/-- Number of cores (Table 0-1). -/
def numCores : Nat := 512
/-- Number of clusters (Table 0-1). -/
def numClusters : Nat := 32
/-- Cores of a cluster (Table 0-1). -/
def clusterCores : Nat := 16
/-- Compute dies (Table 0-1). -/
def numDies : Nat := 4
/-- Number of TDIs (Table 0-1). -/
def numTdis : Nat := 32
/-- Number of tenants and of key slots (Table 0-1). -/
def numTenants : Nat := 1024
/-- Number of contexts (Table 0-1). -/
def numContexts : Nat := 4096
/-- Number of HBM slices (Table 0-1). -/
def numSlices : Nat := 32
/-- Entries of the last-level TLB of a die (Table 0-1). -/
def tlbEntries : Nat := 8192
/-- Agents that are no core, as writers of memory (R227): service agents of the module, the host, peer modules. -/
def serviceAgent : Nat := 512
def hostAgent : Nat := 513
def peerAgent : Nat := 514
/-- Bytes of an HBM slice, 12 GiB (R5). -/
def sliceBytes : Nat := 0x300000000
/-- Bytes of the HBM of the module (R5). -/
def hbmBytes : Nat := numSlices * sliceBytes
/-- The on-chip region (R17). -/
def onchipBase : Nat := 0xFFF0000000000
/-- Bytes of a 64 KiB page (R278). -/
def pageBytes : Nat := 0x10000
/-- Copies that a CE holds in flight (R9). -/
def maxCopies : Nat := 512
/-- Outstanding memory requests of a core (R9). -/
def maxRequests : Nat := 1024
/-- Reduction slots of a switch plane (R380). -/
def planeSlots : Nat := 512
/-- Serials that a revocation list holds (R306). -/
def maxRevoked : Nat := 1024
/-- Persistent counters (Table 0-1). -/
def numCounters : Nat := 4096
/-- Commits that a persistent counter is good for (R333). -/
def maxCommits : Nat := 1000000
/-- Session counter values that a live set holds (R331). -/
def maxLive : Nat := 512
/-- Cycles of the deadlock watchdog (R39). -/
def deadlockCycles : Nat := 4096
/-- Faults that a TDI holds for lack of ring space (R285). -/
def maxHeld : Nat := 64
/-- Bounds that hold where the MC gives no other, in microseconds: the start timeout (R36), the drain bound (R288), the
quiescent-point watchdog (R254). -/
def startTimeout : Nat := 100000
def drainBound : Nat := 2000
def quiescentBound : Nat := 2000
/-- Cycles of one microsecond (R2: the clock is 1.7 GHz). -/
def cyclesPerMicro : Nat := 1700

end Config

end Sys2Proof
end

