-- ==== Sys2Proof/WellFormed.lean ====
section
/-!
DEFINITION. The checks that depend on the bits of the code alone and that the encoding tables leave to the
instruction descriptions: each failure is cause 0x02 (R85, R86, R91). The decoder has already refused every
non-zero reserved field.
-/
namespace Sys2Proof

/-- Token queues are numbered 0 to 11 (R10, R85). -/
def wfQueue (q : Nat) : Bool := decide (q < 12)
/-- Rills are numbered 0 to 15 (R85, R122). -/
def wfRill (w : Nat) : Bool := decide (w < 16)
/-- PAT bits beyond the covered count are zero (R81). -/
def wfPattern (n : BitVec 3) (p : BitVec 8) : Bool := decide (p.toNat < 2 ^ (n.toNat + 1))
/-- For PT and PF the field names a predicate, so its upper bits are zero (R114). -/
def wfBranchCond (a : BitVec 5) (c : BitVec 3) : Bool := decide (c.toNat < 6) || decide (a.toNat < 8)
/-- Scopes are 0 to 4 (R86). -/
def wfScope (s : BitVec 3) : Bool := decide (s.toNat ≤ 4)
/-- The ord, scope and Q fields of a load (R156, R157). -/
def wfLoad (d : BitVec 5) (o : BitVec 2) (s : BitVec 3) (q : BitVec 1) : Bool :=
  wfScope s && o != 2 && (o == 1 || s == 0) && (q == 0 || (decide (1 ≤ d.toNat) && decide (d.toNat ≤ 3)))
/-- The ord and scope fields of a store (R158). -/
def wfStore (o : BitVec 2) (s : BitVec 3) : Bool := wfScope s && (o == 1 || s == 0)
/-- A group of registers that begins at `a` and has `k` followers lies within s0 to s31 (R86, R162, R122). -/
def wfGroup (a : BitVec 5) (k : Nat) : Bool := decide (a.toNat + k ≤ 31)
/-- SIGWAIT relations are 0 to 5 (R166). -/
def wfSignalRel (r : BitVec 3) : Bool := decide (r.toNat ≤ 5)
/-- FENCE kinds are 0 to 2 (R164). -/
def wfFenceKind (k : BitVec 2) : Bool := k != 3
/-- The item and field of CESH (R173). -/
def wfShapeItem (i : BitVec 4) (f : BitVec 2) : Bool :=
  if i = 15 then f == 0 else decide (i.toNat ≤ 9) && f != 3
/-- HGET selectors are 0 to 10 (R143). -/
def wfHandleField (s : BitVec 4) : Bool := decide (s.toNat ≤ 10)
/-- KSTAT selectors are 0 to 33 (R146). -/
def wfKstat (s : BitVec 10) : Bool := decide (s.toNat ≤ 33)
/-- TRAP numbers are 0 to 14 (R150). -/
def wfTrap (n : BitVec 4) : Bool := n != 15
/-- The system registers of Table 7-11 (R151). -/
def wfSysReg (r : BitVec 11) : Bool :=
  decide (r.toNat ≤ 0x00C) || (decide (0x010 ≤ r.toNat) && decide (r.toNat ≤ 0x01B))
    || r == 0x020 || r == 0x021
/-- FPMODE and FPFLAGS are the only system registers that can be written (Table 7-11). -/
def wfSysRegWrite (r : BitVec 11) : Bool := r == 0x001 || r == 0x002
/-- With the launcher bit the queue field of ENRG is zero (R152). -/
def wfEnergy (l : BitVec 1) (q : BitVec 6) : Bool := l == 0 || q == 0
/-- MXSET writes registers 0x000 to 0x023 (R208). -/
def wfMxSet (r : BitVec 11) : Bool := decide (r.toNat ≤ 0x023)
/-- MXGET reads registers 0x000 to 0x024 (R208). -/
def wfMxGet (r : BitVec 11) : Bool := decide (r.toNat ≤ 0x024)
/-- Compare modes are 0 to 2 (R214). -/
def wfCompareMode (m : BitVec 2) : Bool := m != 3
/-- Tile type codes are 0 to 4 (R190, R224). -/
def wfTileType (y : BitVec 6) : Bool := decide (y.toNat ≤ 4)
/-- ACLR stays within the tile (R224). -/
def wfClearRows (d c : BitVec 6) : Bool := decide (d.toNat + c.toNat ≤ 63)
/-- VCVT source types are 0 to 4 (R219). -/
def wfVcvtType (s : BitVec 3) : Bool := decide (s.toNat ≤ 4)
/-- KBF selectors are 0 to 2 (R220). -/
def wfKbfSel (f : BitVec 2) : Bool := f != 3
/-- PLWAIT plane counts are 1 to 16 (R357). -/
def wfPlanes (n : BitVec 5) : Bool := decide (1 ≤ n.toNat) && decide (n.toNat ≤ 16)
/-- Reduction slot types are 0 to 2 (R342). -/
def wfSlotType (t : BitVec 3) : Bool := decide (t.toNat ≤ 2)

/-- No field of the instruction holds a value that is cause 0x02 by the bits of the code alone.
An operation that is no instruction of a stream has no encoding, and nothing to check. -/
def Instr.wf : Instr → Bool
  | .hdr .. => true
  | .nop => true
  | .mov .. => true
  | .addShort .. => true
  | .subShort .. => true
  | .andShort .. => true
  | .orShort .. => true
  | .xorShort .. => true
  | .addi6 .. => true
  | .shliShort .. => true
  | .shriShort .. => true
  | .li6 .. => true
  | .tclr .. => true
  | .adv .. => true
  | .tks _ q => wfQueue q.toNat
  | .tkw _ q => wfQueue q.toNat
  | .arr .. => true
  | .rep .. => true
  | .pmov .. => true
  | .ret => true
  | .br16 .. => true
  | .endStream => true
  | .qpt => true
  | .spl .. => true
  | .fil .. => true
  | .add .. => true
  | .sub .. => true
  | .mul .. => true
  | .mulh .. => true
  | .mulhu .. => true
  | .div .. => true
  | .divu .. => true
  | .rem .. => true
  | .remu .. => true
  | .and .. => true
  | .or .. => true
  | .xor .. => true
  | .andn .. => true
  | .shl .. => true
  | .shr .. => true
  | .sar .. => true
  | .rot .. => true
  | .min .. => true
  | .max .. => true
  | .minu .. => true
  | .maxu .. => true
  | .clz .. => true
  | .ctz .. => true
  | .popc .. => true
  | .sext .. => true
  | .zext .. => true
  | .bfx .. => true
  | .bfi .. => true
  | .selp .. => true
  | .addsat .. => true
  | .subsat .. => true
  | .madd .. => true
  | .cmpeq .. => true
  | .cmpne .. => true
  | .cmplt .. => true
  | .cmple .. => true
  | .cmpltu .. => true
  | .cmpleu .. => true
  | .addLit .. => true
  | .subLit .. => true
  | .mulLit .. => true
  | .mulhLit .. => true
  | .mulhuLit .. => true
  | .divLit .. => true
  | .divuLit .. => true
  | .remLit .. => true
  | .remuLit .. => true
  | .andLit .. => true
  | .orLit .. => true
  | .xorLit .. => true
  | .andnLit .. => true
  | .shlLit .. => true
  | .shrLit .. => true
  | .sarLit .. => true
  | .rotLit .. => true
  | .minLit .. => true
  | .maxLit .. => true
  | .minuLit .. => true
  | .maxuLit .. => true
  | .sextLit .. => true
  | .zextLit .. => true
  | .bfxLit .. => true
  | .bfiLit .. => true
  | .selpLit .. => true
  | .addsatLit .. => true
  | .subsatLit .. => true
  | .maddLit .. => true
  | .cmpeqLit .. => true
  | .cmpneLit .. => true
  | .cmpltLit .. => true
  | .cmpleLit .. => true
  | .cmpltuLit .. => true
  | .cmpleuLit .. => true
  | .addi .. => true
  | .andi .. => true
  | .ori .. => true
  | .xori .. => true
  | .shli .. => true
  | .shri .. => true
  | .sari .. => true
  | .roti .. => true
  | .cmpi .. => true
  | .lit .. => true
  | .lith .. => true
  | .pand .. => true
  | .por .. => true
  | .pxor .. => true
  | .pnot .. => true
  | .pset .. => true
  | .pandLit .. => true
  | .porLit .. => true
  | .pxorLit .. => true
  | .pb _ n p => wfPattern n p
  | .brc a c _ => wfBranchCond a c
  | .br .. => true
  | .call .. => true
  | .jr .. => true
  | .jrLit .. => true
  | .jalr .. => true
  | .jalrLit .. => true
  | .retL .. => true
  | .retLLit .. => true
  | .loop .. => true
  | .tksL q _ _ => wfQueue q.toNat
  | .tkwL q _ _ => wfQueue q.toNat
  | .bjoin .. => true
  | .bleave .. => true
  | .barr .. => true
  | .barn .. => true
  | .bwait .. => true
  | .bcnt .. => true
  | .sstep => true
  | .ssync => true
  | .sphase .. => true
  | .winit w _ => wfRill w.toNat
  | .wwaitf w _ _ => wfRill w.toNat
  | .wwaite w _ _ => wfRill w.toNat
  | .wadvp w _ _ => wfRill w.toNat
  | .wadvc w _ _ => wfRill w.toNat
  | .wstat .. => true
  | .ld d _ _ _ o s q => wfLoad d o s q
  | .ldLit d _ _ _ o s q _ => wfLoad d o s q
  | .st _ _ _ _ o s => wfStore o s
  | .stLit _ _ _ _ o s _ => wfStore o s
  | .aadd _ _ a s _ => wfScope s && wfGroup a 1
  | .aand _ _ a s _ => wfScope s && wfGroup a 1
  | .aor _ _ a s _ => wfScope s && wfGroup a 1
  | .axor _ _ a s _ => wfScope s && wfGroup a 1
  | .amin _ _ a s _ => wfScope s && wfGroup a 1
  | .amax _ _ a s _ => wfScope s && wfGroup a 1
  | .aminu _ _ a s _ => wfScope s && wfGroup a 1
  | .amaxu _ _ a s _ => wfScope s && wfGroup a 1
  | .aswp _ _ a s _ => wfScope s && wfGroup a 1
  | .acas _ _ a s _ => wfScope s && wfGroup a 2
  | .sigadd .. => true
  | .sigwait _ _ _ r _ => wfSignalRel r
  | .fence k s => wfScope s && wfFenceKind k
  | .align .. => true
  | .tclrL .. => true
  | .qptL => true
  | .pref .. => true
  | .prefLit .. => true
  | .cpy _ _ _ a _ => wfGroup a 1
  | .cpyin _ _ _ a _ => wfGroup a 1
  | .cpyout _ _ _ a _ => wfGroup a 1
  | .cpyz _ _ a _ => wfGroup a 1
  | .cpycv _ _ _ a _ => wfGroup a 1
  | .gather _ _ _ a _ => wfGroup a 1
  | .scatter _ _ _ a _ => wfGroup a 1
  | .cesh _ f i _ => wfShapeItem i f
  | .cwait .. => true
  | .ccnt .. => true
  | .cstat .. => true
  | .cstatIssued .. => true
  | .hreq a _ => wfGroup a 3
  | .hwait .. => true
  | .hmov .. => true
  | .hclr .. => true
  | .hld .. => true
  | .hst .. => true
  | .hchk .. => true
  | .hget _ _ s => wfHandleField s
  | .hrevk .. => true
  | .hrevkAll .. => true
  | .krot .. => true
  | .kstat _ s => wfKstat s
  | .trap n => wfTrap n
  | .gets _ r => wfSysReg r
  | .sets _ r => wfSysRegWrite r
  | .yield .. => true
  | .clk .. => true
  | .enrg _ l q => wfEnergy l q
  | .nopl => true
  | .launch _ a _ => wfGroup a 2
  | .qstat .. => true
  | .save .. => true
  | .coll _ a _ _ _ _ _ => wfGroup a 3
  | .collw .. => true
  | .collwCancel .. => true
  | .plwait _ n => wfPlanes n
  | .plcnt .. => true
  | .plcut .. => true
  | .apst .. => true
  | .apld .. => true
  | .rslotReserve _ _ t => wfSlotType t
  | .rslotRelease .. => true
  | .layx .. => true
  | .mxset _ r => wfMxSet r
  | .mxget _ r => wfMxGet r
  | .mxgo => true
  | .mxwait => true
  | .mxprog .. => true
  | .mxabort => true
  | .wld => true
  | .kset .. => true
  | .kgen .. => true
  | .vadd .. => true
  | .vsub .. => true
  | .vmul .. => true
  | .vfma .. => true
  | .vfms .. => true
  | .vmin .. => true
  | .vmax .. => true
  | .vcpys .. => true
  | .vadds .. => true
  | .vmuls .. => true
  | .vfmas .. => true
  | .vmaxs .. => true
  | .vmins .. => true
  | .vsubs .. => true
  | .viadd .. => true
  | .visub .. => true
  | .vimul .. => true
  | .vimac .. => true
  | .vand .. => true
  | .vor .. => true
  | .vxor .. => true
  | .vshl .. => true
  | .vshr .. => true
  | .vsar .. => true
  | .vimin .. => true
  | .vimax .. => true
  | .vceq _ m _ _ => wfCompareMode m
  | .vcne _ m _ _ => wfCompareMode m
  | .vclt _ m _ _ => wfCompareMode m
  | .vcle _ m _ _ => wfCompareMode m
  | .vsel .. => true
  | .vmnot => true
  | .vmpop .. => true
  | .vexp2 .. => true
  | .vlog2 .. => true
  | .vrcpa .. => true
  | .vrsqa .. => true
  | .vrcpr .. => true
  | .vrsqr .. => true
  | .vflr .. => true
  | .vrnd .. => true
  | .vfrc .. => true
  | .vrsum .. => true
  | .vrmax .. => true
  | .vrmin .. => true
  | .vwelf .. => true
  | .vwmrg .. => true
  | .vshf .. => true
  | .vrot .. => true
  | .vbcst .. => true
  | .vcvt _ _ _ _ s => wfVcvtType s
  | .vkenc _ _ _ _ f => wfKbfSel f
  | .vkdec _ _ _ _ f => wfKbfSel f
  | .vpldec .. => true
  | .vld .. => true
  | .vst .. => true
  | .vldc .. => true
  | .vstc .. => true
  | .aclr _ d c => wfClearRows d c
  | .afmt _ y => wfTileType y
  | .amov .. => true
  | .axpose .. => true
  | .await .. => true
  | .loadValueDelivery .. => true
  | .loadPerformed .. => true
  | .copyCompletion .. => true
  | .cpyinVerify .. => true
  | .meOperationStart .. => true
  | .meRowStep .. => true
  | .weightBlockFill .. => true
  | .meBroadcastRendezvous .. => true
  | .mintAnswer .. => true
  | .revocationSweep .. => true
  | .rotationPageConvert .. => true
  | .bankRowRekey .. => true
  | .zeroWalkRow .. => true
  | .hbmScrubPage .. => true
  | .persistentCommit .. => true
  | .invalidation .. => true
  | .secondStageFaultService .. => true
  | .qtailWrite .. => true
  | .qstateOvfClear .. => true
  | .qctlReset .. => true
  | .queueResetComplete .. => true
  | .fresRetry .. => true
  | .fresEndTask .. => true
  | .registerWrite .. => true
  | .candidateCheck .. => true
  | .waitListEvaluation .. => true
  | .rangeMigration .. => true
  | .startBarrierArrival .. => true
  | .replicaCompletion .. => true
  | .coreClaim .. => true
  | .taskDispatch .. => true
  | .taskEnd .. => true
  | .tokenBorrow .. => true
  | .arbitrationPeriod .. => true
  | .powerCapTick .. => true
  | .moduleLimiterTick .. => true
  | .thermalLevelTick .. => true
  | .thermalTrip => true
  | .supplyDroop .. => true
  | .deadlockWatchdog .. => true
  | .quiescentPointWatchdog .. => true
  | .drainWatchdog .. => true
  | .podStartTimeout .. => true
  | .sliceEndPreemption .. => true
  | .drainComplete .. => true
  | .hardStop .. => true
  | .migration .. => true
  | .sliceMove .. => true
  | .legacySliceCopy .. => true
  | .dirtyBitmapRead .. => true
  | .queueConfigure .. => true
  | .setBudget .. => true
  | .setPowerCap .. => true
  | .setSlotQuota .. => true
  | .setCisternShare .. => true
  | .bind .. => true
  | .policy .. => true
  | .unbind .. => true
  | .mint .. => true
  | .revoke .. => true
  | .rotate .. => true
  | .streamOpen .. => true
  | .streamClose .. => true
  | .counterBind .. => true
  | .counterRead .. => true
  | .restore .. => true
  | .fuseAdvance .. => true
  | .lifeRead => true
  | .lifetimeSave => true
  | .patrolScrub .. => true
  | .coldReset => true
  | .warmReset => true
  | .powerLoss => true
  | .flr .. => true
  | .tdiError .. => true
  | .frameReceive .. => true
  | .linkOpen .. => true
  | .linkKeyRetire .. => true
  | .collectiveRendezvous .. => true
  | .planeLanding .. => true
  | .collectiveCompletion .. => true
  | .apertureRoundComplete .. => true
  | .storePerformed .. => true
  | .copyTranslationFault .. => true
  | .hostAccess .. => true
  | .partitionCreate .. => true
  | .tdispMessage .. => true
  | .spdmMessage .. => true
  | .contextResume .. => true
  | .sliceMovePage .. => true
  | .linkKeyUpdate .. => true
  | .junctionTemperatureSample .. => true

end Sys2Proof
end

