-- ==== Sys2Proof/Decode.lean ====
section
/-!
DEFINITION. The decoder and the encoder of the instruction streams (05_encoding.md, Tables 5-1 to 5-9), and
the stepping of register fields under REP (R77, R78). Decoding is total: a pattern that is no instruction is
refused with the cause that Table 5-10 names, 0x01 for an unassigned operation and 0x02 for a reserved field.
Instr has more constructors than Lean's runtime has tags for, so what builds one of the later ones is marked
noncomputable: Lean emits no code for it, and the kernel evaluates it as any other definition.
-/
namespace Sys2Proof

/-- `n` bits of a long word from bit `lo` upward (R4). -/
def fld (w : BitVec 32) (lo n : Nat) : BitVec n := w.extractLsb' lo n

/-- `n` bits of a short parcel from bit `lo` upward. -/
def sfld (p : BitVec 16) (lo n : Nat) : BitVec n := p.extractLsb' lo n

/-- The major opcode of a long word (R68). -/
def majorOf (w : BitVec 32) : Nat := (fld w 24 6).toNat

/-- A parcel that begins a long word has its two top bits set (R68). -/
def isLongParcel (p : Parcel) : Bool := sfld p 14 2 == 3

/-- A long word from its two parcels, high half first (R68). -/
def wordOfParcels (hi lo : Parcel) : BitVec 32 := hi ++ lo

/-- The instructions that carry a literal word (Table 5-1). -/
def hasLiteral (w : BitVec 32) : Bool :=
  match majorOf w with
  | 0x01 | 0x09 | 0x0E | 0x14 | 0x15 | 0x19 => fld w 1 1 == 1
  | 0x08 | 0x1A | 0x1B => true
  | 0x23 => fld w 10 4 == 0
  | _ => false

/-- Short instructions (Table 5-8). -/
def decodeShort (p : BitVec 16) : Except Cause Instr :=
  match (sfld p 11 5).toNat with
  | 0x00 => if sfld p 0 11 = 0 then .ok (.nop) else .error 0x02
  | 0x01 => if sfld p 5 1 = 0 then .ok (.mov (sfld p 6 5) (sfld p 0 5)) else .error 0x02
  | 0x02 => if sfld p 5 1 = 0 then .ok (.addShort (sfld p 6 5) (sfld p 0 5)) else .error 0x02
  | 0x03 => if sfld p 5 1 = 0 then .ok (.subShort (sfld p 6 5) (sfld p 0 5)) else .error 0x02
  | 0x04 => if sfld p 5 1 = 0 then .ok (.andShort (sfld p 6 5) (sfld p 0 5)) else .error 0x02
  | 0x05 => if sfld p 5 1 = 0 then .ok (.orShort (sfld p 6 5) (sfld p 0 5)) else .error 0x02
  | 0x06 => if sfld p 5 1 = 0 then .ok (.xorShort (sfld p 6 5) (sfld p 0 5)) else .error 0x02
  | 0x07 => .ok (.addi6 (sfld p 6 5) (sfld p 0 6))
  | 0x08 => .ok (.shliShort (sfld p 6 5) (sfld p 0 6))
  | 0x09 => .ok (.shriShort (sfld p 6 5) (sfld p 5 1) (sfld p 0 5))
  | 0x0A => .ok (.li6 (sfld p 6 5) (sfld p 0 6))
  | 0x0B => if sfld p 0 5 = 0 then .ok (.tclr (sfld p 6 5) (sfld p 5 1)) else .error 0x02
  | 0x0C => if sfld p 4 1 = 0 then .ok (.adv (sfld p 6 5) (sfld p 5 1) (sfld p 0 4)) else .error 0x02
  | 0x0D => if sfld p 4 2 = 0 then .ok (.tks (sfld p 6 5) (sfld p 0 4)) else .error 0x02
  | 0x0E => if sfld p 4 2 = 0 then .ok (.tkw (sfld p 6 5) (sfld p 0 4)) else .error 0x02
  | 0x0F => if sfld p 5 6 = 0 then .ok (.arr (sfld p 0 5)) else .error 0x02
  | 0x10 => .ok (.rep (sfld p 10 1) (sfld p 9 1) (sfld p 8 1) (sfld p 7 1) (sfld p 6 1) (sfld p 0 6))
  | 0x11 => if sfld p 3 2 = 0 ∧ sfld p 9 2 = 0 then .ok (.pmov (sfld p 6 3) (sfld p 5 1) (sfld p 0 3)) else .error 0x02
  | 0x12 => if sfld p 0 11 = 0 then .ok (.ret) else .error 0x02
  | 0x13 => .ok (.br16 (sfld p 0 11))
  | 0x14 => if sfld p 0 11 = 0 then .ok (.endStream) else .error 0x02
  | 0x15 => if sfld p 0 11 = 0 then .ok (.qpt) else .error 0x02
  | 0x16 => if sfld p 5 1 = 0 then .ok (.spl (sfld p 6 5) (sfld p 0 5)) else if sfld p 5 1 = 1 then .ok (.fil (sfld p 6 5) (sfld p 0 5)) else .error 0x02
  | _ => .error 0x01

/-- Major 0x00 (Table 5-9). -/
def decodeHdr (w : BitVec 32) : Except Cause Instr :=
  .ok (.hdr (fld w 12 12) (fld w 0 12))

/-- Major 0x01 (Table 5-9). -/
def decodeAlu (w : BitVec 32) (lit : BitVec 32) : Except Cause Instr :=
  match (fld w 2 7).toNat with
  | 0x00 => if fld w 1 1 = 0 then .ok (.add (fld w 19 5) (fld w 14 5) (fld w 9 5) (fld w 0 1)) else if fld w 1 1 = 1 ∧ fld w 9 5 = 0 then .ok (.addLit (fld w 19 5) (fld w 14 5) (fld w 0 1) lit) else .error 0x02
  | 0x01 => if fld w 1 1 = 0 then .ok (.sub (fld w 19 5) (fld w 14 5) (fld w 9 5) (fld w 0 1)) else if fld w 1 1 = 1 ∧ fld w 9 5 = 0 then .ok (.subLit (fld w 19 5) (fld w 14 5) (fld w 0 1) lit) else .error 0x02
  | 0x02 => if fld w 1 1 = 0 then .ok (.mul (fld w 19 5) (fld w 14 5) (fld w 9 5) (fld w 0 1)) else if fld w 1 1 = 1 ∧ fld w 9 5 = 0 then .ok (.mulLit (fld w 19 5) (fld w 14 5) (fld w 0 1) lit) else .error 0x02
  | 0x03 => if fld w 1 1 = 0 then .ok (.mulh (fld w 19 5) (fld w 14 5) (fld w 9 5) (fld w 0 1)) else if fld w 1 1 = 1 ∧ fld w 9 5 = 0 then .ok (.mulhLit (fld w 19 5) (fld w 14 5) (fld w 0 1) lit) else .error 0x02
  | 0x04 => if fld w 1 1 = 0 then .ok (.mulhu (fld w 19 5) (fld w 14 5) (fld w 9 5) (fld w 0 1)) else if fld w 1 1 = 1 ∧ fld w 9 5 = 0 then .ok (.mulhuLit (fld w 19 5) (fld w 14 5) (fld w 0 1) lit) else .error 0x02
  | 0x05 => if fld w 1 1 = 0 then .ok (.div (fld w 19 5) (fld w 14 5) (fld w 9 5) (fld w 0 1)) else if fld w 1 1 = 1 ∧ fld w 9 5 = 0 then .ok (.divLit (fld w 19 5) (fld w 14 5) (fld w 0 1) lit) else .error 0x02
  | 0x06 => if fld w 1 1 = 0 then .ok (.divu (fld w 19 5) (fld w 14 5) (fld w 9 5) (fld w 0 1)) else if fld w 1 1 = 1 ∧ fld w 9 5 = 0 then .ok (.divuLit (fld w 19 5) (fld w 14 5) (fld w 0 1) lit) else .error 0x02
  | 0x07 => if fld w 1 1 = 0 then .ok (.rem (fld w 19 5) (fld w 14 5) (fld w 9 5) (fld w 0 1)) else if fld w 1 1 = 1 ∧ fld w 9 5 = 0 then .ok (.remLit (fld w 19 5) (fld w 14 5) (fld w 0 1) lit) else .error 0x02
  | 0x08 => if fld w 1 1 = 0 then .ok (.remu (fld w 19 5) (fld w 14 5) (fld w 9 5) (fld w 0 1)) else if fld w 1 1 = 1 ∧ fld w 9 5 = 0 then .ok (.remuLit (fld w 19 5) (fld w 14 5) (fld w 0 1) lit) else .error 0x02
  | 0x09 => if fld w 1 1 = 0 then .ok (.and (fld w 19 5) (fld w 14 5) (fld w 9 5) (fld w 0 1)) else if fld w 1 1 = 1 ∧ fld w 9 5 = 0 then .ok (.andLit (fld w 19 5) (fld w 14 5) (fld w 0 1) lit) else .error 0x02
  | 0x0A => if fld w 1 1 = 0 then .ok (.or (fld w 19 5) (fld w 14 5) (fld w 9 5) (fld w 0 1)) else if fld w 1 1 = 1 ∧ fld w 9 5 = 0 then .ok (.orLit (fld w 19 5) (fld w 14 5) (fld w 0 1) lit) else .error 0x02
  | 0x0B => if fld w 1 1 = 0 then .ok (.xor (fld w 19 5) (fld w 14 5) (fld w 9 5) (fld w 0 1)) else if fld w 1 1 = 1 ∧ fld w 9 5 = 0 then .ok (.xorLit (fld w 19 5) (fld w 14 5) (fld w 0 1) lit) else .error 0x02
  | 0x0C => if fld w 1 1 = 0 then .ok (.andn (fld w 19 5) (fld w 14 5) (fld w 9 5) (fld w 0 1)) else if fld w 1 1 = 1 ∧ fld w 9 5 = 0 then .ok (.andnLit (fld w 19 5) (fld w 14 5) (fld w 0 1) lit) else .error 0x02
  | 0x0D => if fld w 1 1 = 0 then .ok (.shl (fld w 19 5) (fld w 14 5) (fld w 9 5) (fld w 0 1)) else if fld w 1 1 = 1 ∧ fld w 9 5 = 0 then .ok (.shlLit (fld w 19 5) (fld w 14 5) (fld w 0 1) lit) else .error 0x02
  | 0x0E => if fld w 1 1 = 0 then .ok (.shr (fld w 19 5) (fld w 14 5) (fld w 9 5) (fld w 0 1)) else if fld w 1 1 = 1 ∧ fld w 9 5 = 0 then .ok (.shrLit (fld w 19 5) (fld w 14 5) (fld w 0 1) lit) else .error 0x02
  | 0x0F => if fld w 1 1 = 0 then .ok (.sar (fld w 19 5) (fld w 14 5) (fld w 9 5) (fld w 0 1)) else if fld w 1 1 = 1 ∧ fld w 9 5 = 0 then .ok (.sarLit (fld w 19 5) (fld w 14 5) (fld w 0 1) lit) else .error 0x02
  | 0x10 => if fld w 1 1 = 0 then .ok (.rot (fld w 19 5) (fld w 14 5) (fld w 9 5) (fld w 0 1)) else if fld w 1 1 = 1 ∧ fld w 9 5 = 0 then .ok (.rotLit (fld w 19 5) (fld w 14 5) (fld w 0 1) lit) else .error 0x02
  | 0x11 => if fld w 1 1 = 0 then .ok (.min (fld w 19 5) (fld w 14 5) (fld w 9 5) (fld w 0 1)) else if fld w 1 1 = 1 ∧ fld w 9 5 = 0 then .ok (.minLit (fld w 19 5) (fld w 14 5) (fld w 0 1) lit) else .error 0x02
  | 0x12 => if fld w 1 1 = 0 then .ok (.max (fld w 19 5) (fld w 14 5) (fld w 9 5) (fld w 0 1)) else if fld w 1 1 = 1 ∧ fld w 9 5 = 0 then .ok (.maxLit (fld w 19 5) (fld w 14 5) (fld w 0 1) lit) else .error 0x02
  | 0x13 => if fld w 1 1 = 0 then .ok (.minu (fld w 19 5) (fld w 14 5) (fld w 9 5) (fld w 0 1)) else if fld w 1 1 = 1 ∧ fld w 9 5 = 0 then .ok (.minuLit (fld w 19 5) (fld w 14 5) (fld w 0 1) lit) else .error 0x02
  | 0x14 => if fld w 1 1 = 0 then .ok (.maxu (fld w 19 5) (fld w 14 5) (fld w 9 5) (fld w 0 1)) else if fld w 1 1 = 1 ∧ fld w 9 5 = 0 then .ok (.maxuLit (fld w 19 5) (fld w 14 5) (fld w 0 1) lit) else .error 0x02
  | 0x15 => if fld w 1 1 = 0 ∧ fld w 9 5 = 0 then .ok (.clz (fld w 19 5) (fld w 14 5) (fld w 0 1)) else .error 0x02
  | 0x16 => if fld w 1 1 = 0 ∧ fld w 9 5 = 0 then .ok (.ctz (fld w 19 5) (fld w 14 5) (fld w 0 1)) else .error 0x02
  | 0x17 => if fld w 1 1 = 0 ∧ fld w 9 5 = 0 then .ok (.popc (fld w 19 5) (fld w 14 5) (fld w 0 1)) else .error 0x02
  | 0x18 => if fld w 1 1 = 0 then .ok (.sext (fld w 19 5) (fld w 14 5) (fld w 9 5) (fld w 0 1)) else if fld w 1 1 = 1 ∧ fld w 9 5 = 0 then .ok (.sextLit (fld w 19 5) (fld w 14 5) (fld w 0 1) lit) else .error 0x02
  | 0x19 => if fld w 1 1 = 0 then .ok (.zext (fld w 19 5) (fld w 14 5) (fld w 9 5) (fld w 0 1)) else if fld w 1 1 = 1 ∧ fld w 9 5 = 0 then .ok (.zextLit (fld w 19 5) (fld w 14 5) (fld w 0 1) lit) else .error 0x02
  | 0x1A => if fld w 1 1 = 0 then .ok (.bfx (fld w 19 5) (fld w 14 5) (fld w 9 5) (fld w 0 1)) else if fld w 1 1 = 1 ∧ fld w 9 5 = 0 then .ok (.bfxLit (fld w 19 5) (fld w 14 5) (fld w 0 1) lit) else .error 0x02
  | 0x1B => if fld w 1 1 = 0 then .ok (.bfi (fld w 19 5) (fld w 14 5) (fld w 9 5) (fld w 0 1)) else if fld w 1 1 = 1 ∧ fld w 9 5 = 0 then .ok (.bfiLit (fld w 19 5) (fld w 14 5) (fld w 0 1) lit) else .error 0x02
  | 0x1C => if fld w 1 1 = 0 then .ok (.selp (fld w 19 5) (fld w 14 5) (fld w 9 5) (fld w 0 1)) else if fld w 1 1 = 1 ∧ fld w 9 5 = 0 then .ok (.selpLit (fld w 19 5) (fld w 14 5) (fld w 0 1) lit) else .error 0x02
  | 0x1D => if fld w 1 1 = 0 then .ok (.addsat (fld w 19 5) (fld w 14 5) (fld w 9 5) (fld w 0 1)) else if fld w 1 1 = 1 ∧ fld w 9 5 = 0 then .ok (.addsatLit (fld w 19 5) (fld w 14 5) (fld w 0 1) lit) else .error 0x02
  | 0x1E => if fld w 1 1 = 0 then .ok (.subsat (fld w 19 5) (fld w 14 5) (fld w 9 5) (fld w 0 1)) else if fld w 1 1 = 1 ∧ fld w 9 5 = 0 then .ok (.subsatLit (fld w 19 5) (fld w 14 5) (fld w 0 1) lit) else .error 0x02
  | 0x1F => if fld w 1 1 = 0 then .ok (.madd (fld w 19 5) (fld w 14 5) (fld w 9 5) (fld w 0 1)) else if fld w 1 1 = 1 ∧ fld w 9 5 = 0 then .ok (.maddLit (fld w 19 5) (fld w 14 5) (fld w 0 1) lit) else .error 0x02
  | 0x20 => if fld w 1 1 = 0 then .ok (.cmpeq (fld w 19 5) (fld w 14 5) (fld w 9 5) (fld w 0 1)) else if fld w 1 1 = 1 ∧ fld w 9 5 = 0 then .ok (.cmpeqLit (fld w 19 5) (fld w 14 5) (fld w 0 1) lit) else .error 0x02
  | 0x21 => if fld w 1 1 = 0 then .ok (.cmpne (fld w 19 5) (fld w 14 5) (fld w 9 5) (fld w 0 1)) else if fld w 1 1 = 1 ∧ fld w 9 5 = 0 then .ok (.cmpneLit (fld w 19 5) (fld w 14 5) (fld w 0 1) lit) else .error 0x02
  | 0x22 => if fld w 1 1 = 0 then .ok (.cmplt (fld w 19 5) (fld w 14 5) (fld w 9 5) (fld w 0 1)) else if fld w 1 1 = 1 ∧ fld w 9 5 = 0 then .ok (.cmpltLit (fld w 19 5) (fld w 14 5) (fld w 0 1) lit) else .error 0x02
  | 0x23 => if fld w 1 1 = 0 then .ok (.cmple (fld w 19 5) (fld w 14 5) (fld w 9 5) (fld w 0 1)) else if fld w 1 1 = 1 ∧ fld w 9 5 = 0 then .ok (.cmpleLit (fld w 19 5) (fld w 14 5) (fld w 0 1) lit) else .error 0x02
  | 0x24 => if fld w 1 1 = 0 then .ok (.cmpltu (fld w 19 5) (fld w 14 5) (fld w 9 5) (fld w 0 1)) else if fld w 1 1 = 1 ∧ fld w 9 5 = 0 then .ok (.cmpltuLit (fld w 19 5) (fld w 14 5) (fld w 0 1) lit) else .error 0x02
  | 0x25 => if fld w 1 1 = 0 then .ok (.cmpleu (fld w 19 5) (fld w 14 5) (fld w 9 5) (fld w 0 1)) else if fld w 1 1 = 1 ∧ fld w 9 5 = 0 then .ok (.cmpleuLit (fld w 19 5) (fld w 14 5) (fld w 0 1) lit) else .error 0x02
  | _ => .error 0x01

/-- Major 0x02 (Table 5-9). -/
def decodeAddi (w : BitVec 32) : Except Cause Instr :=
  .ok (.addi (fld w 19 5) (fld w 14 5) (fld w 0 14))

/-- Major 0x03 (Table 5-9). -/
def decodeAndi (w : BitVec 32) : Except Cause Instr :=
  .ok (.andi (fld w 19 5) (fld w 14 5) (fld w 0 14))

/-- Major 0x04 (Table 5-9). -/
def decodeOri (w : BitVec 32) : Except Cause Instr :=
  .ok (.ori (fld w 19 5) (fld w 14 5) (fld w 0 14))

/-- Major 0x05 (Table 5-9). -/
def decodeXori (w : BitVec 32) : Except Cause Instr :=
  .ok (.xori (fld w 19 5) (fld w 14 5) (fld w 0 14))

/-- Major 0x06 (Table 5-9). -/
def decodeShi (w : BitVec 32) : Except Cause Instr :=
  match (fld w 6 2).toNat with
  | 0x00 => if fld w 8 6 = 0 then .ok (.shli (fld w 19 5) (fld w 14 5) (fld w 0 6)) else .error 0x02
  | 0x01 => if fld w 8 6 = 0 then .ok (.shri (fld w 19 5) (fld w 14 5) (fld w 0 6)) else .error 0x02
  | 0x02 => if fld w 8 6 = 0 then .ok (.sari (fld w 19 5) (fld w 14 5) (fld w 0 6)) else .error 0x02
  | _ => if fld w 8 6 = 0 then .ok (.roti (fld w 19 5) (fld w 14 5) (fld w 0 6)) else .error 0x02

/-- Major 0x07 (Table 5-9). -/
def decodeCmpi (w : BitVec 32) : Except Cause Instr :=
  .ok (.cmpi (fld w 19 5) (fld w 14 5) (fld w 11 3) (fld w 0 11))

/-- Major 0x08 (Table 5-9). -/
def decodeLit (w : BitVec 32) (lit : BitVec 32) : Except Cause Instr :=
  match (fld w 10 4).toNat with
  | 0x00 => if fld w 0 10 = 0 ∧ fld w 14 5 = 0 then .ok (.lit (fld w 19 5) lit) else .error 0x02
  | 0x01 => if fld w 0 10 = 0 ∧ fld w 14 5 = 0 then .ok (.lith (fld w 19 5) lit) else .error 0x02
  | _ => .error 0x01

/-- Major 0x09 (Table 5-9). -/
def decodePred (w : BitVec 32) (lit : BitVec 32) : Except Cause Instr :=
  match (fld w 2 7).toNat with
  | 0x00 => if fld w 1 1 = 0 ∧ fld w 12 2 = 0 ∧ fld w 17 2 = 0 ∧ fld w 22 2 = 0 then .ok (.pand (fld w 19 3) (fld w 14 3) (fld w 9 3) (fld w 0 1)) else if fld w 1 1 = 1 ∧ fld w 9 5 = 0 ∧ fld w 17 2 = 0 ∧ fld w 22 2 = 0 then .ok (.pandLit (fld w 19 3) (fld w 14 3) (fld w 0 1) lit) else .error 0x02
  | 0x01 => if fld w 1 1 = 0 ∧ fld w 12 2 = 0 ∧ fld w 17 2 = 0 ∧ fld w 22 2 = 0 then .ok (.por (fld w 19 3) (fld w 14 3) (fld w 9 3) (fld w 0 1)) else if fld w 1 1 = 1 ∧ fld w 9 5 = 0 ∧ fld w 17 2 = 0 ∧ fld w 22 2 = 0 then .ok (.porLit (fld w 19 3) (fld w 14 3) (fld w 0 1) lit) else .error 0x02
  | 0x02 => if fld w 1 1 = 0 ∧ fld w 12 2 = 0 ∧ fld w 17 2 = 0 ∧ fld w 22 2 = 0 then .ok (.pxor (fld w 19 3) (fld w 14 3) (fld w 9 3) (fld w 0 1)) else if fld w 1 1 = 1 ∧ fld w 9 5 = 0 ∧ fld w 17 2 = 0 ∧ fld w 22 2 = 0 then .ok (.pxorLit (fld w 19 3) (fld w 14 3) (fld w 0 1) lit) else .error 0x02
  | 0x03 => if fld w 1 1 = 0 ∧ fld w 9 5 = 0 ∧ fld w 17 2 = 0 ∧ fld w 22 2 = 0 then .ok (.pnot (fld w 19 3) (fld w 14 3) (fld w 0 1)) else .error 0x02
  | 0x04 => if fld w 1 1 = 0 ∧ fld w 9 5 = 0 ∧ fld w 15 4 = 0 ∧ fld w 22 2 = 0 then .ok (.pset (fld w 19 3) (fld w 14 1) (fld w 0 1)) else .error 0x02
  | _ => .error 0x01

/-- Major 0x0A (Table 5-9). -/
def decodePb (w : BitVec 32) : Except Cause Instr :=
  if fld w 0 10 = 0 then .ok (.pb (fld w 21 3) (fld w 18 3) (fld w 10 8)) else .error 0x02

/-- Major 0x0B (Table 5-9). -/
def decodeBrc (w : BitVec 32) : Except Cause Instr :=
  .ok (.brc (fld w 19 5) (fld w 16 3) (fld w 0 16))

/-- Major 0x0C (Table 5-9). -/
def decodeBr (w : BitVec 32) : Except Cause Instr :=
  .ok (.br (fld w 0 24))

/-- Major 0x0D (Table 5-9). -/
def decodeCall (w : BitVec 32) : Except Cause Instr :=
  .ok (.call (fld w 0 24))

/-- Major 0x0E (Table 5-9). -/
def decodeJmp (w : BitVec 32) (lit : BitVec 32) : Except Cause Instr :=
  match (fld w 2 7).toNat with
  | 0x00 => if fld w 1 1 = 0 ∧ fld w 9 5 = 0 ∧ fld w 19 5 = 0 then .ok (.jr (fld w 14 5) (fld w 0 1)) else if fld w 1 1 = 1 ∧ fld w 9 5 = 0 ∧ fld w 19 5 = 0 then .ok (.jrLit (fld w 14 5) (fld w 0 1) lit) else .error 0x02
  | 0x01 => if fld w 1 1 = 0 ∧ fld w 9 5 = 0 then .ok (.jalr (fld w 19 5) (fld w 14 5) (fld w 0 1)) else if fld w 1 1 = 1 ∧ fld w 9 5 = 0 then .ok (.jalrLit (fld w 19 5) (fld w 14 5) (fld w 0 1) lit) else .error 0x02
  | 0x02 => if fld w 1 1 = 0 ∧ fld w 9 15 = 0 then .ok (.retL (fld w 0 1)) else if fld w 1 1 = 1 ∧ fld w 9 15 = 0 then .ok (.retLLit (fld w 0 1) lit) else .error 0x02
  | _ => .error 0x01

/-- Major 0x0F (Table 5-9). -/
def decodeLoop (w : BitVec 32) : Except Cause Instr :=
  if fld w 16 3 = 0 then .ok (.loop (fld w 19 5) (fld w 0 16)) else .error 0x02

/-- Major 0x10 (Table 5-9). -/
def decodeTok (w : BitVec 32) : Except Cause Instr :=
  match (fld w 10 4).toNat with
  | 0x00 => .ok (.tksL (fld w 19 5) (fld w 14 5) (fld w 0 10))
  | 0x01 => .ok (.tkwL (fld w 19 5) (fld w 14 5) (fld w 0 10))
  | _ => .error 0x01

/-- Major 0x11 (Table 5-9). -/
def decodeBar (w : BitVec 32) : Except Cause Instr :=
  match (fld w 10 4).toNat with
  | 0x00 => if fld w 5 5 = 0 ∧ fld w 14 10 = 0 then .ok (.bjoin (fld w 0 5)) else .error 0x02
  | 0x01 => if fld w 5 5 = 0 ∧ fld w 14 10 = 0 then .ok (.bleave (fld w 0 5)) else .error 0x02
  | 0x02 => if fld w 5 5 = 0 ∧ fld w 14 10 = 0 then .ok (.barr (fld w 0 5)) else .error 0x02
  | 0x03 => if fld w 5 5 = 0 ∧ fld w 14 5 = 0 then .ok (.barn (fld w 19 5) (fld w 0 5)) else .error 0x02
  | 0x04 => if fld w 5 5 = 0 ∧ fld w 19 5 = 0 then .ok (.bwait (fld w 14 5) (fld w 0 5)) else .error 0x02
  | 0x05 => if fld w 5 5 = 0 ∧ fld w 14 5 = 0 then .ok (.bcnt (fld w 19 5) (fld w 0 5)) else .error 0x02
  | _ => .error 0x01

/-- Major 0x12 (Table 5-9). -/
def decodeSstp (w : BitVec 32) : Except Cause Instr :=
  match (fld w 10 4).toNat with
  | 0x00 => if fld w 0 10 = 0 ∧ fld w 14 10 = 0 then .ok (.sstep) else .error 0x02
  | 0x01 => if fld w 0 10 = 0 ∧ fld w 14 10 = 0 then .ok (.ssync) else .error 0x02
  | 0x02 => if fld w 0 10 = 0 ∧ fld w 14 5 = 0 then .ok (.sphase (fld w 19 5)) else .error 0x02
  | _ => .error 0x01

/-- Major 0x13 (Table 5-9). -/
def decodeRill (w : BitVec 32) : Except Cause Instr :=
  match (fld w 10 4).toNat with
  | 0x00 => if fld w 0 10 = 0 then .ok (.winit (fld w 19 5) (fld w 14 5)) else .error 0x02
  | 0x01 => .ok (.wwaitf (fld w 19 5) (fld w 14 5) (fld w 0 10))
  | 0x02 => .ok (.wwaite (fld w 19 5) (fld w 14 5) (fld w 0 10))
  | 0x03 => .ok (.wadvp (fld w 19 5) (fld w 14 5) (fld w 0 10))
  | 0x04 => .ok (.wadvc (fld w 19 5) (fld w 14 5) (fld w 0 10))
  | 0x05 => if fld w 4 6 = 0 ∧ fld w 14 5 = 0 then .ok (.wstat (fld w 19 5) (fld w 0 4)) else .error 0x02
  | _ => .error 0x01

/-- Major 0x14 (Table 5-9). -/
def decodeLd (w : BitVec 32) (lit : BitVec 32) : Except Cause Instr :=
  if fld w 1 1 = 0 then .ok (.ld (fld w 19 5) (fld w 14 5) (fld w 9 5) (fld w 7 2) (fld w 5 2) (fld w 2 3) (fld w 0 1)) else if fld w 1 1 = 1 then .ok (.ldLit (fld w 19 5) (fld w 14 5) (fld w 9 5) (fld w 7 2) (fld w 5 2) (fld w 2 3) (fld w 0 1) lit) else .error 0x02

/-- Major 0x15 (Table 5-9). -/
def decodeSt (w : BitVec 32) (lit : BitVec 32) : Except Cause Instr :=
  if fld w 0 2 = 0 then .ok (.st (fld w 19 5) (fld w 14 5) (fld w 9 5) (fld w 7 2) (fld w 5 2) (fld w 2 3)) else if fld w 0 2 = 2 then .ok (.stLit (fld w 19 5) (fld w 14 5) (fld w 9 5) (fld w 7 2) (fld w 5 2) (fld w 2 3) lit) else .error 0x02

/-- Major 0x16 (Table 5-9). -/
def decodeAtom (w : BitVec 32) : Except Cause Instr :=
  match (fld w 5 4).toNat with
  | 0x00 => if fld w 0 1 = 0 then .ok (.aadd (fld w 19 5) (fld w 14 5) (fld w 9 5) (fld w 2 3) (fld w 1 1)) else .error 0x02
  | 0x01 => if fld w 0 1 = 0 then .ok (.aand (fld w 19 5) (fld w 14 5) (fld w 9 5) (fld w 2 3) (fld w 1 1)) else .error 0x02
  | 0x02 => if fld w 0 1 = 0 then .ok (.aor (fld w 19 5) (fld w 14 5) (fld w 9 5) (fld w 2 3) (fld w 1 1)) else .error 0x02
  | 0x03 => if fld w 0 1 = 0 then .ok (.axor (fld w 19 5) (fld w 14 5) (fld w 9 5) (fld w 2 3) (fld w 1 1)) else .error 0x02
  | 0x04 => if fld w 0 1 = 0 then .ok (.amin (fld w 19 5) (fld w 14 5) (fld w 9 5) (fld w 2 3) (fld w 1 1)) else .error 0x02
  | 0x05 => if fld w 0 1 = 0 then .ok (.amax (fld w 19 5) (fld w 14 5) (fld w 9 5) (fld w 2 3) (fld w 1 1)) else .error 0x02
  | 0x06 => if fld w 0 1 = 0 then .ok (.aminu (fld w 19 5) (fld w 14 5) (fld w 9 5) (fld w 2 3) (fld w 1 1)) else .error 0x02
  | 0x07 => if fld w 0 1 = 0 then .ok (.amaxu (fld w 19 5) (fld w 14 5) (fld w 9 5) (fld w 2 3) (fld w 1 1)) else .error 0x02
  | 0x08 => if fld w 0 1 = 0 then .ok (.aswp (fld w 19 5) (fld w 14 5) (fld w 9 5) (fld w 2 3) (fld w 1 1)) else .error 0x02
  | 0x09 => if fld w 0 1 = 0 then .ok (.acas (fld w 19 5) (fld w 14 5) (fld w 9 5) (fld w 2 3) (fld w 1 1)) else .error 0x02
  | _ => .error 0x01

/-- Major 0x17 (Table 5-9). -/
def decodeSig (w : BitVec 32) : Except Cause Instr :=
  match (fld w 10 4).toNat with
  | 0x00 => if fld w 5 5 = 0 then .ok (.sigadd (fld w 19 5) (fld w 14 5) (fld w 0 5)) else .error 0x02
  | 0x01 => if fld w 9 1 = 0 then .ok (.sigwait (fld w 19 5) (fld w 14 5) (fld w 8 1) (fld w 5 3) (fld w 0 5)) else .error 0x02
  | _ => .error 0x01

/-- Major 0x18 (Table 5-9). -/
def decodeOrd (w : BitVec 32) : Except Cause Instr :=
  match (fld w 10 4).toNat with
  | 0x00 => if fld w 5 5 = 0 ∧ fld w 14 10 = 0 then .ok (.fence (fld w 3 2) (fld w 0 3)) else .error 0x02
  | 0x01 => if fld w 4 6 = 0 ∧ fld w 14 10 = 0 then .ok (.align (fld w 0 4)) else .error 0x02
  | 0x02 => if fld w 1 9 = 0 ∧ fld w 14 5 = 0 then .ok (.tclrL (fld w 19 5) (fld w 0 1)) else .error 0x02
  | 0x03 => if fld w 0 10 = 0 ∧ fld w 14 10 = 0 then .ok (.qptL) else .error 0x02
  | _ => .error 0x01

/-- Major 0x19 (Table 5-9). -/
def decodePref (w : BitVec 32) (lit : BitVec 32) : Except Cause Instr :=
  if fld w 0 7 = 0 ∧ fld w 19 5 = 0 then .ok (.pref (fld w 14 5) (fld w 9 5) (fld w 7 2)) else if fld w 0 7 = 2 ∧ fld w 19 5 = 0 then .ok (.prefLit (fld w 14 5) (fld w 9 5) (fld w 7 2) lit) else .error 0x02

/-- Major 0x1A (Table 5-9). -/
def decodeCpy (w : BitVec 32) (lit : BitVec 32) : Except Cause Instr :=
  match (fld w 1 4).toNat with
  | 0x00 => if fld w 0 1 = 0 then .ok (.cpy (fld w 19 5) (fld w 14 5) (fld w 10 4) (fld w 5 5) lit) else .error 0x02
  | 0x01 => if fld w 0 1 = 0 then .ok (.cpyin (fld w 19 5) (fld w 14 5) (fld w 10 4) (fld w 5 5) lit) else .error 0x02
  | 0x02 => if fld w 0 1 = 0 then .ok (.cpyout (fld w 19 5) (fld w 14 5) (fld w 10 4) (fld w 5 5) lit) else .error 0x02
  | 0x03 => if fld w 0 1 = 0 ∧ fld w 14 5 = 0 then .ok (.cpyz (fld w 19 5) (fld w 10 4) (fld w 5 5) lit) else .error 0x02
  | 0x04 => if fld w 0 1 = 0 then .ok (.cpycv (fld w 19 5) (fld w 14 5) (fld w 10 4) (fld w 5 5) lit) else .error 0x02
  | _ => .error 0x01

/-- Major 0x1B (Table 5-9). -/
def decodeGsc (w : BitVec 32) (lit : BitVec 32) : Except Cause Instr :=
  match (fld w 1 4).toNat with
  | 0x00 => if fld w 0 1 = 0 then .ok (.gather (fld w 19 5) (fld w 14 5) (fld w 10 4) (fld w 5 5) lit) else .error 0x02
  | 0x01 => if fld w 0 1 = 0 then .ok (.scatter (fld w 19 5) (fld w 14 5) (fld w 10 4) (fld w 5 5) lit) else .error 0x02
  | _ => .error 0x01

/-- Major 0x1C (Table 5-9). -/
def decodeCesh (w : BitVec 32) : Except Cause Instr :=
  match (fld w 0 8).toNat with
  | 0x00 => if fld w 18 1 = 0 then .ok (.cesh (fld w 19 5) (fld w 16 2) (fld w 12 4) (fld w 8 4)) else .error 0x02
  | _ => .error 0x01

/-- Major 0x1D (Table 5-9). -/
def decodeCwt (w : BitVec 32) : Except Cause Instr :=
  match (fld w 10 4).toNat with
  | 0x00 => if fld w 19 5 = 0 then .ok (.cwait (fld w 14 5) (fld w 0 10)) else .error 0x02
  | 0x01 => if fld w 0 10 = 0 ∧ fld w 14 5 = 0 then .ok (.ccnt (fld w 19 5)) else .error 0x02
  | 0x02 => if fld w 0 10 = 0 ∧ fld w 14 5 = 0 then .ok (.cstat (fld w 19 5)) else if fld w 0 10 = 1 ∧ fld w 14 5 = 0 then .ok (.cstatIssued (fld w 19 5)) else .error 0x02
  | _ => .error 0x01

/-- Major 0x1E (Table 5-9). -/
def decodeHnd1 (w : BitVec 32) : Except Cause Instr :=
  match (fld w 10 4).toNat with
  | 0x00 => if fld w 3 7 = 0 ∧ fld w 19 5 = 0 then .ok (.hreq (fld w 14 5) (fld w 0 3)) else .error 0x02
  | 0x01 => if fld w 3 7 = 0 then .ok (.hwait (fld w 19 5) (fld w 14 5) (fld w 0 3)) else .error 0x02
  | 0x02 => if fld w 0 10 = 0 then .ok (.hmov (fld w 19 5) (fld w 14 5)) else .error 0x02
  | 0x03 => if fld w 0 10 = 0 ∧ fld w 14 5 = 0 then .ok (.hclr (fld w 19 5)) else .error 0x02
  | 0x04 => if fld w 5 5 = 0 then .ok (.hld (fld w 19 5) (fld w 14 5) (fld w 0 5)) else .error 0x02
  | 0x05 => if fld w 5 5 = 0 then .ok (.hst (fld w 19 5) (fld w 14 5) (fld w 0 5)) else .error 0x02
  | _ => .error 0x01

/-- Major 0x1F (Table 5-9). -/
def decodeHnd2 (w : BitVec 32) : Except Cause Instr :=
  match (fld w 10 4).toNat with
  | 0x00 => if fld w 8 2 = 0 then .ok (.hchk (fld w 19 5) (fld w 14 5) (fld w 0 8)) else .error 0x02
  | 0x01 => if fld w 4 6 = 0 then .ok (.hget (fld w 19 5) (fld w 14 5) (fld w 0 4)) else .error 0x02
  | 0x02 => if fld w 0 10 = 0 then .ok (.hrevk (fld w 19 5) (fld w 14 5)) else if fld w 0 10 = 1 ∧ fld w 14 5 = 0 then .ok (.hrevkAll (fld w 19 5)) else .error 0x02
  | 0x03 => if fld w 0 10 = 0 ∧ fld w 14 5 = 0 then .ok (.krot (fld w 19 5)) else .error 0x02
  | 0x04 => if fld w 14 5 = 0 then .ok (.kstat (fld w 19 5) (fld w 0 10)) else .error 0x02
  | _ => .error 0x01

/-- Major 0x20 (Table 5-9). -/
def decodeSys (w : BitVec 32) : Except Cause Instr :=
  match (fld w 0 8).toNat with
  | 0x00 => if fld w 12 12 = 0 then .ok (.trap (fld w 8 4)) else .error 0x02
  | 0x01 => .ok (.gets (fld w 19 5) (fld w 8 11))
  | 0x02 => .ok (.sets (fld w 19 5) (fld w 8 11))
  | 0x03 => if fld w 8 11 = 0 then .ok (.yield (fld w 19 5)) else .error 0x02
  | 0x04 => if fld w 9 10 = 0 then .ok (.clk (fld w 19 5) (fld w 8 1)) else .error 0x02
  | 0x05 => if fld w 15 4 = 0 then .ok (.enrg (fld w 19 5) (fld w 14 1) (fld w 8 6)) else .error 0x02
  | 0x06 => if fld w 8 16 = 0 then .ok (.nopl) else .error 0x02
  | _ => .error 0x01

/-- Major 0x21 (Table 5-9). -/
def decodeLnch (w : BitVec 32) : Except Cause Instr :=
  match (fld w 10 4).toNat with
  | 0x00 => if fld w 5 5 = 0 then .ok (.launch (fld w 19 5) (fld w 14 5) (fld w 0 5)) else .error 0x02
  | 0x01 => if fld w 0 10 = 0 then .ok (.qstat (fld w 19 5) (fld w 14 5)) else .error 0x02
  | _ => .error 0x01

/-- Major 0x22 (Table 5-9). -/
def decodeSave (w : BitVec 32) : Except Cause Instr :=
  if fld w 1 13 = 0 then .ok (.save (fld w 19 5) (fld w 14 5) (fld w 0 1)) else .error 0x02

/-- Major 0x23 (Table 5-9). -/
def decodeColl (w : BitVec 32) (lit : BitVec 32) : Except Cause Instr :=
  match (fld w 10 4).toNat with
  | 0x00 => if fld w 8 2 = 0 then .ok (.coll (fld w 19 5) (fld w 14 5) (fld w 7 1) (fld w 6 1) (fld w 3 3) (fld w 0 3) lit) else .error 0x02
  | 0x01 => if fld w 0 10 = 0 then .ok (.collw (fld w 19 5) (fld w 14 5)) else if fld w 0 10 = 1 then .ok (.collwCancel (fld w 19 5) (fld w 14 5)) else .error 0x02
  | _ => .error 0x01

/-- Major 0x24 (Table 5-9). -/
def decodePln (w : BitVec 32) : Except Cause Instr :=
  match (fld w 10 4).toNat with
  | 0x00 => if fld w 5 5 = 0 ∧ fld w 19 5 = 0 then .ok (.plwait (fld w 14 5) (fld w 0 5)) else .error 0x02
  | 0x01 => if fld w 0 10 = 0 then .ok (.plcnt (fld w 19 5) (fld w 14 5)) else .error 0x02
  | 0x02 => if fld w 4 6 = 0 ∧ fld w 19 5 = 0 then .ok (.plcut (fld w 14 5) (fld w 0 4)) else .error 0x02
  | _ => .error 0x01

/-- Major 0x25 (Table 5-9). An RSLOT that releases has no use for the type field: R342 gives it a meaning for a reservation alone and
does not mark it reserved; one that is not zero is taken as a reserved bit that is set (DESIGN CHOICE, log 43). -/
def decodeApt (w : BitVec 32) : Except Cause Instr :=
  match (fld w 10 4).toNat with
  | 0x00 => if fld w 5 5 = 0 then .ok (.apst (fld w 19 5) (fld w 14 5) (fld w 0 5)) else .error 0x02
  | 0x01 => if fld w 5 5 = 0 then .ok (.apld (fld w 19 5) (fld w 14 5) (fld w 0 5)) else .error 0x02
  | 0x02 => if fld w 0 1 = 0 ∧ fld w 4 6 = 0 then .ok (.rslotReserve (fld w 19 5) (fld w 14 5) (fld w 1 3)) else if fld w 0 10 = 1 then .ok (.rslotRelease (fld w 19 5) (fld w 14 5)) else .error 0x02
  | _ => .error 0x01

/-- Major 0x26 (Table 5-9). -/
def decodeLayx (w : BitVec 32) : Except Cause Instr :=
  if fld w 3 11 = 0 ∧ fld w 19 5 = 0 then .ok (.layx (fld w 14 5) (fld w 0 3)) else .error 0x02

/-- Major 0x27 (Table 5-9). -/
def decodeMx (w : BitVec 32) : Except Cause Instr :=
  match (fld w 0 8).toNat with
  | 0x00 => .ok (.mxset (fld w 19 5) (fld w 8 11))
  | 0x01 => .ok (.mxget (fld w 19 5) (fld w 8 11))
  | 0x02 => if fld w 8 16 = 0 then .ok (.mxgo) else .error 0x02
  | 0x03 => if fld w 8 16 = 0 then .ok (.mxwait) else .error 0x02
  | 0x04 => if fld w 8 11 = 0 then .ok (.mxprog (fld w 19 5)) else .error 0x02
  | 0x05 => if fld w 8 16 = 0 then .ok (.mxabort) else .error 0x02
  | _ => .error 0x01

/-- Major 0x28 (Table 5-9). -/
def decodeWld (w : BitVec 32) : Except Cause Instr :=
  if fld w 0 24 = 0 then .ok (.wld) else .error 0x02

/-- Major 0x29 (Table 5-9). -/
def decodeKmsk (w : BitVec 32) : Except Cause Instr :=
  match (fld w 10 4).toNat with
  | 0x00 => if fld w 0 10 = 0 ∧ fld w 22 2 = 0 then .ok (.kset (fld w 19 3) (fld w 14 5)) else .error 0x02
  | 0x01 => if fld w 22 2 = 0 then .ok (.kgen (fld w 19 3) (fld w 14 5) (fld w 0 10)) else .error 0x02
  | _ => .error 0x01

/-- Major 0x30 (Table 5-9). -/
def decodeVfp (w : BitVec 32) : Except Cause Instr :=
  match (fld w 0 4).toNat with
  | 0x00 => .ok (.vadd (fld w 22 2) (fld w 16 6) (fld w 10 6) (fld w 4 6))
  | 0x01 => .ok (.vsub (fld w 22 2) (fld w 16 6) (fld w 10 6) (fld w 4 6))
  | 0x02 => .ok (.vmul (fld w 22 2) (fld w 16 6) (fld w 10 6) (fld w 4 6))
  | 0x03 => .ok (.vfma (fld w 22 2) (fld w 16 6) (fld w 10 6) (fld w 4 6))
  | 0x04 => .ok (.vfms (fld w 22 2) (fld w 16 6) (fld w 10 6) (fld w 4 6))
  | 0x05 => .ok (.vmin (fld w 22 2) (fld w 16 6) (fld w 10 6) (fld w 4 6))
  | 0x06 => .ok (.vmax (fld w 22 2) (fld w 16 6) (fld w 10 6) (fld w 4 6))
  | 0x07 => .ok (.vcpys (fld w 22 2) (fld w 16 6) (fld w 10 6) (fld w 4 6))
  | 0x08 => if fld w 9 1 = 0 then .ok (.vadds (fld w 22 2) (fld w 16 6) (fld w 10 6) (fld w 4 5)) else .error 0x02
  | 0x09 => if fld w 9 1 = 0 then .ok (.vmuls (fld w 22 2) (fld w 16 6) (fld w 10 6) (fld w 4 5)) else .error 0x02
  | 0x0A => if fld w 9 1 = 0 then .ok (.vfmas (fld w 22 2) (fld w 16 6) (fld w 10 6) (fld w 4 5)) else .error 0x02
  | 0x0B => if fld w 9 1 = 0 then .ok (.vmaxs (fld w 22 2) (fld w 16 6) (fld w 10 6) (fld w 4 5)) else .error 0x02
  | 0x0C => if fld w 9 1 = 0 then .ok (.vmins (fld w 22 2) (fld w 16 6) (fld w 10 6) (fld w 4 5)) else .error 0x02
  | 0x0D => if fld w 9 1 = 0 then .ok (.vsubs (fld w 22 2) (fld w 16 6) (fld w 10 6) (fld w 4 5)) else .error 0x02
  | _ => .error 0x01

/-- Major 0x31 (Table 5-9). -/
noncomputable def decodeVint (w : BitVec 32) : Except Cause Instr :=
  match (fld w 0 4).toNat with
  | 0x00 => .ok (.viadd (fld w 22 2) (fld w 16 6) (fld w 10 6) (fld w 4 6))
  | 0x01 => .ok (.visub (fld w 22 2) (fld w 16 6) (fld w 10 6) (fld w 4 6))
  | 0x02 => .ok (.vimul (fld w 22 2) (fld w 16 6) (fld w 10 6) (fld w 4 6))
  | 0x03 => .ok (.vimac (fld w 22 2) (fld w 16 6) (fld w 10 6) (fld w 4 6))
  | 0x04 => .ok (.vand (fld w 22 2) (fld w 16 6) (fld w 10 6) (fld w 4 6))
  | 0x05 => .ok (.vor (fld w 22 2) (fld w 16 6) (fld w 10 6) (fld w 4 6))
  | 0x06 => .ok (.vxor (fld w 22 2) (fld w 16 6) (fld w 10 6) (fld w 4 6))
  | 0x07 => .ok (.vshl (fld w 22 2) (fld w 16 6) (fld w 10 6) (fld w 4 6))
  | 0x08 => .ok (.vshr (fld w 22 2) (fld w 16 6) (fld w 10 6) (fld w 4 6))
  | 0x09 => .ok (.vsar (fld w 22 2) (fld w 16 6) (fld w 10 6) (fld w 4 6))
  | 0x0A => .ok (.vimin (fld w 22 2) (fld w 16 6) (fld w 10 6) (fld w 4 6))
  | 0x0B => .ok (.vimax (fld w 22 2) (fld w 16 6) (fld w 10 6) (fld w 4 6))
  | _ => .error 0x01

/-- Major 0x32 (Table 5-9). -/
noncomputable def decodeVcmp (w : BitVec 32) : Except Cause Instr :=
  match (fld w 0 4).toNat with
  | 0x00 => if fld w 18 4 = 0 then .ok (.vceq (fld w 22 2) (fld w 16 2) (fld w 10 6) (fld w 4 6)) else .error 0x02
  | 0x01 => if fld w 18 4 = 0 then .ok (.vcne (fld w 22 2) (fld w 16 2) (fld w 10 6) (fld w 4 6)) else .error 0x02
  | 0x02 => if fld w 18 4 = 0 then .ok (.vclt (fld w 22 2) (fld w 16 2) (fld w 10 6) (fld w 4 6)) else .error 0x02
  | 0x03 => if fld w 18 4 = 0 then .ok (.vcle (fld w 22 2) (fld w 16 2) (fld w 10 6) (fld w 4 6)) else .error 0x02
  | 0x04 => .ok (.vsel (fld w 22 2) (fld w 16 6) (fld w 10 6) (fld w 4 6))
  | 0x05 => if fld w 4 20 = 0 then .ok (.vmnot) else .error 0x02
  | 0x06 => if fld w 4 12 = 0 ∧ fld w 21 1 = 0 then .ok (.vmpop (fld w 22 2) (fld w 16 5)) else .error 0x02
  | _ => .error 0x01

/-- Major 0x33 (Table 5-9). -/
noncomputable def decodeVsfu (w : BitVec 32) : Except Cause Instr :=
  match (fld w 0 4).toNat with
  | 0x00 => if fld w 4 6 = 0 then .ok (.vexp2 (fld w 22 2) (fld w 16 6) (fld w 10 6)) else .error 0x02
  | 0x01 => if fld w 4 6 = 0 then .ok (.vlog2 (fld w 22 2) (fld w 16 6) (fld w 10 6)) else .error 0x02
  | 0x02 => if fld w 4 6 = 0 then .ok (.vrcpa (fld w 22 2) (fld w 16 6) (fld w 10 6)) else .error 0x02
  | 0x03 => if fld w 4 6 = 0 then .ok (.vrsqa (fld w 22 2) (fld w 16 6) (fld w 10 6)) else .error 0x02
  | 0x04 => .ok (.vrcpr (fld w 22 2) (fld w 16 6) (fld w 10 6) (fld w 4 6))
  | 0x05 => .ok (.vrsqr (fld w 22 2) (fld w 16 6) (fld w 10 6) (fld w 4 6))
  | 0x06 => if fld w 4 6 = 0 then .ok (.vflr (fld w 22 2) (fld w 16 6) (fld w 10 6)) else .error 0x02
  | 0x07 => if fld w 4 6 = 0 then .ok (.vrnd (fld w 22 2) (fld w 16 6) (fld w 10 6)) else .error 0x02
  | 0x08 => if fld w 4 6 = 0 then .ok (.vfrc (fld w 22 2) (fld w 16 6) (fld w 10 6)) else .error 0x02
  | _ => .error 0x01

/-- Major 0x34 (Table 5-9). -/
noncomputable def decodeVred (w : BitVec 32) : Except Cause Instr :=
  match (fld w 0 4).toNat with
  | 0x00 => if fld w 4 6 = 0 then .ok (.vrsum (fld w 22 2) (fld w 16 6) (fld w 10 6)) else .error 0x02
  | 0x01 => if fld w 4 6 = 0 then .ok (.vrmax (fld w 22 2) (fld w 16 6) (fld w 10 6)) else .error 0x02
  | 0x02 => if fld w 4 6 = 0 then .ok (.vrmin (fld w 22 2) (fld w 16 6) (fld w 10 6)) else .error 0x02
  | 0x03 => if fld w 4 6 = 0 then .ok (.vwelf (fld w 22 2) (fld w 16 6) (fld w 10 6)) else .error 0x02
  | 0x04 => if fld w 4 6 = 0 then .ok (.vwmrg (fld w 22 2) (fld w 16 6) (fld w 10 6)) else .error 0x02
  | 0x05 => .ok (.vshf (fld w 22 2) (fld w 16 6) (fld w 10 6) (fld w 4 6))
  | 0x06 => if fld w 9 1 = 0 then .ok (.vrot (fld w 22 2) (fld w 16 6) (fld w 10 6) (fld w 4 5)) else .error 0x02
  | 0x07 => if fld w 9 1 = 0 then .ok (.vbcst (fld w 22 2) (fld w 16 6) (fld w 10 6) (fld w 4 5)) else .error 0x02
  | _ => .error 0x01

/-- Major 0x35 (Table 5-9). -/
noncomputable def decodeVcvt (w : BitVec 32) : Except Cause Instr :=
  match (fld w 0 4).toNat with
  | 0x00 => if fld w 9 1 = 0 then .ok (.vcvt (fld w 22 2) (fld w 16 6) (fld w 10 6) (fld w 7 2) (fld w 4 3)) else .error 0x02
  | 0x01 => if fld w 4 3 = 0 then .ok (.vkenc (fld w 22 2) (fld w 16 6) (fld w 10 6) (fld w 9 1) (fld w 7 2)) else .error 0x02
  | 0x02 => if fld w 4 3 = 0 then .ok (.vkdec (fld w 22 2) (fld w 16 6) (fld w 10 6) (fld w 9 1) (fld w 7 2)) else .error 0x02
  | 0x03 => if fld w 5 5 = 0 ∧ fld w 15 1 = 0 then .ok (.vpldec (fld w 22 2) (fld w 16 6) (fld w 10 5) (fld w 4 1)) else .error 0x02
  | _ => .error 0x01

/-- Major 0x36 (Table 5-9). -/
noncomputable def decodeVmem (w : BitVec 32) : Except Cause Instr :=
  match (fld w 0 4).toNat with
  | 0x00 => if fld w 9 1 = 0 ∧ fld w 15 1 = 0 then .ok (.vld (fld w 22 2) (fld w 16 6) (fld w 10 5) (fld w 4 5)) else .error 0x02
  | 0x01 => if fld w 9 1 = 0 ∧ fld w 15 1 = 0 then .ok (.vst (fld w 22 2) (fld w 16 6) (fld w 10 5) (fld w 4 5)) else .error 0x02
  | 0x02 => if fld w 9 1 = 0 ∧ fld w 15 1 = 0 then .ok (.vldc (fld w 22 2) (fld w 16 6) (fld w 10 5) (fld w 4 5)) else .error 0x02
  | 0x03 => if fld w 9 1 = 0 ∧ fld w 15 1 = 0 then .ok (.vstc (fld w 22 2) (fld w 16 6) (fld w 10 5) (fld w 4 5)) else .error 0x02
  | _ => .error 0x01

/-- Major 0x37 (Table 5-9). -/
noncomputable def decodeVacc (w : BitVec 32) : Except Cause Instr :=
  match (fld w 0 4).toNat with
  | 0x00 => if fld w 4 6 = 0 then .ok (.aclr (fld w 22 2) (fld w 16 6) (fld w 10 6)) else .error 0x02
  | 0x01 => if fld w 4 6 = 0 ∧ fld w 16 6 = 0 then .ok (.afmt (fld w 22 2) (fld w 10 6)) else .error 0x02
  | 0x02 => if fld w 6 4 = 0 then .ok (.amov (fld w 22 2) (fld w 16 6) (fld w 10 6) (fld w 4 2)) else .error 0x02
  | 0x03 => if fld w 4 18 = 0 then .ok (.axpose (fld w 22 2)) else .error 0x02
  | 0x04 => if fld w 4 18 = 0 then .ok (.await (fld w 22 2)) else .error 0x02
  | _ => .error 0x01

/-- A long word with the literal that follows it, where it has one (Table 5-9). Reserved majors are 0x01. -/
noncomputable def decodeLong (w lit : BitVec 32) : Except Cause Instr :=
  match majorOf w with
  | 0x00 => decodeHdr w
  | 0x01 => decodeAlu w lit
  | 0x02 => decodeAddi w
  | 0x03 => decodeAndi w
  | 0x04 => decodeOri w
  | 0x05 => decodeXori w
  | 0x06 => decodeShi w
  | 0x07 => decodeCmpi w
  | 0x08 => decodeLit w lit
  | 0x09 => decodePred w lit
  | 0x0A => decodePb w
  | 0x0B => decodeBrc w
  | 0x0C => decodeBr w
  | 0x0D => decodeCall w
  | 0x0E => decodeJmp w lit
  | 0x0F => decodeLoop w
  | 0x10 => decodeTok w
  | 0x11 => decodeBar w
  | 0x12 => decodeSstp w
  | 0x13 => decodeRill w
  | 0x14 => decodeLd w lit
  | 0x15 => decodeSt w lit
  | 0x16 => decodeAtom w
  | 0x17 => decodeSig w
  | 0x18 => decodeOrd w
  | 0x19 => decodePref w lit
  | 0x1A => decodeCpy w lit
  | 0x1B => decodeGsc w lit
  | 0x1C => decodeCesh w
  | 0x1D => decodeCwt w
  | 0x1E => decodeHnd1 w
  | 0x1F => decodeHnd2 w
  | 0x20 => decodeSys w
  | 0x21 => decodeLnch w
  | 0x22 => decodeSave w
  | 0x23 => decodeColl w lit
  | 0x24 => decodePln w
  | 0x25 => decodeApt w
  | 0x26 => decodeLayx w
  | 0x27 => decodeMx w
  | 0x28 => decodeWld w
  | 0x29 => decodeKmsk w
  | 0x30 => decodeVfp w
  | 0x31 => decodeVint w
  | 0x32 => decodeVcmp w
  | 0x33 => decodeVsfu w
  | 0x34 => decodeVred w
  | 0x35 => decodeVcvt w
  | 0x36 => decodeVmem w
  | 0x37 => decodeVacc w
  | _ => .error 0x01

/-- The instruction at the head of a list of parcels, with the number of parcels it takes. Where the parcels
run out inside a long word or its literal the cause is 0x06 (R71). -/
noncomputable def decode : List Parcel → Except Cause (Instr × Nat)
  | [] => .error 0x06
  | p :: ps =>
    if isLongParcel p then
      match ps with
      | [] => .error 0x06
      | q :: rest =>
        let w := wordOfParcels p q
        if hasLiteral w then
          match rest with
          | a :: b :: _ => (decodeLong w (wordOfParcels a b)).map fun i => (i, 4)
          | _ => .error 0x06
        else (decodeLong w 0).map fun i => (i, 2)
    else (decodeShort p).map fun i => (i, 1)

/-- Two bytes as a parcel, the low byte at the lower address (R67). -/
def parcelOfBytes (lo hi : Byte) : Parcel := hi ++ lo

/-- A byte string as parcels; a last odd byte is no parcel. -/
def parcelsOfBytes : List Byte → List Parcel
  | lo :: hi :: bs => parcelOfBytes lo hi :: parcelsOfBytes bs
  | _ => []

/-- Decoding of any bytes. -/
noncomputable def decodeBytes (bs : List Byte) : Except Cause (Instr × Nat) := decode (parcelsOfBytes bs)

/-- The parcels of an instruction whose bits stand in `w` as the opcode table numbers them: sixteen bits are
one parcel; a long word has its high half in the first parcel, and its literal, if any, in the bits from 32
upward; what `nbits` leaves out is zero (R68, R69). -/
def tableParcels (nbits w : Nat) : List Parcel :=
  if nbits ≤ 16 then [BitVec.ofNat 16 w, 0, 0, 0]
  else [BitVec.ofNat 16 (w / 2 ^ 16), BitVec.ofNat 16 w, BitVec.ofNat 16 (w / 2 ^ 48), BitVec.ofNat 16 (w / 2 ^ 32)]

/-- What the decoder reads from an instruction given as the opcode table numbers its bits. -/
noncomputable def decodeTableWord (nbits w : Nat) : Option Instr :=
  match decode (tableParcels nbits w) with
  | .ok (i, _) => some i
  | .error _ => none

/-- The parcels of a long word, high half first (R68). -/
def longParcels (w : BitVec 32) : List Parcel := [fld w 16 16, fld w 0 16]

/-- A long word from the sum of its fields in their places. -/
def packLong (n : Nat) : List Parcel := longParcels (BitVec.ofNat 32 n)

/-- A short instruction from the sum of its fields in their places. -/
def packShort (n : Nat) : List Parcel := [BitVec.ofNat 16 n]

/-- The encoder: the parcels of an instruction of a stream, from the fields of Tables 5-6, 5-8 and 5-9. An
operation of another agent has no encoding. -/
def encode : Instr → List Parcel
  | .hdr r l => packLong (0xC0000000 + r.toNat * 0x1000 + l.toNat)
  | .nop => packShort (0x0)
  | .mov d a => packShort (0x800 + d.toNat * 0x40 + a.toNat)
  | .addShort d a => packShort (0x1000 + d.toNat * 0x40 + a.toNat)
  | .subShort d a => packShort (0x1800 + d.toNat * 0x40 + a.toNat)
  | .andShort d a => packShort (0x2000 + d.toNat * 0x40 + a.toNat)
  | .orShort d a => packShort (0x2800 + d.toNat * 0x40 + a.toNat)
  | .xorShort d a => packShort (0x3000 + d.toNat * 0x40 + a.toNat)
  | .addi6 d i => packShort (0x3800 + d.toNat * 0x40 + i.toNat)
  | .shliShort d n => packShort (0x4000 + d.toNat * 0x40 + n.toNat)
  | .shriShort d x n => packShort (0x4800 + d.toNat * 0x40 + x.toNat * 0x20 + n.toNat)
  | .li6 d i => packShort (0x5000 + d.toNat * 0x40 + i.toNat)
  | .tclr d x => packShort (0x5800 + d.toNat * 0x40 + x.toNat * 0x20)
  | .adv n x w => packShort (0x6000 + n.toNat * 0x40 + x.toNat * 0x20 + w.toNat)
  | .tks n q => packShort (0x6800 + n.toNat * 0x40 + q.toNat)
  | .tkw n q => packShort (0x7000 + n.toNat * 0x40 + q.toNat)
  | .arr b => packShort (0x7800 + b.toNat)
  | .rep v x b a d n => packShort (0x8000 + v.toNat * 0x400 + x.toNat * 0x200 + b.toNat * 0x100 + a.toNat * 0x80 + d.toNat * 0x40 + n.toNat)
  | .pmov d n a => packShort (0x8800 + d.toNat * 0x40 + n.toNat * 0x20 + a.toNat)
  | .ret => packShort (0x9000)
  | .br16 d => packShort (0x9800 + d.toNat)
  | .endStream => packShort (0xA000)
  | .qpt => packShort (0xA800)
  | .spl d s => packShort (0xB000 + d.toNat * 0x40 + s.toNat)
  | .fil d s => packShort (0xB020 + d.toNat * 0x40 + s.toNat)
  | .add d a b u => packLong (0xC1000000 + d.toNat * 0x80000 + a.toNat * 0x4000 + b.toNat * 0x200 + u.toNat)
  | .sub d a b u => packLong (0xC1000004 + d.toNat * 0x80000 + a.toNat * 0x4000 + b.toNat * 0x200 + u.toNat)
  | .mul d a b u => packLong (0xC1000008 + d.toNat * 0x80000 + a.toNat * 0x4000 + b.toNat * 0x200 + u.toNat)
  | .mulh d a b u => packLong (0xC100000C + d.toNat * 0x80000 + a.toNat * 0x4000 + b.toNat * 0x200 + u.toNat)
  | .mulhu d a b u => packLong (0xC1000010 + d.toNat * 0x80000 + a.toNat * 0x4000 + b.toNat * 0x200 + u.toNat)
  | .div d a b u => packLong (0xC1000014 + d.toNat * 0x80000 + a.toNat * 0x4000 + b.toNat * 0x200 + u.toNat)
  | .divu d a b u => packLong (0xC1000018 + d.toNat * 0x80000 + a.toNat * 0x4000 + b.toNat * 0x200 + u.toNat)
  | .rem d a b u => packLong (0xC100001C + d.toNat * 0x80000 + a.toNat * 0x4000 + b.toNat * 0x200 + u.toNat)
  | .remu d a b u => packLong (0xC1000020 + d.toNat * 0x80000 + a.toNat * 0x4000 + b.toNat * 0x200 + u.toNat)
  | .and d a b u => packLong (0xC1000024 + d.toNat * 0x80000 + a.toNat * 0x4000 + b.toNat * 0x200 + u.toNat)
  | .or d a b u => packLong (0xC1000028 + d.toNat * 0x80000 + a.toNat * 0x4000 + b.toNat * 0x200 + u.toNat)
  | .xor d a b u => packLong (0xC100002C + d.toNat * 0x80000 + a.toNat * 0x4000 + b.toNat * 0x200 + u.toNat)
  | .andn d a b u => packLong (0xC1000030 + d.toNat * 0x80000 + a.toNat * 0x4000 + b.toNat * 0x200 + u.toNat)
  | .shl d a b u => packLong (0xC1000034 + d.toNat * 0x80000 + a.toNat * 0x4000 + b.toNat * 0x200 + u.toNat)
  | .shr d a b u => packLong (0xC1000038 + d.toNat * 0x80000 + a.toNat * 0x4000 + b.toNat * 0x200 + u.toNat)
  | .sar d a b u => packLong (0xC100003C + d.toNat * 0x80000 + a.toNat * 0x4000 + b.toNat * 0x200 + u.toNat)
  | .rot d a b u => packLong (0xC1000040 + d.toNat * 0x80000 + a.toNat * 0x4000 + b.toNat * 0x200 + u.toNat)
  | .min d a b u => packLong (0xC1000044 + d.toNat * 0x80000 + a.toNat * 0x4000 + b.toNat * 0x200 + u.toNat)
  | .max d a b u => packLong (0xC1000048 + d.toNat * 0x80000 + a.toNat * 0x4000 + b.toNat * 0x200 + u.toNat)
  | .minu d a b u => packLong (0xC100004C + d.toNat * 0x80000 + a.toNat * 0x4000 + b.toNat * 0x200 + u.toNat)
  | .maxu d a b u => packLong (0xC1000050 + d.toNat * 0x80000 + a.toNat * 0x4000 + b.toNat * 0x200 + u.toNat)
  | .clz d a u => packLong (0xC1000054 + d.toNat * 0x80000 + a.toNat * 0x4000 + u.toNat)
  | .ctz d a u => packLong (0xC1000058 + d.toNat * 0x80000 + a.toNat * 0x4000 + u.toNat)
  | .popc d a u => packLong (0xC100005C + d.toNat * 0x80000 + a.toNat * 0x4000 + u.toNat)
  | .sext d a b u => packLong (0xC1000060 + d.toNat * 0x80000 + a.toNat * 0x4000 + b.toNat * 0x200 + u.toNat)
  | .zext d a b u => packLong (0xC1000064 + d.toNat * 0x80000 + a.toNat * 0x4000 + b.toNat * 0x200 + u.toNat)
  | .bfx d a b u => packLong (0xC1000068 + d.toNat * 0x80000 + a.toNat * 0x4000 + b.toNat * 0x200 + u.toNat)
  | .bfi d a b u => packLong (0xC100006C + d.toNat * 0x80000 + a.toNat * 0x4000 + b.toNat * 0x200 + u.toNat)
  | .selp d a b u => packLong (0xC1000070 + d.toNat * 0x80000 + a.toNat * 0x4000 + b.toNat * 0x200 + u.toNat)
  | .addsat d a b u => packLong (0xC1000074 + d.toNat * 0x80000 + a.toNat * 0x4000 + b.toNat * 0x200 + u.toNat)
  | .subsat d a b u => packLong (0xC1000078 + d.toNat * 0x80000 + a.toNat * 0x4000 + b.toNat * 0x200 + u.toNat)
  | .madd d a b u => packLong (0xC100007C + d.toNat * 0x80000 + a.toNat * 0x4000 + b.toNat * 0x200 + u.toNat)
  | .cmpeq d a b u => packLong (0xC1000080 + d.toNat * 0x80000 + a.toNat * 0x4000 + b.toNat * 0x200 + u.toNat)
  | .cmpne d a b u => packLong (0xC1000084 + d.toNat * 0x80000 + a.toNat * 0x4000 + b.toNat * 0x200 + u.toNat)
  | .cmplt d a b u => packLong (0xC1000088 + d.toNat * 0x80000 + a.toNat * 0x4000 + b.toNat * 0x200 + u.toNat)
  | .cmple d a b u => packLong (0xC100008C + d.toNat * 0x80000 + a.toNat * 0x4000 + b.toNat * 0x200 + u.toNat)
  | .cmpltu d a b u => packLong (0xC1000090 + d.toNat * 0x80000 + a.toNat * 0x4000 + b.toNat * 0x200 + u.toNat)
  | .cmpleu d a b u => packLong (0xC1000094 + d.toNat * 0x80000 + a.toNat * 0x4000 + b.toNat * 0x200 + u.toNat)
  | .addLit d a u lit => packLong (0xC1000002 + d.toNat * 0x80000 + a.toNat * 0x4000 + u.toNat) ++ longParcels lit
  | .subLit d a u lit => packLong (0xC1000006 + d.toNat * 0x80000 + a.toNat * 0x4000 + u.toNat) ++ longParcels lit
  | .mulLit d a u lit => packLong (0xC100000A + d.toNat * 0x80000 + a.toNat * 0x4000 + u.toNat) ++ longParcels lit
  | .mulhLit d a u lit => packLong (0xC100000E + d.toNat * 0x80000 + a.toNat * 0x4000 + u.toNat) ++ longParcels lit
  | .mulhuLit d a u lit => packLong (0xC1000012 + d.toNat * 0x80000 + a.toNat * 0x4000 + u.toNat) ++ longParcels lit
  | .divLit d a u lit => packLong (0xC1000016 + d.toNat * 0x80000 + a.toNat * 0x4000 + u.toNat) ++ longParcels lit
  | .divuLit d a u lit => packLong (0xC100001A + d.toNat * 0x80000 + a.toNat * 0x4000 + u.toNat) ++ longParcels lit
  | .remLit d a u lit => packLong (0xC100001E + d.toNat * 0x80000 + a.toNat * 0x4000 + u.toNat) ++ longParcels lit
  | .remuLit d a u lit => packLong (0xC1000022 + d.toNat * 0x80000 + a.toNat * 0x4000 + u.toNat) ++ longParcels lit
  | .andLit d a u lit => packLong (0xC1000026 + d.toNat * 0x80000 + a.toNat * 0x4000 + u.toNat) ++ longParcels lit
  | .orLit d a u lit => packLong (0xC100002A + d.toNat * 0x80000 + a.toNat * 0x4000 + u.toNat) ++ longParcels lit
  | .xorLit d a u lit => packLong (0xC100002E + d.toNat * 0x80000 + a.toNat * 0x4000 + u.toNat) ++ longParcels lit
  | .andnLit d a u lit => packLong (0xC1000032 + d.toNat * 0x80000 + a.toNat * 0x4000 + u.toNat) ++ longParcels lit
  | .shlLit d a u lit => packLong (0xC1000036 + d.toNat * 0x80000 + a.toNat * 0x4000 + u.toNat) ++ longParcels lit
  | .shrLit d a u lit => packLong (0xC100003A + d.toNat * 0x80000 + a.toNat * 0x4000 + u.toNat) ++ longParcels lit
  | .sarLit d a u lit => packLong (0xC100003E + d.toNat * 0x80000 + a.toNat * 0x4000 + u.toNat) ++ longParcels lit
  | .rotLit d a u lit => packLong (0xC1000042 + d.toNat * 0x80000 + a.toNat * 0x4000 + u.toNat) ++ longParcels lit
  | .minLit d a u lit => packLong (0xC1000046 + d.toNat * 0x80000 + a.toNat * 0x4000 + u.toNat) ++ longParcels lit
  | .maxLit d a u lit => packLong (0xC100004A + d.toNat * 0x80000 + a.toNat * 0x4000 + u.toNat) ++ longParcels lit
  | .minuLit d a u lit => packLong (0xC100004E + d.toNat * 0x80000 + a.toNat * 0x4000 + u.toNat) ++ longParcels lit
  | .maxuLit d a u lit => packLong (0xC1000052 + d.toNat * 0x80000 + a.toNat * 0x4000 + u.toNat) ++ longParcels lit
  | .sextLit d a u lit => packLong (0xC1000062 + d.toNat * 0x80000 + a.toNat * 0x4000 + u.toNat) ++ longParcels lit
  | .zextLit d a u lit => packLong (0xC1000066 + d.toNat * 0x80000 + a.toNat * 0x4000 + u.toNat) ++ longParcels lit
  | .bfxLit d a u lit => packLong (0xC100006A + d.toNat * 0x80000 + a.toNat * 0x4000 + u.toNat) ++ longParcels lit
  | .bfiLit d a u lit => packLong (0xC100006E + d.toNat * 0x80000 + a.toNat * 0x4000 + u.toNat) ++ longParcels lit
  | .selpLit d a u lit => packLong (0xC1000072 + d.toNat * 0x80000 + a.toNat * 0x4000 + u.toNat) ++ longParcels lit
  | .addsatLit d a u lit => packLong (0xC1000076 + d.toNat * 0x80000 + a.toNat * 0x4000 + u.toNat) ++ longParcels lit
  | .subsatLit d a u lit => packLong (0xC100007A + d.toNat * 0x80000 + a.toNat * 0x4000 + u.toNat) ++ longParcels lit
  | .maddLit d a u lit => packLong (0xC100007E + d.toNat * 0x80000 + a.toNat * 0x4000 + u.toNat) ++ longParcels lit
  | .cmpeqLit d a u lit => packLong (0xC1000082 + d.toNat * 0x80000 + a.toNat * 0x4000 + u.toNat) ++ longParcels lit
  | .cmpneLit d a u lit => packLong (0xC1000086 + d.toNat * 0x80000 + a.toNat * 0x4000 + u.toNat) ++ longParcels lit
  | .cmpltLit d a u lit => packLong (0xC100008A + d.toNat * 0x80000 + a.toNat * 0x4000 + u.toNat) ++ longParcels lit
  | .cmpleLit d a u lit => packLong (0xC100008E + d.toNat * 0x80000 + a.toNat * 0x4000 + u.toNat) ++ longParcels lit
  | .cmpltuLit d a u lit => packLong (0xC1000092 + d.toNat * 0x80000 + a.toNat * 0x4000 + u.toNat) ++ longParcels lit
  | .cmpleuLit d a u lit => packLong (0xC1000096 + d.toNat * 0x80000 + a.toNat * 0x4000 + u.toNat) ++ longParcels lit
  | .addi d a i => packLong (0xC2000000 + d.toNat * 0x80000 + a.toNat * 0x4000 + i.toNat)
  | .andi d a i => packLong (0xC3000000 + d.toNat * 0x80000 + a.toNat * 0x4000 + i.toNat)
  | .ori d a i => packLong (0xC4000000 + d.toNat * 0x80000 + a.toNat * 0x4000 + i.toNat)
  | .xori d a i => packLong (0xC5000000 + d.toNat * 0x80000 + a.toNat * 0x4000 + i.toNat)
  | .shli d a n => packLong (0xC6000000 + d.toNat * 0x80000 + a.toNat * 0x4000 + n.toNat)
  | .shri d a n => packLong (0xC6000040 + d.toNat * 0x80000 + a.toNat * 0x4000 + n.toNat)
  | .sari d a n => packLong (0xC6000080 + d.toNat * 0x80000 + a.toNat * 0x4000 + n.toNat)
  | .roti d a n => packLong (0xC60000C0 + d.toNat * 0x80000 + a.toNat * 0x4000 + n.toNat)
  | .cmpi d a r c => packLong (0xC7000000 + d.toNat * 0x80000 + a.toNat * 0x4000 + r.toNat * 0x800 + c.toNat)
  | .lit d lit => packLong (0xC8000000 + d.toNat * 0x80000) ++ longParcels lit
  | .lith d lit => packLong (0xC8000400 + d.toNat * 0x80000) ++ longParcels lit
  | .pand d a b u => packLong (0xC9000000 + d.toNat * 0x80000 + a.toNat * 0x4000 + b.toNat * 0x200 + u.toNat)
  | .por d a b u => packLong (0xC9000004 + d.toNat * 0x80000 + a.toNat * 0x4000 + b.toNat * 0x200 + u.toNat)
  | .pxor d a b u => packLong (0xC9000008 + d.toNat * 0x80000 + a.toNat * 0x4000 + b.toNat * 0x200 + u.toNat)
  | .pnot d a u => packLong (0xC900000C + d.toNat * 0x80000 + a.toNat * 0x4000 + u.toNat)
  | .pset d v u => packLong (0xC9000010 + d.toNat * 0x80000 + v.toNat * 0x4000 + u.toNat)
  | .pandLit d a u lit => packLong (0xC9000002 + d.toNat * 0x80000 + a.toNat * 0x4000 + u.toNat) ++ longParcels lit
  | .porLit d a u lit => packLong (0xC9000006 + d.toNat * 0x80000 + a.toNat * 0x4000 + u.toNat) ++ longParcels lit
  | .pxorLit d a u lit => packLong (0xC900000A + d.toNat * 0x80000 + a.toNat * 0x4000 + u.toNat) ++ longParcels lit
  | .pb c n p => packLong (0xCA000000 + c.toNat * 0x200000 + n.toNat * 0x40000 + p.toNat * 0x400)
  | .brc a c d => packLong (0xCB000000 + a.toNat * 0x80000 + c.toNat * 0x10000 + d.toNat)
  | .br d => packLong (0xCC000000 + d.toNat)
  | .call d => packLong (0xCD000000 + d.toNat)
  | .jr a u => packLong (0xCE000000 + a.toNat * 0x4000 + u.toNat)
  | .jrLit a u lit => packLong (0xCE000002 + a.toNat * 0x4000 + u.toNat) ++ longParcels lit
  | .jalr d a u => packLong (0xCE000004 + d.toNat * 0x80000 + a.toNat * 0x4000 + u.toNat)
  | .jalrLit d a u lit => packLong (0xCE000006 + d.toNat * 0x80000 + a.toNat * 0x4000 + u.toNat) ++ longParcels lit
  | .retL u => packLong (0xCE000008 + u.toNat)
  | .retLLit u lit => packLong (0xCE00000A + u.toNat) ++ longParcels lit
  | .loop a d => packLong (0xCF000000 + a.toNat * 0x80000 + d.toNat)
  | .tksL q a n => packLong (0xD0000000 + q.toNat * 0x80000 + a.toNat * 0x4000 + n.toNat)
  | .tkwL q a n => packLong (0xD0000400 + q.toNat * 0x80000 + a.toNat * 0x4000 + n.toNat)
  | .bjoin b => packLong (0xD1000000 + b.toNat)
  | .bleave b => packLong (0xD1000400 + b.toNat)
  | .barr b => packLong (0xD1000800 + b.toNat)
  | .barn d b => packLong (0xD1000C00 + d.toNat * 0x80000 + b.toNat)
  | .bwait a b => packLong (0xD1001000 + a.toNat * 0x4000 + b.toNat)
  | .bcnt d b => packLong (0xD1001400 + d.toNat * 0x80000 + b.toNat)
  | .sstep => packLong (0xD2000000)
  | .ssync => packLong (0xD2000400)
  | .sphase d => packLong (0xD2000800 + d.toNat * 0x80000)
  | .winit w a => packLong (0xD3000000 + w.toNat * 0x80000 + a.toNat * 0x4000)
  | .wwaitf w a n => packLong (0xD3000400 + w.toNat * 0x80000 + a.toNat * 0x4000 + n.toNat)
  | .wwaite w a n => packLong (0xD3000800 + w.toNat * 0x80000 + a.toNat * 0x4000 + n.toNat)
  | .wadvp w a n => packLong (0xD3000C00 + w.toNat * 0x80000 + a.toNat * 0x4000 + n.toNat)
  | .wadvc w a n => packLong (0xD3001000 + w.toNat * 0x80000 + a.toNat * 0x4000 + n.toNat)
  | .wstat d w => packLong (0xD3001400 + d.toNat * 0x80000 + w.toNat)
  | .ld d h a z o s q => packLong (0xD4000000 + d.toNat * 0x80000 + h.toNat * 0x4000 + a.toNat * 0x200 + z.toNat * 0x80 + o.toNat * 0x20 + s.toNat * 0x4 + q.toNat)
  | .ldLit d h a z o s q lit => packLong (0xD4000002 + d.toNat * 0x80000 + h.toNat * 0x4000 + a.toNat * 0x200 + z.toNat * 0x80 + o.toNat * 0x20 + s.toNat * 0x4 + q.toNat) ++ longParcels lit
  | .st d h a z o s => packLong (0xD5000000 + d.toNat * 0x80000 + h.toNat * 0x4000 + a.toNat * 0x200 + z.toNat * 0x80 + o.toNat * 0x20 + s.toNat * 0x4)
  | .stLit d h a z o s lit => packLong (0xD5000002 + d.toNat * 0x80000 + h.toNat * 0x4000 + a.toNat * 0x200 + z.toNat * 0x80 + o.toNat * 0x20 + s.toNat * 0x4) ++ longParcels lit
  | .aadd d h a s w => packLong (0xD6000000 + d.toNat * 0x80000 + h.toNat * 0x4000 + a.toNat * 0x200 + s.toNat * 0x4 + w.toNat * 0x2)
  | .aand d h a s w => packLong (0xD6000020 + d.toNat * 0x80000 + h.toNat * 0x4000 + a.toNat * 0x200 + s.toNat * 0x4 + w.toNat * 0x2)
  | .aor d h a s w => packLong (0xD6000040 + d.toNat * 0x80000 + h.toNat * 0x4000 + a.toNat * 0x200 + s.toNat * 0x4 + w.toNat * 0x2)
  | .axor d h a s w => packLong (0xD6000060 + d.toNat * 0x80000 + h.toNat * 0x4000 + a.toNat * 0x200 + s.toNat * 0x4 + w.toNat * 0x2)
  | .amin d h a s w => packLong (0xD6000080 + d.toNat * 0x80000 + h.toNat * 0x4000 + a.toNat * 0x200 + s.toNat * 0x4 + w.toNat * 0x2)
  | .amax d h a s w => packLong (0xD60000A0 + d.toNat * 0x80000 + h.toNat * 0x4000 + a.toNat * 0x200 + s.toNat * 0x4 + w.toNat * 0x2)
  | .aminu d h a s w => packLong (0xD60000C0 + d.toNat * 0x80000 + h.toNat * 0x4000 + a.toNat * 0x200 + s.toNat * 0x4 + w.toNat * 0x2)
  | .amaxu d h a s w => packLong (0xD60000E0 + d.toNat * 0x80000 + h.toNat * 0x4000 + a.toNat * 0x200 + s.toNat * 0x4 + w.toNat * 0x2)
  | .aswp d h a s w => packLong (0xD6000100 + d.toNat * 0x80000 + h.toNat * 0x4000 + a.toNat * 0x200 + s.toNat * 0x4 + w.toNat * 0x2)
  | .acas d h a s w => packLong (0xD6000120 + d.toNat * 0x80000 + h.toNat * 0x4000 + a.toNat * 0x200 + s.toNat * 0x4 + w.toNat * 0x2)
  | .sigadd d a h => packLong (0xD7000000 + d.toNat * 0x80000 + a.toNat * 0x4000 + h.toNat)
  | .sigwait d a t r h => packLong (0xD7000400 + d.toNat * 0x80000 + a.toNat * 0x4000 + t.toNat * 0x100 + r.toNat * 0x20 + h.toNat)
  | .fence k s => packLong (0xD8000000 + k.toNat * 0x8 + s.toNat)
  | .align k => packLong (0xD8000400 + k.toNat)
  | .tclrL d x => packLong (0xD8000800 + d.toNat * 0x80000 + x.toNat)
  | .qptL => packLong (0xD8000C00)
  | .pref h a z => packLong (0xD9000000 + h.toNat * 0x4000 + a.toNat * 0x200 + z.toNat * 0x80)
  | .prefLit h a z lit => packLong (0xD9000002 + h.toNat * 0x4000 + a.toNat * 0x200 + z.toNat * 0x80) ++ longParcels lit
  | .cpy hd hs y a lit => packLong (0xDA000000 + hd.toNat * 0x80000 + hs.toNat * 0x4000 + y.toNat * 0x400 + a.toNat * 0x20) ++ longParcels lit
  | .cpyin hd hs y a lit => packLong (0xDA000002 + hd.toNat * 0x80000 + hs.toNat * 0x4000 + y.toNat * 0x400 + a.toNat * 0x20) ++ longParcels lit
  | .cpyout hd hs y a lit => packLong (0xDA000004 + hd.toNat * 0x80000 + hs.toNat * 0x4000 + y.toNat * 0x400 + a.toNat * 0x20) ++ longParcels lit
  | .cpyz hd y a lit => packLong (0xDA000006 + hd.toNat * 0x80000 + y.toNat * 0x400 + a.toNat * 0x20) ++ longParcels lit
  | .cpycv hd hs y a lit => packLong (0xDA000008 + hd.toNat * 0x80000 + hs.toNat * 0x4000 + y.toNat * 0x400 + a.toNat * 0x20) ++ longParcels lit
  | .gather hd hs y a lit => packLong (0xDB000000 + hd.toNat * 0x80000 + hs.toNat * 0x4000 + y.toNat * 0x400 + a.toNat * 0x20) ++ longParcels lit
  | .scatter hd hs y a lit => packLong (0xDB000002 + hd.toNat * 0x80000 + hs.toNat * 0x4000 + y.toNat * 0x400 + a.toNat * 0x20) ++ longParcels lit
  | .cesh a f i y => packLong (0xDC000000 + a.toNat * 0x80000 + f.toNat * 0x10000 + i.toNat * 0x1000 + y.toNat * 0x100)
  | .cwait a n => packLong (0xDD000000 + a.toNat * 0x4000 + n.toNat)
  | .ccnt d => packLong (0xDD000400 + d.toNat * 0x80000)
  | .cstat d => packLong (0xDD000800 + d.toNat * 0x80000)
  | .cstatIssued d => packLong (0xDD000801 + d.toNat * 0x80000)
  | .hreq a t => packLong (0xDE000000 + a.toNat * 0x4000 + t.toNat)
  | .hwait h a t => packLong (0xDE000400 + h.toNat * 0x80000 + a.toNat * 0x4000 + t.toNat)
  | .hmov d a => packLong (0xDE000800 + d.toNat * 0x80000 + a.toNat * 0x4000)
  | .hclr d => packLong (0xDE000C00 + d.toNat * 0x80000)
  | .hld d a m => packLong (0xDE001000 + d.toNat * 0x80000 + a.toNat * 0x4000 + m.toNat)
  | .hst d a m => packLong (0xDE001400 + d.toNat * 0x80000 + a.toNat * 0x4000 + m.toNat)
  | .hchk d a m => packLong (0xDF000000 + d.toNat * 0x80000 + a.toNat * 0x4000 + m.toNat)
  | .hget d a s => packLong (0xDF000400 + d.toNat * 0x80000 + a.toNat * 0x4000 + s.toNat)
  | .hrevk d a => packLong (0xDF000800 + d.toNat * 0x80000 + a.toNat * 0x4000)
  | .hrevkAll d => packLong (0xDF000801 + d.toNat * 0x80000)
  | .krot d => packLong (0xDF000C00 + d.toNat * 0x80000)
  | .kstat d s => packLong (0xDF001000 + d.toNat * 0x80000 + s.toNat)
  | .trap n => packLong (0xE0000000 + n.toNat * 0x100)
  | .gets a r => packLong (0xE0000001 + a.toNat * 0x80000 + r.toNat * 0x100)
  | .sets a r => packLong (0xE0000002 + a.toNat * 0x80000 + r.toNat * 0x100)
  | .yield a => packLong (0xE0000003 + a.toNat * 0x80000)
  | .clk a c => packLong (0xE0000004 + a.toNat * 0x80000 + c.toNat * 0x100)
  | .enrg a l q => packLong (0xE0000005 + a.toNat * 0x80000 + l.toNat * 0x4000 + q.toNat * 0x100)
  | .nopl => packLong (0xE0000006)
  | .launch d a h => packLong (0xE1000000 + d.toNat * 0x80000 + a.toNat * 0x4000 + h.toNat)
  | .qstat d a => packLong (0xE1000400 + d.toNat * 0x80000 + a.toNat * 0x4000)
  | .save d h c => packLong (0xE2000000 + d.toNat * 0x80000 + h.toNat * 0x4000 + c.toNat)
  | .coll d a e l y x lit => packLong (0xE3000000 + d.toNat * 0x80000 + a.toNat * 0x4000 + e.toNat * 0x80 + l.toNat * 0x40 + y.toNat * 0x8 + x.toNat) ++ longParcels lit
  | .collw d a => packLong (0xE3000400 + d.toNat * 0x80000 + a.toNat * 0x4000)
  | .collwCancel d a => packLong (0xE3000401 + d.toNat * 0x80000 + a.toNat * 0x4000)
  | .plwait a n => packLong (0xE4000000 + a.toNat * 0x4000 + n.toNat)
  | .plcnt d a => packLong (0xE4000400 + d.toNat * 0x80000 + a.toNat * 0x4000)
  | .plcut a n => packLong (0xE4000800 + a.toNat * 0x4000 + n.toNat)
  | .apst d a h => packLong (0xE5000000 + d.toNat * 0x80000 + a.toNat * 0x4000 + h.toNat)
  | .apld d a h => packLong (0xE5000400 + d.toNat * 0x80000 + a.toNat * 0x4000 + h.toNat)
  | .rslotReserve d a t => packLong (0xE5000800 + d.toNat * 0x80000 + a.toNat * 0x4000 + t.toNat * 0x2)
  | .rslotRelease d a => packLong (0xE5000801 + d.toNat * 0x80000 + a.toNat * 0x4000)
  | .layx a x => packLong (0xE6000000 + a.toNat * 0x4000 + x.toNat)
  | .mxset a r => packLong (0xE7000000 + a.toNat * 0x80000 + r.toNat * 0x100)
  | .mxget a r => packLong (0xE7000001 + a.toNat * 0x80000 + r.toNat * 0x100)
  | .mxgo => packLong (0xE7000002)
  | .mxwait => packLong (0xE7000003)
  | .mxprog a => packLong (0xE7000004 + a.toNat * 0x80000)
  | .mxabort => packLong (0xE7000005)
  | .wld => packLong (0xE8000000)
  | .kset k a => packLong (0xE9000000 + k.toNat * 0x80000 + a.toNat * 0x4000)
  | .kgen k a n => packLong (0xE9000400 + k.toNat * 0x80000 + a.toNat * 0x4000 + n.toNat)
  | .vadd t d a b => packLong (0xF0000000 + t.toNat * 0x400000 + d.toNat * 0x10000 + a.toNat * 0x400 + b.toNat * 0x10)
  | .vsub t d a b => packLong (0xF0000001 + t.toNat * 0x400000 + d.toNat * 0x10000 + a.toNat * 0x400 + b.toNat * 0x10)
  | .vmul t d a b => packLong (0xF0000002 + t.toNat * 0x400000 + d.toNat * 0x10000 + a.toNat * 0x400 + b.toNat * 0x10)
  | .vfma t d a b => packLong (0xF0000003 + t.toNat * 0x400000 + d.toNat * 0x10000 + a.toNat * 0x400 + b.toNat * 0x10)
  | .vfms t d a b => packLong (0xF0000004 + t.toNat * 0x400000 + d.toNat * 0x10000 + a.toNat * 0x400 + b.toNat * 0x10)
  | .vmin t d a b => packLong (0xF0000005 + t.toNat * 0x400000 + d.toNat * 0x10000 + a.toNat * 0x400 + b.toNat * 0x10)
  | .vmax t d a b => packLong (0xF0000006 + t.toNat * 0x400000 + d.toNat * 0x10000 + a.toNat * 0x400 + b.toNat * 0x10)
  | .vcpys t d a b => packLong (0xF0000007 + t.toNat * 0x400000 + d.toNat * 0x10000 + a.toNat * 0x400 + b.toNat * 0x10)
  | .vadds t d a s => packLong (0xF0000008 + t.toNat * 0x400000 + d.toNat * 0x10000 + a.toNat * 0x400 + s.toNat * 0x10)
  | .vmuls t d a s => packLong (0xF0000009 + t.toNat * 0x400000 + d.toNat * 0x10000 + a.toNat * 0x400 + s.toNat * 0x10)
  | .vfmas t d a s => packLong (0xF000000A + t.toNat * 0x400000 + d.toNat * 0x10000 + a.toNat * 0x400 + s.toNat * 0x10)
  | .vmaxs t d a s => packLong (0xF000000B + t.toNat * 0x400000 + d.toNat * 0x10000 + a.toNat * 0x400 + s.toNat * 0x10)
  | .vmins t d a s => packLong (0xF000000C + t.toNat * 0x400000 + d.toNat * 0x10000 + a.toNat * 0x400 + s.toNat * 0x10)
  | .vsubs t d a s => packLong (0xF000000D + t.toNat * 0x400000 + d.toNat * 0x10000 + a.toNat * 0x400 + s.toNat * 0x10)
  | .viadd t d a b => packLong (0xF1000000 + t.toNat * 0x400000 + d.toNat * 0x10000 + a.toNat * 0x400 + b.toNat * 0x10)
  | .visub t d a b => packLong (0xF1000001 + t.toNat * 0x400000 + d.toNat * 0x10000 + a.toNat * 0x400 + b.toNat * 0x10)
  | .vimul t d a b => packLong (0xF1000002 + t.toNat * 0x400000 + d.toNat * 0x10000 + a.toNat * 0x400 + b.toNat * 0x10)
  | .vimac t d a b => packLong (0xF1000003 + t.toNat * 0x400000 + d.toNat * 0x10000 + a.toNat * 0x400 + b.toNat * 0x10)
  | .vand t d a b => packLong (0xF1000004 + t.toNat * 0x400000 + d.toNat * 0x10000 + a.toNat * 0x400 + b.toNat * 0x10)
  | .vor t d a b => packLong (0xF1000005 + t.toNat * 0x400000 + d.toNat * 0x10000 + a.toNat * 0x400 + b.toNat * 0x10)
  | .vxor t d a b => packLong (0xF1000006 + t.toNat * 0x400000 + d.toNat * 0x10000 + a.toNat * 0x400 + b.toNat * 0x10)
  | .vshl t d a b => packLong (0xF1000007 + t.toNat * 0x400000 + d.toNat * 0x10000 + a.toNat * 0x400 + b.toNat * 0x10)
  | .vshr t d a b => packLong (0xF1000008 + t.toNat * 0x400000 + d.toNat * 0x10000 + a.toNat * 0x400 + b.toNat * 0x10)
  | .vsar t d a b => packLong (0xF1000009 + t.toNat * 0x400000 + d.toNat * 0x10000 + a.toNat * 0x400 + b.toNat * 0x10)
  | .vimin t d a b => packLong (0xF100000A + t.toNat * 0x400000 + d.toNat * 0x10000 + a.toNat * 0x400 + b.toNat * 0x10)
  | .vimax t d a b => packLong (0xF100000B + t.toNat * 0x400000 + d.toNat * 0x10000 + a.toNat * 0x400 + b.toNat * 0x10)
  | .vceq t m a b => packLong (0xF2000000 + t.toNat * 0x400000 + m.toNat * 0x10000 + a.toNat * 0x400 + b.toNat * 0x10)
  | .vcne t m a b => packLong (0xF2000001 + t.toNat * 0x400000 + m.toNat * 0x10000 + a.toNat * 0x400 + b.toNat * 0x10)
  | .vclt t m a b => packLong (0xF2000002 + t.toNat * 0x400000 + m.toNat * 0x10000 + a.toNat * 0x400 + b.toNat * 0x10)
  | .vcle t m a b => packLong (0xF2000003 + t.toNat * 0x400000 + m.toNat * 0x10000 + a.toNat * 0x400 + b.toNat * 0x10)
  | .vsel t d a b => packLong (0xF2000004 + t.toNat * 0x400000 + d.toNat * 0x10000 + a.toNat * 0x400 + b.toNat * 0x10)
  | .vmnot => packLong (0xF2000005)
  | .vmpop t s => packLong (0xF2000006 + t.toNat * 0x400000 + s.toNat * 0x10000)
  | .vexp2 t d a => packLong (0xF3000000 + t.toNat * 0x400000 + d.toNat * 0x10000 + a.toNat * 0x400)
  | .vlog2 t d a => packLong (0xF3000001 + t.toNat * 0x400000 + d.toNat * 0x10000 + a.toNat * 0x400)
  | .vrcpa t d a => packLong (0xF3000002 + t.toNat * 0x400000 + d.toNat * 0x10000 + a.toNat * 0x400)
  | .vrsqa t d a => packLong (0xF3000003 + t.toNat * 0x400000 + d.toNat * 0x10000 + a.toNat * 0x400)
  | .vrcpr t d a b => packLong (0xF3000004 + t.toNat * 0x400000 + d.toNat * 0x10000 + a.toNat * 0x400 + b.toNat * 0x10)
  | .vrsqr t d a b => packLong (0xF3000005 + t.toNat * 0x400000 + d.toNat * 0x10000 + a.toNat * 0x400 + b.toNat * 0x10)
  | .vflr t d a => packLong (0xF3000006 + t.toNat * 0x400000 + d.toNat * 0x10000 + a.toNat * 0x400)
  | .vrnd t d a => packLong (0xF3000007 + t.toNat * 0x400000 + d.toNat * 0x10000 + a.toNat * 0x400)
  | .vfrc t d a => packLong (0xF3000008 + t.toNat * 0x400000 + d.toNat * 0x10000 + a.toNat * 0x400)
  | .vrsum t d a => packLong (0xF4000000 + t.toNat * 0x400000 + d.toNat * 0x10000 + a.toNat * 0x400)
  | .vrmax t d a => packLong (0xF4000001 + t.toNat * 0x400000 + d.toNat * 0x10000 + a.toNat * 0x400)
  | .vrmin t d a => packLong (0xF4000002 + t.toNat * 0x400000 + d.toNat * 0x10000 + a.toNat * 0x400)
  | .vwelf t d a => packLong (0xF4000003 + t.toNat * 0x400000 + d.toNat * 0x10000 + a.toNat * 0x400)
  | .vwmrg t d a => packLong (0xF4000004 + t.toNat * 0x400000 + d.toNat * 0x10000 + a.toNat * 0x400)
  | .vshf t d a b => packLong (0xF4000005 + t.toNat * 0x400000 + d.toNat * 0x10000 + a.toNat * 0x400 + b.toNat * 0x10)
  | .vrot t d a s => packLong (0xF4000006 + t.toNat * 0x400000 + d.toNat * 0x10000 + a.toNat * 0x400 + s.toNat * 0x10)
  | .vbcst t d a s => packLong (0xF4000007 + t.toNat * 0x400000 + d.toNat * 0x10000 + a.toNat * 0x400 + s.toNat * 0x10)
  | .vcvt t d a p s => packLong (0xF5000000 + t.toNat * 0x400000 + d.toNat * 0x10000 + a.toNat * 0x400 + p.toNat * 0x80 + s.toNat * 0x10)
  | .vkenc t d a h f => packLong (0xF5000001 + t.toNat * 0x400000 + d.toNat * 0x10000 + a.toNat * 0x400 + h.toNat * 0x200 + f.toNat * 0x80)
  | .vkdec t d a h f => packLong (0xF5000002 + t.toNat * 0x400000 + d.toNat * 0x10000 + a.toNat * 0x400 + h.toNat * 0x200 + f.toNat * 0x80)
  | .vpldec t d s m => packLong (0xF5000003 + t.toNat * 0x400000 + d.toNat * 0x10000 + s.toNat * 0x400 + m.toNat * 0x10)
  | .vld t d h s => packLong (0xF6000000 + t.toNat * 0x400000 + d.toNat * 0x10000 + h.toNat * 0x400 + s.toNat * 0x10)
  | .vst t d h s => packLong (0xF6000001 + t.toNat * 0x400000 + d.toNat * 0x10000 + h.toNat * 0x400 + s.toNat * 0x10)
  | .vldc t d h s => packLong (0xF6000002 + t.toNat * 0x400000 + d.toNat * 0x10000 + h.toNat * 0x400 + s.toNat * 0x10)
  | .vstc t d h s => packLong (0xF6000003 + t.toNat * 0x400000 + d.toNat * 0x10000 + h.toNat * 0x400 + s.toNat * 0x10)
  | .aclr t d c => packLong (0xF7000000 + t.toNat * 0x400000 + d.toNat * 0x10000 + c.toNat * 0x400)
  | .afmt t y => packLong (0xF7000001 + t.toNat * 0x400000 + y.toNat * 0x400)
  | .amov t d a s => packLong (0xF7000002 + t.toNat * 0x400000 + d.toNat * 0x10000 + a.toNat * 0x400 + s.toNat * 0x10)
  | .axpose t => packLong (0xF7000003 + t.toNat * 0x400000)
  | .await t => packLong (0xF7000004 + t.toNat * 0x400000)
  | .loadValueDelivery .. => []
  | .loadPerformed .. => []
  | .copyCompletion .. => []
  | .cpyinVerify .. => []
  | .meOperationStart .. => []
  | .meRowStep .. => []
  | .weightBlockFill .. => []
  | .meBroadcastRendezvous .. => []
  | .mintAnswer .. => []
  | .revocationSweep .. => []
  | .rotationPageConvert .. => []
  | .bankRowRekey .. => []
  | .zeroWalkRow .. => []
  | .hbmScrubPage .. => []
  | .persistentCommit .. => []
  | .invalidation .. => []
  | .secondStageFaultService .. => []
  | .qtailWrite .. => []
  | .qstateOvfClear .. => []
  | .qctlReset .. => []
  | .queueResetComplete .. => []
  | .fresRetry .. => []
  | .fresEndTask .. => []
  | .registerWrite .. => []
  | .candidateCheck .. => []
  | .waitListEvaluation .. => []
  | .rangeMigration .. => []
  | .startBarrierArrival .. => []
  | .replicaCompletion .. => []
  | .coreClaim .. => []
  | .taskDispatch .. => []
  | .taskEnd .. => []
  | .tokenBorrow .. => []
  | .arbitrationPeriod .. => []
  | .powerCapTick .. => []
  | .moduleLimiterTick .. => []
  | .thermalLevelTick .. => []
  | .thermalTrip => []
  | .supplyDroop .. => []
  | .deadlockWatchdog .. => []
  | .quiescentPointWatchdog .. => []
  | .drainWatchdog .. => []
  | .podStartTimeout .. => []
  | .sliceEndPreemption .. => []
  | .drainComplete .. => []
  | .hardStop .. => []
  | .migration .. => []
  | .sliceMove .. => []
  | .legacySliceCopy .. => []
  | .dirtyBitmapRead .. => []
  | .queueConfigure .. => []
  | .setBudget .. => []
  | .setPowerCap .. => []
  | .setSlotQuota .. => []
  | .setCisternShare .. => []
  | .bind .. => []
  | .policy .. => []
  | .unbind .. => []
  | .mint .. => []
  | .revoke .. => []
  | .rotate .. => []
  | .streamOpen .. => []
  | .streamClose .. => []
  | .counterBind .. => []
  | .counterRead .. => []
  | .restore .. => []
  | .fuseAdvance .. => []
  | .lifeRead => []
  | .lifetimeSave => []
  | .patrolScrub .. => []
  | .coldReset => []
  | .warmReset => []
  | .powerLoss => []
  | .flr .. => []
  | .tdiError .. => []
  | .frameReceive .. => []
  | .linkOpen .. => []
  | .linkKeyRetire .. => []
  | .collectiveRendezvous .. => []
  | .planeLanding .. => []
  | .collectiveCompletion .. => []
  | .apertureRoundComplete .. => []
  | .storePerformed .. => []
  | .copyTranslationFault .. => []
  | .hostAccess .. => []
  | .partitionCreate .. => []
  | .tdispMessage .. => []
  | .spdmMessage .. => []
  | .contextResume .. => []
  | .sliceMovePage .. => []
  | .linkKeyUpdate .. => []
  | .junctionTemperatureSample .. => []

/-- The instruction is one of a stream: it has an encoding. An operation of another agent has none. -/
def Instr.isStream (i : Instr) : Bool := !(encode i).isEmpty

/-- The kind of register a stepped field names (Table 5-4). -/
inductive StepKind where
  | none   -- no register operand
  | scal   -- s0-s31
  | pred   -- CMP forms: the field steps over 0-31 and names predicate d mod 8
  | row    -- rows 0-63 of the instruction's tile
  deriving DecidableEq, Repr

/-- What the fields d, a and b of a REP target name. -/
structure StepFields where
  d : StepKind
  a : StepKind
  b : StepKind
  deriving DecidableEq, Repr

/-- Rows named by a vector instruction of majors 0x30 to 0x35, by its function (Tables 11-7 to 11-11, R219 to R221). -/
def vectorStepFields (major fn : Nat) : Option StepFields :=
  match major with
  | 0x30 => if fn ≤ 7 then some ⟨.row, .row, .row⟩ else if fn ≤ 13 then some ⟨.row, .row, .none⟩ else none
  | 0x31 => if fn ≤ 11 then some ⟨.row, .row, .row⟩ else none
  | 0x32 =>
    if fn ≤ 3 then some ⟨.none, .row, .row⟩ else if fn = 4 then some ⟨.row, .row, .row⟩
    else if fn ≤ 6 then some ⟨.none, .none, .none⟩ else none
  | 0x33 =>
    if fn = 4 ∨ fn = 5 then some ⟨.row, .row, .row⟩ else if fn ≤ 8 then some ⟨.row, .row, .none⟩ else none
  | 0x34 => if fn = 5 then some ⟨.row, .row, .row⟩ else if fn ≤ 7 then some ⟨.row, .row, .none⟩ else none
  | 0x35 => if fn ≤ 2 then some ⟨.row, .row, .none⟩ else if fn = 3 then some ⟨.row, .none, .none⟩ else none
  | _ => none

/-- The register fields of a short REP target; none where it is not eligible (Table 5-4). -/
def shortStepFields (p : BitVec 16) : Option StepFields :=
  let op := (sfld p 11 5).toNat
  if 0x01 ≤ op ∧ op ≤ 0x06 then some ⟨.scal, .scal, .none⟩
  else if 0x07 ≤ op ∧ op ≤ 0x0A then some ⟨.scal, .none, .none⟩
  else none

/-- The register fields of a long REP target; none where it is not eligible (Table 5-4). The unary ALU
functions and a form with L = 1 have no b operand (R78). -/
def longStepFields (w : BitVec 32) : Option StepFields :=
  if majorOf w = 0x01 then
    let fn := (fld w 2 7).toNat
    let b := if fld w 1 1 = 1 ∨ (0x15 ≤ fn ∧ fn ≤ 0x17) then StepKind.none else .scal
    if fn ≤ 0x1F then some ⟨.scal, .scal, b⟩
    else if fn ≤ 0x25 then some ⟨.pred, .scal, b⟩ else none
  else vectorStepFields (majorOf w) (fld w 0 4).toNat

/-- Replaces `n` bits of a long word from bit `lo` upward. -/
def setFld (w : BitVec 32) (lo n v : Nat) : BitVec 32 :=
  BitVec.ofNat 32 (w.toNat - ((w.toNat / 2 ^ lo) % 2 ^ n) * 2 ^ lo + (v % 2 ^ n) * 2 ^ lo)

/-- The places of fields d, a and b in a long REP target: format LR or LV (Table 5-6). -/
def longStepPlaces (w : BitVec 32) : (Nat × Nat) × (Nat × Nat) × (Nat × Nat) :=
  if majorOf w = 0x01 then ((19, 5), (14, 5), (9, 5)) else ((16, 6), (10, 6), (4, 6))

/-- The number that field `v` steps to in repeat `j` (R77); it may leave the file. -/
def stepNumber (v : Nat) (on : BitVec 1) (x2 rv : BitVec 1) (j : Nat) : Int :=
  let step : Int := if x2 = 1 then 2 else 1
  let step := if rv = 1 then -step else step
  if on = 1 then (v : Int) + (j : Int) * step else v

/-- The first parcel or word of a REP target with its fields stepped to repeat `j` (R77). -/
def stepShort (p : BitVec 16) (sd sa x2 rv : BitVec 1) (j : Nat) : BitVec 16 :=
  let d := stepNumber (sfld p 6 5).toNat sd x2 rv j
  let a := stepNumber (sfld p 0 5).toNat sa x2 rv j
  let p1 := if sd = 1 then (p &&& 0xF83F) ||| (BitVec.ofInt 16 d <<< 6) else p
  if sa = 1 then (p1 &&& 0xFFE0) ||| BitVec.ofInt 16 a else p1

/-- The long REP target with its fields stepped to repeat `j` (R77). -/
def stepLong (w : BitVec 32) (sd sa sb x2 rv : BitVec 1) (j : Nat) : BitVec 32 :=
  let ((dl, dn), (al, an), (bl, bn)) := longStepPlaces w
  let step := fun (w' : BitVec 32) (lo n : Nat) (on : BitVec 1) =>
    if on = 1 then setFld w' lo n (stepNumber (fld w lo n).toNat on x2 rv j).toNat else w'
  step (step (step w dl dn sd) al an sa) bl bn sb

end Sys2Proof
end

