-- ==== Sys2Proof/Machine/State.lean ====
section
/-!
DEFINITION. The state of a module: everything the manual gives the Genil to hold, as plain data. Sparse stores
list only what differs from the value an unlisted key reads as.
-/
namespace Sys2Proof.Machine

/-- STATE of a sequencer status word (Table 1-3). -/
inductive Run where
  | idle | running | waiting | ended | halted
  deriving DecidableEq, Repr

/-- The code of STATE in a status word (Table 1-3). -/
def Run.code : Run → Nat
  | .idle => 0 | .running => 1 | .waiting => 2 | .ended => 3 | .halted => 4

/-- What a sequencer in STATE 2 waits on: the watchdog of R39 tells these apart. -/
inductive WaitKind where
  | token | rill | receive | barrier
  | signal | superstep | engine
  /-- every other wait: HWAIT, HREVK, LAUNCH, SAVE, CWAIT, FENCE, SPL, the ME, louvre counters, the aperture -/
  | other
  deriving DecidableEq, Repr

/-- A wait whose first part has taken place: the instruction has arrived, or has sent its request. -/
inductive WaitMark where
  /-- BARR has arrived at barrier `b` in phase `p` (R131) -/
  | arrived (b : Nat) (p : BitVec 32)
  /-- SSTEP or SSYNC has arrived at step `n` of the launch (R136) -/
  | step (n : Nat)
  /-- ALIGN `k` has issued as the `n`-th (R167) -/
  | align (k n : Nat)
  /-- HREVK waits for sweep `id`, to write `d`, having read the receive queue or not (R144) -/
  | sweep (id d : Nat) (pops : Bool)
  /-- SAVE waits for the commit of its image, to write `d` (R149) -/
  | save (d : Nat)
  /-- the commit that SAVE waited for is over, with what `d` receives -/
  | saved (d : Nat) (v : Word)
  /-- COLLW has sent its cancel (R352) -/
  | cancelled
  /-- APLD waits for round `k` of an aperture word (R344) -/
  | round (key k : Nat)
  deriving DecidableEq, Repr

/-- An entry of a receive queue (R12): reserved by the load `id`, filled once it has a value. -/
structure RqEntry where
  id : Nat
  value : Option Word
  taint : Taint
  deriving DecidableEq, Repr

/-- REP prefix state (R80): the parcel offset of the REP, its parcel, and the repeats done. -/
structure RepState where
  offset : Nat
  parcel : Parcel
  done : Nat
  deriving DecidableEq, Repr

/-- PB prefix state (R84). -/
structure PbState where
  offset : Nat
  sampled : Bool
  pat : BitVec 8
  count : Nat
  passed : Nat
  deriving DecidableEq, Repr

/-- One sequencer (R7, R20, R73, R75, R80, R84, R186). -/
structure SeqState where
  /-- scalar registers s0 to s31 -/
  regs : Vector Word 32
  /-- their taint sets -/
  taint : Vector Taint 32
  /-- the load whose value a register still awaits (R157), and the load that has returned the value it holds (R243) -/
  pending : Vector (Option Nat) 32
  loaded : Vector (Option Nat) 32
  /-- predicates, bit i = pi -/
  preds : BitVec 8
  /-- control taint (R107, R118) -/
  ctlTaint : Taint
  /-- parcel offset of the next issue unit -/
  pc : Nat
  /-- last cause raised -/
  cause : Cause
  /-- STATE -/
  run : Run
  /-- what STATE 2 waits on -/
  waitOn : Option WaitKind
  /-- the wait's first part, where it has one -/
  mark : Option WaitMark
  /-- a cause to be raised at the next instruction boundary (R15, R123, R202, R307) -/
  late : Option Cause
  /-- parcel offset of the current block's HDR, its body length, remaining passes, and whether its body runs -/
  hdr : Nat
  length : Nat
  passes : Nat
  inBody : Bool
  /-- granules of 32 bytes of the current block read since its entry (R75) -/
  granules : Store (BitVec 256)
  rep : Option RepState
  pb : Option PbState
  /-- receive queue, oldest first (ld has none) -/
  rq : List RqEntry
  /-- copy status (Table 9-6) -/
  abnormal : Nat
  firstSeq : BitVec 16
  firstStatus : BitVec 8
  /-- copies issued (R186) -/
  issued : BitVec 32
  /-- restored: the length of its block and the word of its REP are still to be read from the code (R330, log 35) -/
  reread : Bool
  deriving DecidableEq, Repr

/-- A rill whose geometry is set (R13, R14); the free count is `count - fill`. -/
structure Rill where
  base : Nat
  size : Nat
  count : Nat
  cptr : Nat
  pptr : Nat
  fill : Nat
  deriving DecidableEq, Repr

/-- One dimension of a shape slot (R172). -/
structure Dim where
  extent : Word
  sstride : Word
  dstride : Word
  deriving DecidableEq, Repr

/-- A shape slot: control word (Table 9-3) and ten dimensions (R172). -/
structure Shape where
  ctl : Word
  dims : Vector Dim 10
  deriving DecidableEq, Repr

/-- Element types of a tile (Table 11-1). -/
inductive TileType where
  | fp32 | int32 | bf16 | fp16 | int8
  deriving DecidableEq, Repr

/-- One byte of storage, wherever it lies. -/
inductive Loc where
  /-- device-physical HBM byte (R5) -/
  | hbm (a : Nat)
  /-- byte of host memory, at a host bus address (R278) -/
  | host (a : Nat)
  /-- byte of the shared file store (Table 17-4, PERSIST) -/
  | file (a : Nat)
  /-- byte of the memory of module `rank` (R340) -/
  | peer (rank a : Nat)
  /-- byte of the window of a core (R18) -/
  | win (core off : Nat)
  /-- a page with D = 1: reads as zero (R281) -/
  | discarded
  deriving DecidableEq, Repr

/-- Where a load returns its value. -/
inductive LoadDest where
  | none
  | reg (d : Nat)
  | queue (q : Sq)
  deriving DecidableEq, Repr

/-- An issued load that has not performed (R233, R237, R240). -/
structure LoadReq where
  id : Nat
  sq : Sq
  locs : List Loc
  dest : LoadDest
  /-- a remote load carries a taint tag (R237) -/
  tag : Option Nat
  /-- the value once it is read -/
  value : Option Word
  /-- the value has been returned -/
  delivered : Bool
  /-- the load has performed (R240) -/
  performed : Bool
  /-- its value is the old value of an atomic, which the atomic brings (R162) -/
  atomic : Bool
  /-- loads that perform first (R239) -/
  deps : List Nat
  /-- the load is an acquire at a scope (R157) -/
  acquire : Option Nat
  /-- acquires of its sequencer whose value is read first (R157) -/
  acqs : List Nat
  /-- the time up to which writes are ordered before it, and the time at which it has read (R230, R232) -/
  floor : Nat
  readAt : Nat
  /-- a TCLR has cleared it from a control taint before it has performed: its value may still change (R243) -/
  loose : Bool
  deriving DecidableEq, Repr

/-- The atomic operations (Table 9-2); `addSigned` is that of SIGADD. -/
inductive AtomOp where
  | add | and | or | xor | min | max | minu | maxu | swap | cas
  deriving DecidableEq, Repr

/-- What a queued store does when it performs. -/
inductive StoreKind where
  /-- writes bytes; ord 0, 2 or 3 (R158) -/
  | plain (data : List Byte)
  | combining (data : List Byte)
  | streaming (data : List Byte)
  /-- a release at a scope -/
  | release (scope : Nat) (data : List Byte)
  /-- an atomic with its operands, returning the old value through the load `ret` where one was made (R162) -/
  | atomic (op : AtomOp) (x y : Word) (ret : Option Nat)
  /-- the addition of SIGADD (R165) -/
  | signal (x : Word)
  deriving DecidableEq, Repr

/-- An issued store, atomic or signal addition that has not performed (R158, R233). -/
structure StoreReq where
  id : Nat
  sq : Sq
  locs : List Loc
  kind : StoreKind
  /-- loads that perform first (R239) -/
  deps : List Nat
  deriving DecidableEq, Repr

/-- The copies (Table 9-5). -/
inductive CopyMode where
  | cpy | cpyin | cpyout | cpyz | cpycv | gather | scatter
  deriving DecidableEq, Repr

/-- A copy in flight (R174, R328). -/
structure Copy where
  id : Nat
  sq : Sq
  /-- issue number of the sequencer, as CSTAT counts it -/
  issue : BitVec 32
  mode : CopyMode
  word : BitVec 32
  lit : BitVec 32
  /-- the handles as captured at issue -/
  dst : BitVec 256
  src : BitVec 256
  soff : Nat
  doff : Nat
  /-- the operand s[a + 1] or s[a] that holds a stream or an index array -/
  extra : Word
  shape : Shape
  /-- next element -/
  next : Nat
  /-- status of an abnormal end, once decided -/
  status : BitVec 8
  /-- accesses that are ordered before it -/
  loadDeps : List Nat
  storeDeps : List Nat
  /-- it has touched memory (R185) -/
  touched : Bool
  /-- places that a CPYIN has written and not yet verified (R181) -/
  unverified : List Loc
  /-- bytes of elements done that are not yet visible, oldest first, with the 32-byte granule of the destination (R176, R250) -/
  staged : List (Int × Loc × Byte)
  /-- bytes of lines and rows with an error that it has written: it mends one once it has written the whole of it (R374) -/
  patched : List Loc
  /-- its writes have performed and only its rill advance is held (R15) -/
  landed : Bool
  /-- the fault that halts it -/
  fault : Option Nat
  /-- it is ahead of an invalidation's marker and uses the old mapping: that of the tables since the time of the last invalidation
  that had reached its core before its issue (R252) -/
  oldMap : Bool
  mapTime : Nat
  deriving DecidableEq, Repr

/-- An operation of the matrix engine (R195, R198). -/
structure MeOp where
  regs : Vector Word 36
  rowMask : Option Word
  colMask : Option Word
  ah : BitVec 256
  bh : BitVec 256
  fmtA : Nat
  fmtB : Nat
  /-- row-steps committed (RPROG) -/
  prog : Nat
  /-- rows of C already written by this operation -/
  written : List Nat
  /-- what those rows held before each of its row-steps, oldest first: a read may find any of it (R204); and the row-steps of
  which each element of a row has shown at least so many: ex finds no fewer later (R230, R236) -/
  earlier : Store (List (BitVec 2048))
  found : Store (List Nat)
  loadDeps : List Nat
  storeDeps : List Nat
  /-- number of a broadcast operation among those of its member set (R201) -/
  bcast : Option Nat
  /-- its rendezvous has taken place -/
  met : Bool
  /-- it was restored: it had met, and forms the rendezvous again (R206) -/
  again : Bool
  /-- the fault that halts it, and its cause -/
  fault : Option (Nat × Cause)
  deriving DecidableEq, Repr

/-- A weight block in a weight buffer (R199): its handle, its offset, its format and the bytes of a column, and what
was read, its elements and its headers; nothing while it is being read (R210). -/
structure WeightBlock where
  handle : BitVec 256
  offset : Int
  fmt : Nat
  colBytes : Nat
  bytes : List Byte
  headers : List Byte
  /-- accesses that the read of a preload follows (R203, R210) -/
  loadDeps : List Nat
  storeDeps : List Nat
  deriving DecidableEq, Repr

/-- The matrix engine (R195, R196, R199, R210). -/
structure Me where
  shadow : Vector Word 36
  shadowTaint : Vector Taint 36
  pendingOp : Option MeOp
  active : Option MeOp
  /-- the buffer that serves row-steps -/
  latched : Option WeightBlock
  /-- the other buffer -/
  ahead : Option WeightBlock
  /-- the WLD preloads, oldest first, each in a buffer, that the next MXGO may use, and the one that the pending operation has
  taken (R210) -/
  preloads : List WeightBlock
  taken : Option WeightBlock
  /-- broadcast operations issued, by member set -/
  bcasts : Store Nat
  deriving DecidableEq, Repr

/-- A collective of a core (R348 to R359). -/
structure Coll where
  /-- place in issue order -/
  order : Nat
  channel : Nat
  fmt : Nat
  src : BitVec 256
  dst : BitVec 256
  soff : Nat
  doff : Nat
  extents : List Nat
  l1 : Word
  l2 : Word
  louvre : Bool
  exchange : Bool
  lit : BitVec 32
  /-- no COLLW has read its status: the id is taken (R349) -/
  held : Bool
  /-- the rendezvous has taken place and slots are granted -/
  started : Bool
  /-- the number of the COLL on its channel, among those of its process group on this module (R350) -/
  nth : Nat
  /-- 4 KiB chunks of it in its partition's cistern share, oldest first, and how many have passed through (R341); the cause with
  which one of those in the share fails: it was tampered with (R315), or holds an error beyond correction (R373) -/
  chunks : List (List Byte)
  passed : Nat
  /-- what has left in the chunks of its first step, and what has come in those of its last (R341) -/
  gone : List Byte
  come : List Byte
  spoiled : Option Cause
  /-- a slot drawn for it: whether from the quota (R350) -/
  drawn : Option Bool
  /-- the context's held slot that it uses -/
  slot : Option Nat
  /-- status word of Table 19-3 once it has ended -/
  ended : Option (BitVec 9)
  /-- a cancel has been sent -/
  cancelling : Bool
  /-- precision counters of its louvre tiles (R355) -/
  counters : List Nat
  /-- cuts of the tiles (R357); 15 where none -/
  cuts : List Nat
  /-- tiles whose result is formed: their bytes as they land (R359) -/
  formed : Store (List Byte)
  loadDeps : List Nat
  storeDeps : List Nat
  fault : Option Nat
  deriving DecidableEq, Repr

/-- A mint request under a tag (R138, R139). -/
structure MintReq where
  /-- requests of one ctl are answered in issue order (R304) -/
  order : Nat
  base : Word
  len : Word
  ask : Word
  answer : Option (Nat × BitVec 256)
  deriving DecidableEq, Repr

/-- The declarations of a kernel header (R25, R26). -/
structure Decl where
  scalars : Quad Nat
  tiles : Nat
  rills : Nat
  handles : Nat
  barriers : BitVec 32
  scratch : Nat
  codeLen : Nat
  sstep : Bool
  deriving DecidableEq, Repr

/-- The place of a record in its process group (R37, Table 7-11). -/
structure Group where
  rank : Nat
  size : Nat
  gen : BitVec 32
  axes : List Nat
  neighbours : List Nat
  deriving DecidableEq, Repr

/-- The task a core runs (R20 core word, R27, R28, Table 7-11). -/
structure Task where
  tenant : Nat
  ctx : Nat
  part : Nat
  tdi : Nat
  queue : Nat
  /-- ring index of its record -/
  ring : Nat
  number : BitVec 32
  gang : Nat
  member : Nat
  gangSize : Nat
  indices : List (BitVec 32)
  prio : Nat
  decl : Decl
  code : BitVec 256
  /-- argument handles named in the record -/
  args : List (BitVec 256)
  /-- the signal handle and area captured at the record's start (R258) -/
  sigHandle : BitVec 256
  area : Nat
  group : Group
  /-- the superstep launch it belongs to -/
  launch : Option Nat
  /-- restored without its launch record: the code length and the superstep flag are still to be read from its kernel header (R330,
  log 35) -/
  unread : Bool := false
  deriving DecidableEq, Repr

/-- A pending invalidation of translations (R252 to R254): the sequencers that have passed a QPT since it arrived, whether ctl has
sent the acknowledgement, the cycle of its arrival, and the time from which the tables give the new mapping. -/
structure Inval where
  part : Nat
  passed : Quad Bool
  acked : Bool
  since : Nat
  time : Nat
  deriving DecidableEq, Repr

/-- What a core held at the end of the previous cycle, for the instructions that read it as it then stood (R8, R124, R128,
R208). -/
structure Was where
  tokens : Vector Nat 12
  rills : Vector (Option Rill) 16
  handles : Vector (BitVec 256) 32
  /-- the MXPROG status word -/
  mx : Word
  deriving DecidableEq, Repr

/-- What a sequencer must observe to join a write (R164, R248): the landing of a copy in flight, a completion object by the
high byte of its literal, a status read by COLLW, or, once the collective has ended, either of the two, a FENCE. A write of a
collective names the collective by its place in issue order, and the part of its result: 32 times the louvre tile, and in it 0 for
the header group and k for plane k (R357). -/
inductive Awaited where
  | flight (id : Nat)
  | object (code : Nat)
  | coll (order part : Nat)
  | landed (order part code : Nat)
  | fence
  deriving DecidableEq, Repr

/-- A byte that was overwritten (R230): the time of the write, what it replaced, and the agents on whose behalf it was made,
its writer first and then those of the writes that an unbroken chain of read-modify-writes leads back to (R245). A write is
ordered before what follows in a scope from a time on, once an edge of R231 leads from it to an access of another agent;
until then a load may miss it, and the time up to which one has is kept. A sequencer joins a write by what it awaits. -/
structure Past where
  time : Nat
  loc : Loc
  old : Byte
  agents : List Nat
  /-- scopes (Table 13-1) in which it is ordered before what follows, each with the time from which -/
  shown : List (Nat × Nat)
  /-- one past the latest time at which a load has missed it -/
  missed : Nat
  awaits : Option Awaited
  joined : Quad Bool
  deriving DecidableEq, Repr

/-- One core (Table 1-1). -/
structure Core where
  seqs : Quad SeqState
  handles : Vector (BitVec 256) 32
  /-- vector rows v0 to v255; an unlisted row is zero -/
  rows : Store (BitVec 2048)
  /-- taint sets of rows; an unlisted set is empty -/
  rowTaint : Store Taint
  tileType : Vector TileType 4
  vm : BitVec 256
  kmask : Vector Word 8
  fpmode : BitVec 2
  fpflags : BitVec 5
  layouts : Vector Word 8
  shapes : Vector Shape 16
  rills : Vector (Option Rill) 16
  tokens : Vector Nat 12
  ccnt : BitVec 32
  /-- scratchpad bytes by offset; an unlisted byte is zero -/
  scratch : Store Byte
  /-- scrub watermark: the first row the zero walk has not reached (R319) -/
  watermark : Nat
  /-- rows above the watermark that a write has marked scrubbed -/
  scrubbed : List Nat
  /-- bank mark of a rotation, a row; none past the end (R146, R312) -/
  bankMark : Option Nat
  me : Me
  copies : List Copy
  loads : List LoadReq
  stores : List StoreReq
  /-- tags in use with the loads that each stands for (R237, R241) -/
  tags : Store (List Nat)
  /-- ALIGN k issued by ld and by st (R167) -/
  alignLd : Vector Nat 16
  alignSt : Vector Nat 16
  mints : Store MintReq
  colls : Store Coll
  /-- invalidations that it has not acknowledged, oldest first, and the time of the last that has reached it (R252, R254) -/
  invals : List Inval
  mapped : Nat
  task : Option Task
  lastTenant : Option Nat
  /-- claimed for a PROTECTED task of (queue key, ring index) (R24) -/
  claim : Option (Nat × Nat)
  /-- next identifier of a load, store or copy -/
  nextId : Nat
  /-- cycle of the last progress, for the watchdog of R39 -/
  lastActive : Nat
  was : Was
  /-- cycle and place in it of the core's last move: ld, ex, st, ctl, then engines and completions (R7, R16, R173) -/
  moved : Option (Nat × Nat)
  /-- the time up to which writes are ordered before every later load of ld, and the times as of which ld has read bytes
  (R230, R232) -/
  floor : Nat
  seen : List (Loc × Nat)
  /-- the time up to which accesses of the other sequencers are handed on to ld with a token or an advance, and the bytes that are,
  each with a time (R235) -/
  handed : Nat
  given : List (Loc × Nat)
  /-- what a token or an advance of st hands on (R235): the time up to which a FENCE covers what st has done, and the bytes that a
  spill or a fill of st has accessed, each with a time; and the time of its latest atomic that has returned a value -/
  fenced : Nat
  spilt : List (Loc × Nat)
  fetched : Nat
  /-- the time of its restoring: ld reads nothing older (R230) -/
  base : Nat
  /-- tags that have become free in this cycle (R240) -/
  freed : List Nat
  deriving DecidableEq, Repr

/-- A hard-stopped task, which waits to be restored and stays a party of its gang and its launch (log 36): which of its
sequencers have ended, the mappings of the copies recorded (R252) with what they had written of lines and rows with an error
(R374), and its matrix engine's broadcast operations. -/
structure Parked where
  task : Task
  ended : Quad Bool
  maps : List (Bool × Nat × List Loc)
  me : Me
  deriving DecidableEq, Repr

/-- A party of a barrier: a sequencer of a core (R32). -/
structure Party where
  core : Nat
  sq : Sq
  deriving DecidableEq, Repr

/-- A barrier of a gang (R32). -/
structure Barrier where
  phase : BitVec 32
  members : List Party
  joins : List Party
  leaves : List Party
  arrived : List Party
  deriving DecidableEq, Repr

/-- A gang (R30): its cores, and its barriers; an unlisted barrier is empty in phase 0. -/
structure Gang where
  cores : List Nat
  barriers : Store Barrier
  /-- rendezvous that an abort has broken: member set and number (R209) -/
  broken : List (Nat × Nat)
  /-- the barriers at the end of the previous cycle (R133) -/
  was : Store Barrier
  deriving DecidableEq, Repr

/-- A superstep launch (R34): its cores, the steps completed, and who has arrived at the next. -/
structure Launch where
  cores : List Nat
  steps : Nat
  arrived : List Party
  deriving DecidableEq, Repr

/-- How far a record has come (R260 to R265). -/
inductive RecPhase where
  | appended | waitList | migration | startBarrier | running | complete
  deriving DecidableEq, Repr

/-- A launch record in a queue (R23, R265, R267). -/
structure Record where
  ring : Nat
  bits : BitVec 2048
  phase : RecPhase
  status : BitVec 8
  cause : Cause
  task : BitVec 32
  decl : Option Decl
  /-- entry offsets of ld, ex, st, ctl, and the gang size (R25) -/
  entries : Quad Nat
  gangSize : Nat
  /-- the tasks of this module: the next to dispatch and one past the last -/
  nextTask : Nat
  endTask : Nat
  /-- tasks dispatched that have not ended -/
  live : Nat
  /-- it could not be read, so that its status-word offset is unknown (R260) -/
  silent : Bool
  /-- the first fault of a task, and whether a named handle was revoked (R267) -/
  faulted : Option (Cause × BitVec 32)
  revoked : Bool
  sigHandle : BitVec 256
  area : Nat
  /-- context and partition of its queue as it started: for whom its status word and decrement are written (R258) -/
  sigCtx : Nat
  sigPart : Nat
  /-- the cause with which an earlier write of its status word was lost: QBAD takes it with the final status (R265) -/
  lost : Option Cause
  group : Group
  /-- whole periods waited with a task undispatched (R274) -/
  periods : Nat
  /-- cycle since which it waits, for its start barrier or with a task undispatched -/
  since : Nat
  /-- preferred die (R275) -/
  die : Option Nat
  /-- POD: arrivals at the start barrier by rank, and completions by rank -/
  arrivals : List Nat
  replicas : List (Nat × BitVec 64)
  deriving DecidableEq, Repr

/-- A launch queue (R258, R259). -/
structure Queue where
  ctx : Nat
  part : Nat
  tdi : Nat
  ringBase : Nat
  ringLog : Nat
  sigHandle : BitVec 256
  area : Nat
  tail : BitVec 32
  head : BitVec 32
  error : Bool
  ovf : Bool
  energy : Nat
  bad : Word
  resetPending : Bool
  records : List Record
  deriving DecidableEq, Repr

/-- TDISP states of a TDI (R321). -/
inductive TdiState where
  | unlocked | locked | run | error
  deriving DecidableEq, Repr

/-- A TDI with its fault ring (R284, R285, R321). -/
structure Tdi where
  state : TdiState
  /-- its IDE selective stream is established (R321) -/
  stream : Bool
  frbase : Word
  frsize : Nat
  frprod : BitVec 32
  frcons : BitVec 32
  deriving DecidableEq, Repr

/-- The unit that a restartable fault halts (Table 15-8), or the record whose candidate read met it (R261). -/
inductive FaultUnit where
  | seq (core : Nat) (sq : Sq)
  | copy (core id : Nat)
  | me (core : Nat)
  | coll (core id : Nat)
  | candidate (queue ring : Nat)
  deriving DecidableEq, Repr

/-- What is known of a translation fault (R279). -/
structure FaultInfo where
  cause : Cause
  /-- underlying first-stage cause where the cause is 0x48 -/
  under : Cause
  /-- virtual address, and the guest-physical address of a second-stage fault -/
  va : Nat
  gpa : Nat
  write : Bool
  code : Bool
  deriving DecidableEq, Repr

/-- An outstanding restartable fault (R283 to R286); `held` while it waits in FSTAT, `beyond` while FSTAT has no place for
it and its unit is to raise it afresh (R285). -/
structure FaultRec where
  id : Nat
  unit : FaultUnit
  info : FaultInfo
  tdi : Nat
  held : Bool
  beyond : Bool
  deriving DecidableEq, Repr

/-- A context (R278, R288, R331, R342, R344). -/
structure Context where
  tenant : Nat
  part : Nat
  tdi : Nat
  root : Nat
  /-- a slice-end drain is pending or complete, since a cycle, and whether it was escalated (R288) -/
  draining : Option (Nat × Bool)
  drained : Bool
  /-- live set of session counters (R331) -/
  live : List Nat
  /-- reduction slots held: type, whether drawn from the quota, and the core whose task reserved it (R342) -/
  slots : List (Nat × Bool × Nat)
  deriving DecidableEq, Repr

/-- A word of the reduction aperture (R344): contributions of this module, results of completed rounds, the loads that
each core has issued, the cores that have issued an APST or an APLD, and the rounds that all the other modules have loaded. -/
structure ApWord where
  puts : List Word
  results : List Word
  loads : Store Nat
  writers : List Nat
  peersLoaded : Nat
  deriving DecidableEq, Repr

/-- Token accounting of a tenant in a partition (R272). -/
structure Account where
  budget : Nat
  balance : Int
  debt : Nat
  borrowed : Nat
  /-- queue served last (R274) -/
  lastQueue : Nat
  deriving DecidableEq, Repr

/-- A slice on its way to another (R295): pages below `next` are New, page `next` may be Copying. -/
structure SliceMoving where
  slice : Nat
  target : Nat
  next : Nat
  copying : Bool
  deriving DecidableEq, Repr

/-- A partition (R339, R272, R276, R278, R293, R295, R341, R380). -/
structure Partition where
  clusters : List Nat
  slices : List Nat
  ports : List Nat
  root : Nat
  modules : List Nat
  rank : Nat
  cap : Nat
  level : Nat
  /-- cistern share of each stack in units of 64 MiB -/
  cistern : List Nat
  /-- bounds in microseconds (R36, R254, R288) -/
  startTimeout : Nat
  drainBound : Nat
  quiescentBound : Nat
  /-- invalidations that each core has acknowledged, and those completed, which every core has (R254) -/
  acked : Store Nat
  invalsDone : Nat
  /-- the time of its creation: no mapping is older (R252) -/
  mapped : Nat
  /-- dirty bitmap: the dirty 64 KiB pages, by device-physical page number -/
  dirty : List Nat
  moving : List SliceMoving
  /-- slices whose accesses go to another physical slice (R295, R296) -/
  sliceMap : Store Nat
  accounts : Store Account
  /-- tenant served last, and cycle of the last period boundary (R272, R274) -/
  lastTenant : Nat
  period : Nat
  /-- link-key generations: newest, and whether the older is still held (R361) -/
  linkGen : Nat
  linkOlder : Bool
  /-- ports updated to the newest generation -/
  linkUpdated : List Nat
  /-- link keys, by generation × 16 + port (R310) -/
  linkKeys : Store (BitVec 256)
  deriving DecidableEq, Repr

/-- The keys of a slot's generation beside its image root (Table 17-5): the HBM data pair, the HBM tag key and the bank root. -/
structure SlotKeys where
  data1 : BitVec 256
  data2 : BitVec 256
  tag : BitVec 256
  bankRoot : BitVec 256
  deriving DecidableEq, Repr

/-- A tenant that is bound to a key slot (R299, R303 to R306, R311, R312). -/
structure Tenant where
  slot : Nat
  owner : BitVec 384
  policy : TenantPolicy
  epoch : BitVec 8
  sealKey : BitVec 256
  nextSerial : Nat
  revoked : List Nat
  /-- newest generation, whether the older is still held, and the image roots of the generations -/
  gen : Nat
  older : Bool
  rotating : Bool
  imageRoots : Store (BitVec 256)
  /-- the other keys of the generations held -/
  keys : Store SlotKeys
  /-- images sealed under each image key, by context × 2^32 + generation (R329) -/
  seals : Store Nat
  /-- progress of the slice walkers: the first page not yet done; past the end where unlisted (R312) -/
  marks : Store Nat
  deriving DecidableEq, Repr

/-- A revocation sweep (R307): the steps taken and the counts it reports. -/
structure Sweep where
  tenant : Nat
  serial : Nat
  all : Bool
  /-- asked for by REVOKE, whose requester is answered at its end; otherwise a ctl waits for it -/
  external : Bool
  /-- the session over which REVOKE asked for it (R299) -/
  session : Option Nat
  stage : Nat
  regs : Nat
  copies : Nat
  /-- refused by policy or a full list -/
  refused : Bool
  done : Bool
  deriving DecidableEq, Repr

/-- An import or export stream (R322). -/
structure Stream where
  tenant : Nat
  outward : Bool
  key : BitVec 256
  last : Nat
  deriving DecidableEq, Repr

/-- The commit record of a persistent counter (R333); the root stands wrapped under the persistence root. -/
structure CommitRecord where
  tenant : Nat
  owner : BitVec 384
  gen : Nat
  root : BitVec 256
  deriving DecidableEq, Repr

/-- A persistent counter (R333). -/
structure Counter where
  value : Nat
  commits : Nat
  /-- (tenant, context, task number) -/
  bound : Option (Nat × Nat × Nat)
  /-- bound by the MC for a page-out, freed by the restore -/
  paged : Bool
  record : Option CommitRecord
  deriving DecidableEq, Repr

/-- A persistent image that was written and awaits its read-back and commit (R334), with what its commit record will
hold. -/
structure Commit where
  counter : Nat
  /-- the core whose SAVE waits for it; none where a hard stop made it or the task has ended -/
  core : Option Nat
  handle : BitVec 256
  tenant : Nat
  ctx : Nat
  gen : Nat
  /-- the counter value that the image bears: the one that is to be committed -/
  value : Nat
  image : List Byte
  deriving DecidableEq, Repr

/-- A fuse counter: the blown fuses of its 128 pairs (R335). -/
structure Fuse where
  a : BitVec 128
  b : BitVec 128
  deriving DecidableEq, Repr

/-- Owner record of a 64 KiB HBM page (R311, R320). -/
structure Owner where
  slot : Option Nat
  /-- generation bit: the newer of two held generations -/
  newer : Bool
  scrub : Bool
  deriving DecidableEq, Repr

/-- A translation held by a die TLB (R279): of a context, from a virtual to a device address. -/
structure TlbEntry where
  ctx : Nat
  va : Nat
  size : Nat
  pa : Nat
  r : Bool
  w : Bool
  x : Bool
  d : Bool
  deriving DecidableEq, Repr

/-- A compute die (R278, R368, R370). -/
structure Die where
  qt : Nat
  droopUntil : Nat
  tlb : List TlbEntry
  deriving DecidableEq, Repr

/-- An SPDM session with the TC through a TDI (R299): the driver's, or that of the verifier whose owner identity it has
presented. -/
structure Session where
  tdi : Nat
  owner : Option (BitVec 384)
  /-- the AES-256-GCM key that its key exchange has given (R323) -/
  key : BitVec 256
  /-- messages that the TC has received over it and sent over it: the sequence numbers of its IVs -/
  heard : Nat
  sent : Nat
  deriving DecidableEq, Repr

/-- A firmware image that is loaded, with its security version (R335). -/
structure Firmware where
  version : Nat
  image : List Byte
  deriving DecidableEq, Repr

/-- A Eutor port (R324, R337): the next sequence number of its sender. -/
structure Link where
  peer : Option (BitVec 384 × Nat)
  sent : Nat
  /-- frames that failed their tag in a row (R338) -/
  fails : Nat
  deriving DecidableEq, Repr

/-- The lifetime record (Table 21-5) without its digest; the throttle times are held in units of 10 µs. -/
structure Lifetime where
  saveSeq : Nat
  seconds : Nat
  fuses : List Nat
  coldResets : Nat
  trips : Nat
  temps : List Nat
  droops : List Nat
  power : List Nat
  thermal : List Nat
  retrains : List Nat
  hbmCorrected : List Nat
  hbmUncorrectable : List Nat
  replays : Store Nat
  corrections : Store Nat
  checks : List Nat
  deriving DecidableEq, Repr

/-- What a unit of the module reports to the outside (R288 to R292, R299, R323, R376). -/
inductive Reply where
  /-- a TC request was answered with a status -/
  | status (n : Nat)
  | minted (status : Nat) (h : BitVec 256)
  | revoked (status : Nat) (regs copies : Nat)
  | rotated (status : Nat) (value : Word)
  | counter (status value : Nat)
  /-- pre-emption of a context: cause, and a session counter removed from the live set -/
  | preempted (ctx : Nat) (cause : Cause) (removed : Option Nat)
  /-- a hard-stopped task: the code for the requester, whether its image is valid, and the image -/
  | image (core : Nat) (cause : Cause) (valid : Bool) (bytes : List Byte)
  | restored (status : Nat) (refusal : Cause)
  /-- the result of a commit for which no SAVE waits: the counter, and its new value or none where it failed (R334) -/
  | committed (idx : Nat) (result : Option Nat)
  | dirty (w : Word)
  | life (bytes : List Byte)
  | measurement (bytes : List Byte)
  /-- what is signed by the identity key: a measurement, or the TC's share of a key exchange (R323) -/
  | signed (bytes signature : List Byte)
  /-- a partition was sent to another module: its last dirty pages, its queues with their records, and its tenants'
  accounts; the images are reported as they are sealed (Table 15-11) -/
  | migrated (part : Nat) (pages : List Nat) (queues : List (Nat × Queue)) (accounts : List (Nat × Account))
  /-- bytes that the host read -/
  | read (bytes : List Byte)
  /-- a frame left through a port -/
  | frame (port : Nat) (f : Frame) (tag : List Byte)
  deriving DecidableEq, Repr

/-- What reaches the arrays and links from outside the program: bit errors that are corrected or not (R373, Table 21-4),
and tampering with stored ciphertext (R315). -/
inductive Strike where
  /-- a scratchpad row of a core: corrected, beyond correction, or with a tag that no longer matches -/
  | rowCorrected (core : Nat)
  | rowLost (core row : Nat)
  | rowTampered (core row : Nat)
  /-- an HBM line, by its address over 64 -/
  | lineCorrected (line : Nat)
  | lineLost (line : Nat)
  | lineTampered (line : Nat)
  /-- ciphertext is written into a line, with a tag: another's, or an earlier one of its own (R315, R317) -/
  | lineWritten (line : Nat) (cipher : List Byte) (tag : List Byte)
  /-- a staging chunk of a collective, in a stack's cistern (R315, R341, R373) -/
  | chunkTampered (core id : Nat)
  | chunkWritten (core id line : Nat) (cipher : List Byte) (tag : List Byte)
  | chunkLost (core id stack : Nat)
  /-- a register file of a core: a replay that corrects, and one that reads an error again -/
  | replayed (core : Nat)
  | registerLost (core : Nat) (q : Sq)
  /-- a die-to-die or interposer link: retries that succeed, and, of one that an access of a sequencer uses, a failure after the
  last retry -/
  | linkRetried (link : Nat)
  | linkLost (core : Nat) (q : Sq)
  deriving DecidableEq, Repr, Inhabited

/-- What other modules, the host's side and the MC's channel bring about, where no operation of the opcode table stands for it. -/
inductive Outside where
  /-- the memory of a peer module changes (R340, R365) -/
  | peerStore (rank addr : Nat) (data : List Byte)
  /-- a peer module writes this module's memory through a context (R293, R340) -/
  | peerWrite (ctx va : Nat) (data : List Byte)
  /-- every other module has loaded one more round of a word of the aperture (R344) -/
  | peersLoaded (ctx slot word : Nat)
  /-- a member has cancelled a collective of a process group before this module has issued its COLL (R350) -/
  | peerCancel (group channel nth : Nat)
  /-- the links that are closed at peer modules, by rank and plane (R324, R339) -/
  | peerLinks (down : List (Nat × Nat))
  /-- a partition that this module has no part in draws n slots on each of some planes, or frees them (R343, R380) -/
  | poolDrawn (part n : Nat) (planes : List Nat)
  | poolFreed (n : Nat) (planes : List Nat)
  /-- an SPDM session is set up with the TC through a TDI, by the requester's certificate, where it presents one, and its share of
  the key exchange; or it ends (R299, R323) -/
  | sessionOpen (id tdi : Nat) (cert : Option (List Byte)) (x y : Nat)
  | sessionClose (id : Nat)
  /-- the IDE stream of a TDI is established (R321) -/
  | ideStream (tdi : Nat)
  /-- a migrating partition sends a page of its slices to this module, and at its end the items of Table 15-11 (R294) -/
  | migratedPage (part idx : Nat) (data : List Byte)
  | migrated (part : Nat) (queues : List (Nat × Queue)) (accounts : List (Nat × Account)) (ctxs : List (Nat × Context))
  /-- the fabric has a payload for a port of a partition, whose sender sends it in a frame (R337) -/
  | payload (part port : Nat) (data : List Byte)
  deriving DecidableEq, Repr, Inhabited

/-- One move of the module: a sequencer issues, an operation of another agent takes place, or a running copy
gets further. The order of moves is open (R379), and so is what the outside world does. -/
inductive Move where
  /-- sequencer `q` of core `c` issues its next unit -/
  | issue (c : Nat) (q : Sq)
  /-- an operation of the second part of the opcode table takes place -/
  | op (i : Instr)
  /-- copy `id` of core `c` transfers `n` more elements (R176: its writes become visible before it is joined) -/
  | copy (c id n : Nat)
  /-- a soft error or a tampering takes place -/
  | strike (x : Strike)
  /-- a staging chunk of a collective enters its partition's cistern share, one that is received with the bytes that the fabric
  brings, or leaves the share (R341) -/
  | chunk (core id : Nat) (enters : Bool) (data : List Byte)
  /-- a secured message reaches the TC over an SPDM session, with a request for its content (R299, R323) -/
  | sealed (id : Nat) (cipher tag : List Byte) (i : Instr)
  /-- something comes from outside -/
  | outside (x : Outside)
  deriving DecidableEq, Repr, Inhabited

/-- A move and the number of cycles that pass before it (R2, R379). -/
structure Turn where
  cycles : Nat
  move : Move
  deriving DecidableEq, Repr, Inhabited

end Sys2Proof.Machine

namespace Sys2Proof.Config

/-- Free value: which agent moves next, and when (R379). -/
opaque chooseTurn : Nat → Sys2Proof.Machine.Turn
/-- The vendor-defined messages that carry a request to the TC and an answer of it, whose format the manual does not give (R299). -/
opaque requestText : Sys2Proof.Instr → List (BitVec 8)
opaque replyText : Sys2Proof.Machine.Reply → List (BitVec 8)

end Sys2Proof.Config

namespace Sys2Proof.Machine

/-- Slots drawn from the planes' pool in a cycle (R343): by a core of a partition, for a collective, or by a reservation of `count`
slots of a context from number `first` on, whose answer went to a register; or, of a partition of other modules alone, `count` slots on
each of some planes. -/
structure SlotDraw where
  cycle : Nat
  part : Nat
  core : Nat
  coll : Option Nat
  ctx : Nat
  first : Nat
  count : Nat
  reg : Nat
  planes : List Nat
  deriving DecidableEq, Repr

/-- A write of a service unit that waits for a page that is being copied (R295): the agent, the partition for which it is made, the
handle whose check it has passed, the places, and the bytes; none is the decrement of a signal. -/
structure Delayed where
  actor : Nat
  part : Nat
  handle : BitVec 256
  locs : List Loc
  data : Option (List Byte)
  deriving DecidableEq, Repr

/-- The whole module. -/
structure State where
  /-- cores; an unlisted core is `Core.reset` -/
  cores : Store Core
  /-- hard-stopped tasks, by a number past the last core -/
  parked : Store Parked
  gangs : Store Gang
  launches : Store Launch
  /-- launch queues by 64 × tenant + number (R258) -/
  queues : Store Queue
  tdis : Store Tdi
  faults : List FaultRec
  nextFault : Nat
  ctxs : Store Context
  parts : Store Partition
  /-- current tenant of each cluster that has one (R22) -/
  clusterTenant : Store Nat
  dies : Vector Die 4
  tenants : Store Tenant
  sweeps : Store Sweep
  streams : Store Stream
  counters : Store Counter
  fuses : Vector Fuse 4
  commits : List Commit
  hbm : Store Byte
  host : Store Byte
  file : Store Byte
  /-- memory of peer modules, by rank × 2^50 + address -/
  peer : Store Byte
  /-- owner records of HBM pages; an unlisted page has none and is unscrubbed -/
  pages : Store Owner
  /-- poisoned HBM lines, HBM lines and scratchpad rows (core × 16384 + row) whose tag does not match -/
  poison : List Nat
  badLines : List Nat
  badRows : List Nat
  /-- scratchpad rows that hold an error beyond correction (R373) -/
  lostRows : List Nat
  links : Vector Link 16
  /-- the links that are closed at peer modules, by rank and plane, as the outside world has it (R324, R339) -/
  peersDown : List (Nat × Nat)
  /-- slot quotas of all partitions (R380), slots that others have drawn from each plane's pool, the partition at which the
  round-robin pointers of the planes stand, the cycle and partition of the last draw, and the draws of that cycle (R343) -/
  quotas : Store Nat
  poolDrawn : Vector Nat 16
  planePtr : Nat
  slotTurn : Option (Nat × Nat)
  slotDraws : List SlotDraw
  /-- COLLs issued on each channel of a process group, and those that a member cancelled before (R350), by the group's queue
  and ring index and the channel -/
  collCounts : Store Nat
  collGone : List (Nat × Nat)
  /-- words of the reduction aperture, by (64 × context + slot) × 8192 + word -/
  aperture : Store ApWord
  lifetime : Lifetime
  saved0 : Option Lifetime
  saved1 : Option Lifetime
  /-- retries of the die-to-die and interposer links, by a number that the manual does not give (Table 21-4) -/
  dieLinks : Store Nat
  /-- ticks of the current excursion above 2,400 W (R367) -/
  excursion : Nat
  /-- cycles since the cores left reset (R152) -/
  cycle : Nat
  powered : Bool
  /-- a step of bring-up failed (R372) -/
  failedStep : Option Nat
  sessionEpoch : BitVec 64
  /-- running counts of session counters, by context (R331) -/
  sessionCounts : Store Nat
  /-- SPDM sessions (R299), the firmware that fuse counters 0 to 2 guard (R335), and what the TC holds from manufacture (R310,
  R323) -/
  sessions : Store Session
  firmware : Vector Firmware 3
  persistRoot : BitVec 256
  identity : BitVec 384
  certificates : List Byte
  nextGang : Nat
  replies : List Reply
  /-- messages that have left over SPDM sessions: the session, the ciphertext and the tag (R299, R323) -/
  messages : List (Nat × List Byte × List Byte)
  /-- the model's own: the sequencer that is issuing -/
  curCore : Nat
  curSq : Sq
  /-- bytes overwritten, newest first, and the time, which each write moves on: a load may return an older value where nothing
  orders the write before it (R229, R230, R243, R248) -/
  past : List Past
  writes : Nat
  /-- writes of service units that wait for pages being copied, oldest first (R295) -/
  waiting : List Delayed
  /-- the model's own: the image roots of generations that no slot holds any more, by which an image of one is known (R314, R378) -/
  retired : List (BitVec 256)
  /-- the agent on whose behalf the present move writes (R227) -/
  actor : Nat
  /-- the model's own: turns placed ahead of the free ones -/
  agenda : List Turn
  /-- the model's own: the number of free values drawn -/
  draws : Nat
  deriving DecidableEq, Repr

/-- Why a step is no step of the machine. -/
inductive Fault where
  /-- power is removed: no agent of the module moves until power is applied. Raised by `step`; safe (R370, R372) -/
  | noPower
  deriving DecidableEq, Repr

/-- Why the model does not say what happens. -/
inductive Refusal where
  /-- an instruction that the model does not give its meaning. Raised by `exec`; safe -/
  | notModelled (mnemonic : String)
  deriving DecidableEq, Repr

/-- A sequencer of an idle core (R371; the status word is that of Table 1-3). -/
def SeqState.reset : SeqState where
  regs := Vector.replicate 32 0
  taint := Vector.replicate 32 0
  pending := Vector.replicate 32 none
  loaded := Vector.replicate 32 none
  preds := 0
  ctlTaint := 0
  pc := 0
  cause := 0
  run := .idle
  waitOn := none
  mark := none
  late := none
  hdr := 0
  length := 0
  passes := 0
  inBody := false
  granules := []
  rep := none
  pb := none
  rq := []
  abnormal := 0
  firstSeq := 0
  firstStatus := 0
  issued := 0
  reread := false

/-- An unset shape slot (R172). -/
def Shape.unset : Shape := ⟨0, Vector.replicate 10 ⟨0, 0, 0⟩⟩

/-- An idle matrix engine (R196). -/
def Me.reset : Me := ⟨Vector.replicate 36 0, Vector.replicate 36 0, none, none, none, none, [], none, []⟩

/-- What a core held before its first cycle. -/
def Was.reset : Was := ⟨Vector.replicate 12 0, Vector.replicate 16 none, Vector.replicate 32 0, 0⟩

/-- An idle core with its registers zero, every row unscrubbed (R371). -/
def Core.reset : Core where
  seqs := Quad.all SeqState.reset
  handles := Vector.replicate 32 0
  rows := []
  rowTaint := []
  tileType := Vector.replicate 4 .fp32
  vm := 0
  kmask := Vector.replicate 8 0
  fpmode := 0
  fpflags := 0
  layouts := Vector.replicate 8 0
  shapes := Vector.replicate 16 Shape.unset
  rills := Vector.replicate 16 none
  tokens := Vector.replicate 12 0
  ccnt := 0
  scratch := []
  watermark := 0
  scrubbed := []
  bankMark := none
  me := Me.reset
  copies := []
  loads := []
  stores := []
  tags := []
  alignLd := Vector.replicate 16 0
  alignSt := Vector.replicate 16 0
  mints := []
  colls := []
  invals := []
  mapped := 0
  task := none
  lastTenant := none
  claim := none
  nextId := 0
  lastActive := 0
  was := Was.reset
  moved := none
  floor := 0
  seen := []
  handed := 0
  given := []
  fenced := 0
  spilt := []
  fetched := 0
  base := 0
  freed := []

/-- A TDI that is not locked (R371). -/
def Tdi.reset : Tdi := ⟨.unlocked, false, 0, 0, 0, 0⟩

/-- A record with every count zero (log 3). -/
def Lifetime.zero : Lifetime where
  saveSeq := 0
  seconds := 0
  fuses := [0, 0, 0, 0]
  coldResets := 0
  trips := 0
  temps := List.replicate 16 0
  droops := List.replicate 4 0
  power := List.replicate 8 0
  thermal := List.replicate 8 0
  retrains := List.replicate 16 0
  hbmCorrected := List.replicate 8 0
  hbmUncorrectable := List.replicate 8 0
  replays := []
  corrections := []
  checks := [0, 0, 0, 0]

/-- The state after reset (R371). What every reset keeps, the persistent counters, the fuse counters and the
lifetime record, stands at zero (DESIGN CHOICE, log 3); the session epoch is a free value (log 2). -/
def State.reset : State where
  cores := []
  parked := []
  gangs := []
  launches := []
  queues := []
  tdis := []
  faults := []
  nextFault := 0
  ctxs := []
  parts := []
  clusterTenant := []
  dies := Vector.replicate 4 ⟨0, 0, []⟩
  tenants := []
  sweeps := []
  streams := []
  counters := []
  fuses := Vector.replicate 4 ⟨0, 0⟩
  commits := []
  hbm := []
  host := []
  file := []
  peer := []
  pages := []
  poison := []
  badLines := []
  badRows := []
  lostRows := []
  links := Vector.replicate 16 ⟨none, 0, 0⟩
  peersDown := []
  quotas := []
  poolDrawn := Vector.replicate 16 0
  planePtr := 0
  slotTurn := none
  slotDraws := []
  collCounts := []
  collGone := []
  aperture := []
  lifetime := Lifetime.zero
  saved0 := none
  saved1 := none
  dieLinks := []
  excursion := 0
  cycle := 0
  powered := true
  failedStep := none
  sessionEpoch := Config.sessionEpoch 0
  sessionCounts := []
  sessions := []
  firmware := Vector.ofFn (fun (i : Fin 3) => ⟨Config.firmwareVersion 0 i.val, Config.firmwareImage 0 i.val⟩)
  persistRoot := Config.persistenceRoot
  identity := Config.identityKey
  certificates := Config.certificates
  nextGang := 0
  replies := []
  messages := []
  curCore := 0
  curSq := .ctl
  past := []
  writes := 0
  waiting := []
  retired := []
  actor := 0
  agenda := []
  draws := 1

end Sys2Proof.Machine
end

