-- ==== Sys2Proof/Machine/Memory.lean ====
section
/-!
DEFINITION. Bit fields, byte order, and storage byte by byte: HBM, host, file store, peers, and the core windows
with everything that Table 1-2 lays into them. A memory is a list of (address, byte) pairs in one canonical form:
addresses rise, and no pair lists zero, which is what an unlisted address reads as.
-/
namespace Sys2Proof.Machine

/-- Bits hi to lo of a number (R4). -/
def bitsOf (v hi lo : Nat) : Nat := v / 2 ^ lo % 2 ^ (hi + 1 - lo)

/-- A number of n bits read as two's complement. -/
def signedOf (n v : Nat) : Int := if v % 2 ^ n < 2 ^ (n - 1) then (v % 2 ^ n : Nat) else (v % 2 ^ n : Nat) - (2 ^ n : Nat)

/-- The n low bytes of a number, little-endian (R4). -/
def bytesOf : Nat → Nat → List Byte
  | 0, _ => []
  | n + 1, v => BitVec.ofNat 8 v :: bytesOf n (v / 256)

/-- The number that bytes hold, little-endian (R4). -/
def numOf : List Byte → Nat
  | [] => 0
  | b :: bs => b.toNat + 256 * numOf bs

/-- Byte i of a number. -/
def byteOf (v i : Nat) : Byte := BitVec.ofNat 8 (v / 256 ^ i)

/-- Replaces byte i of a number. -/
def setByte (v i : Nat) (b : Byte) : Nat := v - v / 256 ^ i % 256 * 256 ^ i + b.toNat * 256 ^ i

/-- Changes one element of a vector. -/
def modAt {α : Type} {n : Nat} (v : Vector α n) (i : Nat) (f : α → α) : Vector α n :=
  match v[i]? with
  | none => v
  | some x => v.setIfInBounds i (f x)

/-- The canonical form of a memory (R4): addresses rise and no byte listed is zero. -/
def Memory.wf (m : Store Byte) : Bool := Store.rising m && m.all (fun c => c.2 != 0)

/-- Reads one byte; an unlisted address reads as zero. -/
def Memory.read (m : Store Byte) (a : Nat) : Byte := Store.getD m a 0

/-- Writes one byte, keeping the canonical form. -/
def Memory.write (m : Store Byte) (a : Nat) (b : Byte) : Store Byte :=
  if b = 0 then Store.erase a m else Store.put a b m

/-- n bytes from an address upward. -/
def Memory.readN (m : Store Byte) (a n : Nat) : List Byte := (List.range n).map (fun i => Memory.read m (a + i))

/-- Bytes from an address upward. -/
def Memory.writeN (m : Store Byte) (a : Nat) : List Byte → Store Byte
  | [] => m
  | b :: bs => Memory.writeN (Memory.write m a b) (a + 1) bs

/-- Clears the addresses of a range. -/
def Memory.clear (m : Store Byte) (lo hi : Nat) : Store Byte := m.filter (fun c => decide (c.1 < lo) || decide (hi ≤ c.1))

/-- The core of a number; an unlisted core is idle with its registers zero. -/
def State.core (s : State) (n : Nat) : Core := Store.getD s.cores n Core.reset

/-- Replaces a core. -/
def State.setCore (s : State) (n : Nat) (c : Core) : State := { s with cores := Store.put n c s.cores }

/-- Changes a core. -/
def State.modCore (s : State) (n : Nat) (f : Core → Core) : State := s.setCore n (f (s.core n))

/-- Replaces one sequencer of a core. -/
def Core.setSeq (c : Core) (q : Sq) (x : SeqState) : Core := { c with seqs := c.seqs.set q x }

/-- Changes one sequencer of a core. -/
def Core.modSeq (c : Core) (q : Sq) (f : SeqState → SeqState) : Core := c.setSeq q (f (c.seqs.get q))

/-- A row of an accumulator tile; an unlisted row is zero (R7). -/
def Core.row (c : Core) (r : Nat) : BitVec 2048 := Store.getD c.rows r 0

/-- Writes a row, keeping only rows that are not zero. -/
def Core.setRow (c : Core) (r : Nat) (x : BitVec 2048) : Core :=
  { c with rows := if x = 0 then Store.erase r c.rows else Store.put r x c.rows }

/-- The taint set of a row (R193). -/
def Core.rowSet (c : Core) (r : Nat) : Taint := Store.getD c.rowTaint r 0

/-- Writes the taint set of a row. -/
def Core.setRowSet (c : Core) (r : Nat) (x : Taint) : Core :=
  { c with rowTaint := if x = 0 then Store.erase r c.rowTaint else Store.put r x c.rowTaint }

/-- A register that reads zero and discards writes: s0, and s31 but in ld (R102, R20). -/
def fixedReg (q : Sq) (i : Nat) : Bool := i == 0 || (i == 31 && q != .ld)

/-- The value held in a scalar register; s0 reads zero (Table 1-1). -/
def SeqState.reg (x : SeqState) (i : Nat) : Word := if i = 0 then 0 else x.regs[i]?.getD 0

/-- The taint set of a scalar register. -/
def SeqState.set (x : SeqState) (i : Nat) : Taint := if i = 0 then 0 else x.taint[i]?.getD 0

/-- Writes a scalar register with its taint set; a write to s0, and to s31 but in ld, is discarded (R102). The write
ends the wait for an earlier load of the register (R157). -/
def SeqState.put (x : SeqState) (q : Sq) (i : Nat) (v : Word) (t : Taint) : SeqState :=
  if fixedReg q i then x
  else { x with regs := x.regs.setIfInBounds i v, taint := x.taint.setIfInBounds i t,
                pending := x.pending.setIfInBounds i none, loaded := x.loaded.setIfInBounds i none }

/-- A sequencer status word (Table 1-3). -/
def SeqState.statusWord (x : SeqState) : Nat :=
  x.pc % 2 ^ 32 * 2 ^ 32 + x.cause.toNat * 2 ^ 24 + x.run.code * 2 ^ 20

/-- The core word (Table 1-3). -/
def Core.coreWord (c : Core) : Nat :=
  match c.task with
  | none => 0
  | some t => t.ctx % 4096 * 2 ^ 40 + t.member % 256 * 2 ^ 32 + t.number.toNat

/-- What lies at an offset of a core window (Table 1-2). -/
inductive WinPart where
  | scratch (off : Nat)
  | tile (row i : Nat)
  | scalar (q : Sq) (reg i : Nat)
  | preds (q : Sq) (i : Nat)
  | handle (reg i : Nat)
  | status (i : Nat)
  | unassigned
  deriving DecidableEq, Repr

/-- The window layout of Table 1-2. -/
def winPart (off : Nat) : WinPart :=
  if off < 0x100000 then .scratch off
  else if off < 0x110000 then .tile ((off - 0x100000) / 256) (off % 256)
  else if off < 0x110400 then .scalar (Sq.ofNum ((off - 0x110000) / 0x100)) (off % 0x100 / 8) (off % 8)
  else if off < 0x110420 then .preds (Sq.ofNum ((off - 0x110400) / 8)) (off % 8)
  else if 0x111000 ≤ off ∧ off < 0x111400 then .handle ((off - 0x111000) / 32) (off % 32)
  else if 0x118000 ≤ off ∧ off < 0x118028 then .status (off - 0x118000)
  else .unassigned

/-- One byte of a core window (R18, R20). A handle register reads as it stood at the end of the previous cycle: a write of the
same cycle is not seen (R8). -/
def Core.readWin (c : Core) (off : Nat) : Byte :=
  match winPart off with
  | .scratch o => Memory.read c.scratch o
  | .tile r i => byteOf (c.row r).toNat i
  | .scalar q r i => if fixedReg q r then 0 else byteOf ((c.seqs.get q).reg r).toNat i
  | .preds q i => if i = 0 then (c.seqs.get q).preds else 0
  | .handle r i => byteOf (c.was.handles[r]?.getD 0).toNat i
  | .status i => if i < 32 then byteOf (c.seqs.get (Sq.ofNum (i / 8))).statusWord (i % 8) else byteOf c.coreWord (i - 32)
  | .unassigned => 0

/-- The cause with which a write to a window offset fails (Table 1-2). -/
def winWriteCause (off : Nat) : Option Cause :=
  match winPart off with
  | .handle _ _ => some 0x77
  | .status _ => some 0x41
  | .unassigned => some 0x41
  | _ => none

/-- A window write to a byte of a row comes after the row-steps that are committed: whichever of them a read of ex reflects, it finds
the byte as written (R204, R230, R250). -/
def MeOp.patch (o : MeOp) (r i : Nat) (b : Byte) : MeOp :=
  { o with earlier := o.earlier.map (fun (p : Nat × List (BitVec 2048)) =>
      if p.1 = r then (p.1, p.2.map (fun v => BitVec.ofNat 2048 (setByte v.toNat i b))) else p) }

/-- Writes one byte of a core window (R18, R20): a scratchpad row is marked scrubbed (R319), a scalar register's
taint set becomes empty, and the slots of registers that read zero discard the write. -/
def Core.writeWin (c : Core) (off : Nat) (b : Byte) : Core :=
  match winPart off with
  | .scratch o =>
    { c with scratch := Memory.write c.scratch o b,
             scrubbed := if c.watermark ≤ o / 64 ∧ o / 64 ∉ c.scrubbed then (o / 64) :: c.scrubbed else c.scrubbed }
  | .tile r i => { c.setRow r (BitVec.ofNat 2048 (setByte (c.row r).toNat i b)) with
      me := { c.me with active := c.me.active.map (fun o => o.patch r i b) } }
  | .scalar q r i => c.modSeq q (fun x => x.put q r (BitVec.ofNat 64 (setByte (x.reg r).toNat i b)) 0)
  | .preds q i => if i = 0 then c.modSeq q (fun x => { x with preds := b }) else c
  | .handle _ _ => c
  | .status _ => c
  | .unassigned => c

/-- The place of byte x of the cluster window of cluster k (R21). -/
def clusterLoc (k x : Nat) : Loc :=
  .win (Config.clusterCores * k + x / 128 % 16) (0xC0000 + x / 2048 * 128 + x % 128)

/-- The address that accesses of an HBM address go to while and after a slice moves (R295, R296). A write to the page
that is being copied waits (`State.copying`). -/
def State.hbmAddr (s : State) (a : Nat) : Nat :=
  let sl := a / Config.sliceBytes
  let off := a % Config.sliceBytes
  match List.find? (fun p : Nat × Partition => p.2.moving.any (fun m => m.slice == sl) || (Store.find? p.2.sliceMap sl).isSome) s.parts with
  | none => a
  | some (_, p) =>
    match p.moving.find? (fun m => m.slice == sl) with
    | some m =>
      let page := off / Config.pageBytes
      if page < m.next then m.target * Config.sliceBytes + off else (Store.getD p.sliceMap sl sl) * Config.sliceBytes + off
    | none => (Store.getD p.sliceMap sl sl) * Config.sliceBytes + off

/-- A write to the page waits while it is being copied (R295). -/
def State.hbmHeld (s : State) (a : Nat) : Bool :=
  s.parts.any (fun p => p.2.moving.any (fun m =>
    m.slice == a / Config.sliceBytes && m.copying && m.next == a % Config.sliceBytes / Config.pageBytes))

/-- A write to places of HBM waits: a page of them is being copied (R295). -/
def State.copying (s : State) (ls : List Loc) : Bool :=
  ls.any (fun l => match l with
    | .hbm a => s.hbmHeld a
    | _ => false)

/-- Reads one byte where it lies. A page or row that is not scrubbed lists nothing and reads zero (R319, R320). -/
def State.readLoc (s : State) : Loc → Byte
  | .hbm a => Memory.read s.hbm (s.hbmAddr a)
  | .host a => Memory.read s.host a
  | .file a => Memory.read s.file a
  | .peer r a => Memory.read s.peer (r * 2 ^ 50 + a)
  | .win c o => (s.core c).readWin o
  | .discarded => 0

/-- Reads bytes where they lie. -/
def State.readLocs (s : State) (ls : List Loc) : List Byte := ls.map s.readLoc

/-- The owner record of an HBM page; a page without one is unscrubbed (R371). -/
def State.owner (s : State) (page : Nat) : Owner := Store.getD s.pages page ⟨none, false, true⟩

/-- Marks an HBM page dirty in the partition that owns its slice (R293). -/
def State.markDirty (s : State) (a : Nat) : State :=
  { s with parts := s.parts.map (fun p =>
      if a / Config.sliceBytes ∈ p.2.slices ∧ a / Config.pageBytes ∉ p.2.dirty
      then (p.1, { p.2 with dirty := a / Config.pageBytes :: p.2.dirty }) else p) }

/-- Both values lie in one page of HBM: line n in page p. -/
def lineIn (p n : Nat) : Bool := n / 1024 == p

/-- Writes one byte where it lies. A write to an HBM page whose scrub bit is set applies after the walker of its
slice has written the page (R320), which the model takes as part of the write: what had struck the page is gone. -/
def State.writeLoc (s : State) (l : Loc) (b : Byte) : State :=
  match l with
  | .hbm i =>
    let a := s.hbmAddr i
    let o := s.owner (a / Config.pageBytes)
    let gone := fun (n : Nat) => o.scrub && lineIn (a / Config.pageBytes) n
    ({ s with hbm := Memory.write s.hbm a b,
              pages := if o.scrub then Store.put (a / Config.pageBytes) { o with scrub := false } s.pages
                       else s.pages,
              poison := s.poison.filter (fun n => !gone n), badLines := s.badLines.filter (fun n => !gone n) }).markDirty i
  | .host a => { s with host := Memory.write s.host a b }
  | .file a => { s with file := Memory.write s.file a b }
  | .peer r a => { s with peer := Memory.write s.peer (r * 2 ^ 50 + a) b }
  | .win c o => s.modCore c (fun x => x.writeWin o b)
  | .discarded => s

/-- Writes bytes one after another. -/
def State.writeBytes (s : State) : List (Loc × Byte) → State
  | [] => s
  | (l, b) :: m => State.writeBytes (s.writeLoc l b) m

/-- The 64-byte lines of HBM that a list of places covers whole. -/
def wholeLines (ls : List Loc) : List Nat :=
  ls.filterMap (fun l => match l with
    | .hbm a => if a % 64 = 0 ∧ (List.range 64).all (fun i => ls.contains (.hbm (a + i))) then some (a / 64) else none
    | _ => none)

/-- The scratchpad rows that a list of places covers whole, numbered core × 16384 + row. -/
def wholeRows (ls : List Loc) : List Nat :=
  ls.filterMap (fun l => match l with
    | .win c o => if o < 0x100000 ∧ o % 64 = 0 ∧ (List.range 64).all (fun i => ls.contains (.win c (o + i)))
        then some (c * 16384 + o / 64) else none
    | _ => none)

/-- The places of which older values are kept: memory, and not registers or tiles (R230). -/
def Loc.historic : Loc → Bool
  | .hbm _ => true
  | .host _ => true
  | .file _ => true
  | .peer _ _ => true
  | .win _ o => decide (o < 0x100000)
  | .discarded => false

/-- A byte as it stood as of a time, counted in writes: what the earliest later write replaced, or what it holds now
(R230). -/
def State.readAsOf (s : State) (t : Nat) (l : Loc) : Byte :=
  match (s.past.filter (fun p => p.loc == l && decide (t < p.time))).getLast? with
  | some p => p.old
  | none => s.readLoc l

/-- The newest write to a byte as of a time. -/
def State.writeAsOf (s : State) (t : Nat) (l : Loc) : Option Past := s.past.find? (fun p => p.loc == l && decide (p.time ≤ t))

/-- The agents that the newest writes to bytes lead back to (R245). -/
def State.agentsOf (s : State) (ls : List Loc) : List Nat :=
  (ls.flatMap (fun l => ((s.writeAsOf s.writes l).map Past.agents).getD [])).eraseDups

/-- Two agents stand in one instance of a scope (Table 13-1): 0 core, 1 cluster, 2 device, 3 partition, 4 system. -/
def sameInstance (scope a b : Nat) : Bool :=
  match scope with
  | 0 => a == b && decide (a < Config.serviceAgent)
  | 1 => decide (a < Config.serviceAgent) && decide (b < Config.serviceAgent) && a / Config.clusterCores == b / Config.clusterCores
  | 2 => decide (a ≤ Config.serviceAgent) && decide (b ≤ Config.serviceAgent)
  | 3 => a != Config.hostAgent && b != Config.hostAgent
  | _ => true

/-- The history forgets the places that `f` names: what they held belongs to nobody any more (R319, R320). -/
def State.forget (s : State) (f : Loc → Bool) : State := { s with past := s.past.filter (fun p => !f p.loc) }

/-- The bytes of scalar registers that a window write replaces without naming them: a register is replaced whole (R20), and
what its other bytes take is a free value (log 17). -/
def State.openBytes (s : State) (ls : List Loc) : List (Loc × Byte) :=
  ls.flatMap (fun l => match l with
    | .win c o =>
      if 0x110000 ≤ o ∧ o < 0x110400 then (List.range 8).filterMap (fun i =>
        let x := o / 8 * 8 + i
        if ls.contains (.win c x) then none else some (.win c x, Config.openByte s.draws (c * 0x200000 + x)))
      else []
    | _ => [])

/-- The place to which accesses of an HBM byte go (R295). -/
def State.placeOf (s : State) : Loc → Loc
  | .hbm a => .hbm (s.hbmAddr a)
  | l => l

/-- Lines and rows written whole: a line loses its poison (R374), and a line or row has a tag that matches. -/
def State.mend (s : State) (ls : List Loc) : State :=
  if s.poison.isEmpty && s.badLines.isEmpty && s.badRows.isEmpty && s.lostRows.isEmpty then s
  else
    let lines := wholeLines (ls.map s.placeOf)
    let rows := wholeRows ls
    { s with poison := s.poison.filter (fun x => !lines.contains x), badLines := s.badLines.filter (fun x => !lines.contains x),
             badRows := s.badRows.filter (fun x => !rows.contains x), lostRows := s.lostRows.filter (fun x => !rows.contains x) }

/-- The places in lines and rows that are poisoned, lost or tampered with. -/
def State.flawed (s : State) (ls : List Loc) : List Loc :=
  ls.filter (fun l => match s.placeOf l with
    | .hbm a => s.poison.contains (a / 64) || s.badLines.contains (a / 64)
    | .win c o => s.badRows.contains (c * 16384 + o / 64) || s.lostRows.contains (c * 16384 + o / 64)
    | _ => false)

/-- How a write stands to what its sequencer writes later: whether it is ordered before all of it, what joins it, and by whom
it is joined. -/
structure Strength where
  ordered : Bool
  awaits : Option Awaited
  joined : Quad Bool

/-- A write that orders itself before its sequencer's later ones, as plain stores and atomics do (R158). -/
def Strength.plain : Strength := ⟨true, none, Quad.all false⟩
/-- A write-combining store: only a release of st orders it before what st writes later (R158). -/
def Strength.combining : Strength := ⟨false, none, ⟨false, false, true, false⟩⟩
/-- A write that must be joined first: a non-temporal store, by a FENCE (R164); an engine's write (R248). -/
def Strength.joinedBy (a : Awaited) : Strength := ⟨false, some a, Quad.all false⟩

/-- Writes bytes at once, on behalf of agents; the history keeps what they replace. -/
def State.writeFrom (s : State) (agents : List Nat) (w : Strength) (m : List (Loc × Byte)) : State :=
  let ls := m.map Prod.fst
  let t := (s.writeBytes (m ++ s.openBytes ls)).mend ls
  { t with
    writes := s.writes + 1,
    past := (ls.filter Loc.historic).map (fun l => ⟨s.writes + 1, l, s.readLoc l, agents, if w.ordered then [(4, s.writes + 1)] else [], 0, w.awaits, w.joined⟩) ++ s.past }

/-- Writes bytes at once, on behalf of the agent that is moving. -/
def State.writeLocs (s : State) (m : List (Loc × Byte)) : State := s.writeFrom [s.actor] Strength.plain m

/-- An engine of a core writes bytes, which what `a` names joins (R248). -/
def State.writeEngine (s : State) (agent : Nat) (a : Awaited) (m : List (Loc × Byte)) : State := s.writeFrom [agent] (Strength.joinedBy a) m

/-- The write was made on behalf of an agent. -/
def Past.by (p : Past) (agent : Nat) : Bool := p.agents.head? == some agent

/-- The write is a store, and no engine's. -/
def Past.stored (p : Past) : Bool := p.awaits.isNone || p.awaits == some .fence

/-- The write is ordered before what follows in an instance of a scope that holds its writer. -/
def Past.isShown (p : Past) (scope : Nat) : Bool := p.shown.any (fun x => decide (scope ≤ x.1))

/-- The scope within which the join of an engine's write holds: the system for host and peer memory, else the device (R183,
R248). -/
def Past.joinScope (p : Past) : Nat :=
  match p.loc with
  | .host _ => 4
  | .peer _ _ => 4
  | _ => 2

/-- An edge of R231 leads from the write into a scope: what follows comes after the loads that have missed it. -/
def Past.reveal (p : Past) (scope : Nat) : Past :=
  if p.isShown scope then p else { p with shown := (scope, Nat.max p.time p.missed) :: p.shown }

/-- The latest time that a write of the history names. -/
def Past.latest (p : Past) : Nat := (p.shown.map Prod.snd).foldl Nat.max p.time

/-- Edges of R231 lead from the writes to which `f` gives a scope, and the time moves on to where they lead. -/
def State.reveal (s : State) (f : Past → Option Nat) : State :=
  let past := s.past.map (fun p => match f p with
    | some k => p.reveal k
    | none => p)
  { s with past := past, writes := (past.map Past.latest).foldl Nat.max s.writes }

/-- Edges of R231 lead from the writes of an agent to which `f` gives a scope. -/
def State.revealOf (s : State) (agent : Nat) (f : Past → Option Nat) : State := s.reveal (fun p => if p.by agent then f p else none)

/-- The writes that bytes hold as of a time have been read: each is ordered before what follows its read (R231). -/
def State.observed (s : State) (t : Nat) (ls : List Loc) : State :=
  s.reveal (fun p => if ls.contains p.loc && decide (p.time ≤ t) then some 4 else none)

/-- Bytes are added to, changed or swapped in one access: the write goes on the chain of those before it (R245). -/
def State.writeRmw (s : State) (m : List (Loc × Byte)) : State :=
  (s.observed s.writes (m.map Prod.fst)).writeFrom (s.actor :: s.agentsOf (m.map Prod.fst)) Strength.plain m

/-- Changes the writes of the history that were made on behalf of an agent. -/
def State.modPast (s : State) (agent : Nat) (f : Past → Past) : State :=
  { s with past := s.past.map (fun p => if p.by agent then f p else p) }

/-- A release of a sequencer at a scope covers the writes that it has joined (R158, R165). -/
def State.release (s : State) (agent : Nat) (q : Sq) (scope : Nat) : State :=
  s.revealOf agent (fun p => if p.joined.get q then some scope else none)

/-- An arrival covers every earlier access of its sequencer, at cluster scope: what it has joined, and st's stores of every
kind (R134, R244). -/
def State.releaseAll (s : State) (agent : Nat) (q : Sq) : State :=
  s.revealOf agent (fun p => if p.joined.get q || (q == .st && p.stored) then some 1 else none)

/-- A sequencer makes an access: the engine writes that it has joined are ordered before it, and before what it leads to
(R248). -/
def State.carry (s : State) (agent : Nat) (q : Sq) : State :=
  s.revealOf agent (fun p => if p.joined.get q && !p.stored then some p.joinScope else none)

/-- A sequencer issues an engine operation, before whose accesses all of its own are ordered, in every scope, and those that it
has joined (R247, R249). -/
def State.fork (s : State) (agent : Nat) (q : Sq) : State :=
  (s.carry agent q).revealOf agent (fun p => if q == .st && p.stored then some 4 else none)

/-- A sequencer joins the writes that await what it has observed (R248): the later loads of ld come after them. -/
def State.joins (s : State) (agent : Nat) (q : Sq) (f : Awaited → Bool) : State :=
  let s1 := s.modPast agent (fun p => if p.awaits.any f then { p with joined := p.joined.set q true } else p)
  if q = .ld then
    let s2 := s1.carry agent .ld
    s2.modCore agent (fun c => { c with floor := ((s2.past.filter (fun p => p.by agent && p.joined.ld && p.awaits.any f)).map Past.latest).foldl Nat.max c.floor })
  else s1

/-- A copy's writes have all performed: its completion object joins them; that of kind 3 is itself a release at system
scope (R183, R244). -/
def State.landWrites (s : State) (agent id code : Nat) : State :=
  let mine := fun (p : Past) => p.awaits == some (.flight id)
  (s.revealOf agent (fun p => if mine p && code / 16 == 3 then some 4 else none)).modPast agent (fun p =>
    if mine p then { p with awaits := some (.object code) } else p)

/-- A collective has ended: its status word or its completion object joins its writes; that of kind 3, at a normal end, is a
release at system scope (R183, R353). -/
def State.landColl (s : State) (agent order code : Nat) (normal : Bool) : State :=
  let mine := fun (p : Past) => p.awaits.any (fun a => match a with | .coll o _ => o == order | _ => false)
  (s.revealOf agent (fun p => if mine p && normal && code / 16 == 3 then some 4 else none)).modPast agent (fun p =>
    { p with awaits := p.awaits.map (fun a => match a with | .coll o x => if o = order then .landed o x code else a | _ => a) })

/-- The writes of a task on a core are ordered before the completion of its record (R29, R256). -/
def State.coverTask (s : State) (agent : Nat) : State := s.revealOf agent (fun _ => some 4)

/-- A write binds a load of a core's ld: by the load's floor it is ordered before what follows in a scope whose instance holds
both (R229, R232). -/
def Past.binds (core floor : Nat) (p : Past) : Bool :=
  p.shown.any (fun x => decide (x.2 ≤ floor) && p.agents.any (fun a => sameInstance x.1 a core))

/-- The least time as of which a load of a core's ld may read a byte (R230, R232). -/
def State.bound (s : State) (core floor : Nat) (l : Loc) : Nat :=
  let w := ((s.past.find? (fun p => p.loc == l && p.binds core floor)).map Past.time).getD 0
  let r := (((s.core core).seen.find? (fun p => p.1 == l)).map Prod.snd).getD 0
  Nat.max (Nat.max w r) (s.core core).base

/-- The time as of which a load of ld reads: that of any write from the bound on (R233, R243); now, where a byte is not
memory. -/
def State.readTime (s : State) (core floor : Nat) (ls : List Loc) : Nat :=
  if ls.all Loc.historic then
    let b := (ls.map (s.bound core floor)).foldl Nat.max 0
    b + Config.pick s.draws % (s.writes + 1 - b)
  else s.writes

/-- A read by a requester that no join of a sequencer reaches, as the host is: writes that no release has covered up to it
may be missed (R255). The byte is as the last of the missed writes found it. -/
def State.readMissing (s : State) (miss : Bool) (l : Loc) : Byte :=
  match (s.past.filter (fun p => p.loc == l)).takeWhile (fun p => miss && !p.isShown 4) |>.getLast? with
  | some p => p.old
  | none => s.readLoc l

/-- The cause with which a read of a place fails: a poisoned line (R374), then a tag that does not match (R155,
R315). A page or row that is not scrubbed has no tag to check (R319, R320). -/
def State.readCause (s : State) : Loc → Option Cause
  | .hbm a =>
    let a := s.hbmAddr a
    if (s.owner (a / Config.pageBytes)).scrub then none
    else if s.poison.contains (a / 64) then some 0xE1
    else if s.badLines.contains (a / 64) then some 0x91 else none
  | .win c o =>
    if 0x100000 ≤ o then none
    else if s.lostRows.contains (c * 16384 + o / 64) then some 0xE0
    else if s.badRows.contains (c * 16384 + o / 64) then some 0x90 else none
  | _ => none

/-- The row or line of a place (R181): a scratchpad row of 64 bytes, an HBM line. -/
def Loc.line : Loc → Loc
  | .hbm a => .hbm (a / 64)
  | .win c o => .win c (o / 64)
  | l => l

/-- The place lies in a row that a CPYIN has written and not verified: any access waits (R181). -/
def State.unverified (s : State) (l : Loc) : Bool :=
  s.cores.any (fun p => p.2.copies.any (fun k => k.unverified.any (fun u => u.line == l.line)))

end Sys2Proof.Machine
end

