-- ==== Sys2Proof/Machine/Flags.lean ====
section
/-!
DEFINITION. Floating-point values, their rounding and the exception flags (R43 to R48), KBF blocks (R49 to R55), the
K-step window (R56, R57), approximations (R61, R62, R216), Welford merges (R63) and conversions (R65). Every result
comes with its flags: NV 16, DZ 8, OF 4, UF 2, NX 1 (Table 3-3).
-/
namespace Sys2Proof.Machine

/-- FPFLAGS bits (Table 3-3). -/
abbrev FpFlags := BitVec 5
def flagNV : FpFlags := 16
def flagDZ : FpFlags := 8
def flagOF : FpFlags := 4
def flagUF : FpFlags := 2
def flagNX : FpFlags := 1

/-- Rounding directions (Table 3-2). -/
inductive Rounding where
  | rne | rtz | rdn | rup
  deriving DecidableEq, Repr

/-- RM of FPMODE (Table 3-2). -/
def Rounding.ofMode (m : BitVec 2) : Rounding :=
  match m.toNat with
  | 0 => .rne | 1 => .rtz | 2 => .rdn | _ => .rup

/-- An IEEE format: exponent bits and fraction bits (Table 3-1). -/
structure FloatFmt where
  ebits : Nat
  fbits : Nat
  deriving DecidableEq, Repr

def fp32 : FloatFmt := ⟨8, 23⟩
def fp16 : FloatFmt := ⟨5, 10⟩
def bf16 : FloatFmt := ⟨8, 7⟩

namespace FloatFmt

/-- Bias (Table 3-1). -/
def bias (f : FloatFmt) : Int := (2 ^ (f.ebits - 1) : Nat) - 1
/-- Exponent of the smallest normal number. -/
def emin (f : FloatFmt) : Int := 1 - f.bias
/-- Bits of a value. -/
def width (f : FloatFmt) : Nat := 1 + f.ebits + f.fbits
/-- Bits of a positive infinity. -/
def infBits (f : FloatFmt) : Nat := (2 ^ f.ebits - 1) * 2 ^ f.fbits
/-- Bits with a sign. -/
def signed (f : FloatFmt) (s : Bool) (v : Nat) : Nat := if s then v + 2 ^ (f.ebits + f.fbits) else v
/-- Default NaN (Table 3-1). -/
def defaultNan (f : FloatFmt) : Nat := f.infBits + 2 ^ (f.fbits - 1)
/-- Bits of 1.0. -/
def one (f : FloatFmt) : Nat := f.bias.toNat * 2 ^ f.fbits

end FloatFmt

/-- A floating-point value: a NaN with its sign and fraction, an infinity, or ± m × 2^e (R43). -/
inductive FpVal where
  | nan (s : Bool) (frac : Nat)
  | inf (s : Bool)
  | fin (s : Bool) (m : Nat) (e : Int)
  deriving DecidableEq, Repr

/-- Reads the bits of a value (R43). -/
def FloatFmt.read (f : FloatFmt) (v : Nat) : FpVal :=
  let s := v.testBit (f.ebits + f.fbits)
  let x := v / 2 ^ f.fbits % 2 ^ f.ebits
  let frac := v % 2 ^ f.fbits
  if x = 2 ^ f.ebits - 1 then (if frac = 0 then .inf s else .nan s frac)
  else if x = 0 then .fin s frac (f.emin - f.fbits)
  else .fin s (frac + 2 ^ f.fbits) ((x : Int) - f.bias - f.fbits)

/-- The value is a NaN. -/
def FpVal.isNan : FpVal → Bool
  | .nan _ _ => true
  | _ => false

/-- The value is a signalling NaN of a format (R43). -/
def FpVal.isSnan (f : FloatFmt) : FpVal → Bool
  | .nan _ fr => !fr.testBit (f.fbits - 1)
  | _ => false

/-- The value is zero. -/
def FpVal.isZero : FpVal → Bool
  | .fin _ m _ => m == 0
  | _ => false

/-- The sign of a value. -/
def FpVal.sign : FpVal → Bool
  | .nan s _ => s
  | .inf s => s
  | .fin s _ _ => s

/-- The value with its sign changed; a NaN operand keeps its sign (R44). -/
def FpVal.neg : FpVal → FpVal
  | .nan s f => .nan s f
  | .inf s => .inf !s
  | .fin s m e => .fin (!s) m e

/-- Bits of a finite number: the least n with x < 2^n. -/
def bitLength (x : Nat) : Nat := if x = 0 then 0 else Nat.log2 x + 1

/-- Rounds m × 2^e, and a little more where `sticky`, to a whole number of units 2^q in a direction; whether inexact. -/
def roundUnits (rm : Rounding) (s : Bool) (m : Nat) (e q : Int) (sticky : Bool) : Nat × Bool :=
  if q ≤ e then (m * 2 ^ (e - q).toNat + (if sticky ∧ ((rm = .rup ∧ !s) ∨ (rm = .rdn ∧ s)) then 1 else 0), sticky)
  else
    let k := (q - e).toNat
    let a := m / 2 ^ k
    let r := m % 2 ^ k
    let exact := r == 0 && !sticky
    let up := match rm with
      | .rne => decide (2 ^ k < 2 * r) || (2 * r == 2 ^ k && (sticky || a % 2 == 1))
      | .rtz => false
      | .rdn => s && !exact
      | .rup => !s && !exact
    (if up then a + 1 else a, !exact)

/-- Rounds ± m × 2^e, and a little more where `sticky`, to a format, with OF, UF and NX (R46, R47): tininess is
found after rounding (Table 3-3). Where `sticky`, m has more bits than the format's fraction. -/
def FloatFmt.round (f : FloatFmt) (rm : Rounding) (s : Bool) (m : Nat) (e : Int) (sticky : Bool) : Nat × FpFlags :=
  if m = 0 ∧ !sticky then (f.signed s 0, 0)
  else
    let x : Int := (bitLength m : Int) - 1 + e
    let q := max (x - f.fbits) (f.emin - f.fbits)
    let (a, inexact) := roundUnits rm s m e q sticky
    let bits := ((q + f.fbits + f.bias) * (2 ^ f.fbits : Nat) + a - (2 ^ f.fbits : Nat)).toNat
    if f.infBits ≤ bits then
      let toInf := match rm with
        | .rne => true
        | .rtz => false
        | .rdn => s
        | .rup => !s
      (f.signed s (if toInf then f.infBits else f.infBits - 1), flagOF ||| flagNX)
    else
      let wide := (roundUnits rm s m e (x - f.fbits) sticky).1
      let tiny := decide (x < f.emin) && !(x == f.emin - 1 && wide == 2 ^ (f.fbits + 1))
      (f.signed s bits, (if inexact then flagNX else 0) ||| (if inexact && tiny then flagUF else 0))

/-- The NaN result of an operation on operands of a format, where one of them is a NaN: the first NaN operand, made
quiet; NV where one is signalling (R44). -/
def FloatFmt.nanOf (f : FloatFmt) (xs : List FpVal) : Option (Nat × FpFlags) :=
  match xs.find? FpVal.isNan with
  | some (.nan s fr) =>
    some (f.signed s (f.infBits + fr % 2 ^ (f.fbits - 1) + 2 ^ (f.fbits - 1)), if xs.any (FpVal.isSnan f) then flagNV else 0)
  | _ => none

/-- An invalid operation: the default NaN with NV (R44). -/
def FloatFmt.invalid (f : FloatFmt) : Nat × FpFlags := (f.defaultNan, flagNV)

/-- The exact sum of two finite numbers, as an integer of units 2^e. -/
def exactSum (s1 : Bool) (m1 : Nat) (e1 : Int) (s2 : Bool) (m2 : Nat) (e2 : Int) : Int × Int :=
  let e := min e1 e2
  let v := fun (s : Bool) (m : Nat) (x : Int) => let u : Int := (m * 2 ^ (x - e).toNat : Nat); if s then -u else u
  (v s1 m1 e1 + v s2 m2 e2, e)

/-- Adds two finite numbers and rounds; an exact zero has the common sign, else + but - toward minus infinity. -/
def FloatFmt.addFin (f : FloatFmt) (rm : Rounding) (s1 : Bool) (m1 : Nat) (e1 : Int) (s2 : Bool) (m2 : Nat) (e2 : Int) :
    Nat × FpFlags :=
  let (v, e) := exactSum s1 m1 e1 s2 m2 e2
  if v = 0 then (f.signed (if s1 = s2 then s1 else rm == .rdn) 0, 0)
  else f.round rm (decide (v < 0)) v.natAbs e false

/-- Addition of values (R47). -/
def FloatFmt.addVal (f : FloatFmt) (rm : Rounding) (x y : FpVal) : Nat × FpFlags :=
  match f.nanOf [x, y] with
  | some r => r
  | none =>
    match x, y with
    | .inf s, .inf t => if s = t then (f.signed s f.infBits, 0) else f.invalid
    | .inf s, _ => (f.signed s f.infBits, 0)
    | _, .inf t => (f.signed t f.infBits, 0)
    | .fin s m e, .fin t n d => f.addFin rm s m e t n d
    | _, _ => f.invalid

def FloatFmt.add (f : FloatFmt) (rm : Rounding) (a b : Nat) : Nat × FpFlags := f.addVal rm (f.read a) (f.read b)
def FloatFmt.sub (f : FloatFmt) (rm : Rounding) (a b : Nat) : Nat × FpFlags := f.addVal rm (f.read a) (f.read b).neg

/-- Multiplication (R47). -/
def FloatFmt.mul (f : FloatFmt) (rm : Rounding) (a b : Nat) : Nat × FpFlags :=
  let x := f.read a
  let y := f.read b
  match f.nanOf [x, y] with
  | some r => r
  | none =>
    let s := x.sign != y.sign
    match x, y with
    | .fin _ m e, .fin _ n d => f.round rm s (m * n) (e + d) false
    | _, _ => if x.isZero || y.isZero then f.invalid else (f.signed s f.infBits, 0)

/-- Fused multiply-add of values, rounding once (R47). -/
def FloatFmt.fmaVal (f : FloatFmt) (rm : Rounding) (x y z : FpVal) : Nat × FpFlags :=
  match f.nanOf [x, y, z] with
  | some r => r
  | none =>
    let s := x.sign != y.sign
    match x, y, z with
    | .fin _ m e, .fin _ n d, .fin t k g => f.addFin rm s (m * n) (e + d) t k g
    | .fin _ _ _, .fin _ _ _, .inf t => (f.signed t f.infBits, 0)
    | _, _, .inf t => if x.isZero || y.isZero || s != t then f.invalid else (f.signed t f.infBits, 0)
    | _, _, _ => if x.isZero || y.isZero then f.invalid else (f.signed s f.infBits, 0)

/-- fma(a, b, c). -/
def FloatFmt.fma (f : FloatFmt) (rm : Rounding) (a b c : Nat) : Nat × FpFlags := f.fmaVal rm (f.read a) (f.read b) (f.read c)
/-- fma(-a, b, c). -/
def FloatFmt.fms (f : FloatFmt) (rm : Rounding) (a b c : Nat) : Nat × FpFlags := f.fmaVal rm (f.read a).neg (f.read b) (f.read c)

/-- Correctly rounded division to nearest even (R63). -/
def FloatFmt.div (f : FloatFmt) (rm : Rounding) (a b : Nat) : Nat × FpFlags :=
  let x := f.read a
  let y := f.read b
  match f.nanOf [x, y] with
  | some r => r
  | none =>
    let s := x.sign != y.sign
    match x, y with
    | .fin _ m e, .fin _ n d =>
      if n = 0 then (if m = 0 then f.invalid else (f.signed s f.infBits, flagDZ))
      else
        let k := 2 * f.fbits + 8 + bitLength n
        f.round rm s (m * 2 ^ k / n) (e - d - k) (m * 2 ^ k % n != 0)
    | .fin _ _ _, _ => (f.signed s 0, 0)
    | .inf _, .fin _ _ _ => (f.signed s f.infBits, 0)
    | _, _ => f.invalid

/-- x < y of numbers; zeros are equal. -/
def FpVal.lt (x y : FpVal) : Bool :=
  match x, y with
  | .nan _ _, _ => false
  | _, .nan _ _ => false
  | .inf s, .inf t => s && !t
  | .inf s, _ => s
  | _, .inf t => !t
  | .fin s m e, .fin t n d => decide ((exactSum s m e (!t) n d).1 < 0)

/-- x = y of numbers; zeros are equal. -/
def FpVal.eq (x y : FpVal) : Bool := !x.isNan && !y.isNan && !x.lt y && !y.lt x

/-- x stands below y where -0 orders below +0 (R47). -/
def FpVal.below (x y : FpVal) : Bool := x.lt y || (x.isZero && y.isZero && x.sign && !y.sign)

/-- minimumNumber, or maximumNumber (R47). -/
def FloatFmt.minMax (f : FloatFmt) (isMax : Bool) (a b : Nat) : Nat × FpFlags :=
  let x := f.read a
  let y := f.read b
  let nv := if x.isSnan f || y.isSnan f then flagNV else 0
  if x.isNan && y.isNan then (f.nanOf [x, y]).getD f.invalid
  else if x.isNan then (b, nv)
  else if y.isNan then (a, nv)
  else if isMax then (if x.below y then b else a, nv)
  else (if y.below x then b else a, nv)

/-- The relations of the compares (R214): equal, unequal, less, less or equal; with NV. -/
def FloatFmt.compare (f : FloatFmt) (fn : Nat) (a b : Nat) : Bool × FpFlags :=
  let x := f.read a
  let y := f.read b
  let nan := x.isNan || y.isNan
  let nv := if (nan && decide (2 ≤ fn)) || x.isSnan f || y.isSnan f then flagNV else 0
  (match fn with
   | 0 => x.eq y
   | 1 => !x.eq y
   | 2 => x.lt y
   | _ => !nan && !y.lt x, nv)

/-- Converts between IEEE formats (Table 3-6). -/
def convertFp (src dst : FloatFmt) (rm : Rounding) (a : Nat) : Nat × FpFlags :=
  match src.read a with
  | .nan s fr =>
    let g := if src.fbits ≤ dst.fbits then fr * 2 ^ (dst.fbits - src.fbits) else fr / 2 ^ (src.fbits - dst.fbits)
    (dst.signed s (dst.infBits + g % 2 ^ (dst.fbits - 1) + 2 ^ (dst.fbits - 1)),
      if (src.read a).isSnan src then flagNV else 0)
  | .inf s => (dst.signed s dst.infBits, 0)
  | .fin s m e => dst.round rm s m e false

/-- Converts to a two's-complement integer of n bits (Table 3-6). -/
def convertToInt (src : FloatFmt) (n : Nat) (rm : Rounding) (a : Nat) : Nat × FpFlags :=
  let lim : Nat := 2 ^ (n - 1)
  let sat := fun (s : Bool) => (if s then lim else lim - 1, flagNV)
  match src.read a with
  | .nan _ _ => (0, flagNV)
  | .inf s => sat s
  | .fin s m e =>
    let (u, inexact) := roundUnits rm s m e 0 false
    if (s && decide (lim < u)) || (!s && decide (lim ≤ u)) then sat s
    else (if s then (2 ^ n - u) % 2 ^ n else u, if inexact then flagNX else 0)

/-- Converts a two's-complement integer of n bits (Table 3-6). -/
def convertFromInt (n : Nat) (dst : FloatFmt) (rm : Rounding) (a : Nat) : Nat × FpFlags :=
  let v := signedOf n a
  dst.round rm (decide (v < 0)) v.natAbs 0 false

/-- Saturates or sign-extends between integers of n and k bits (Table 3-6). -/
def convertInt (n k : Nat) (a : Nat) : Nat :=
  let v := signedOf n a
  let lo : Int := -((2 ^ (k - 1) : Nat) : Int)
  let hi : Int := (2 ^ (k - 1) : Nat) - 1
  ((max lo (min v hi)) % (2 ^ k : Nat)).toNat

/-- Rounds m × 2^e, and a little more where `sticky`, to n significant bits, to nearest even: the exact result. -/
def roundSig (n : Nat) (m : Nat) (e : Int) (sticky : Bool) : Nat × Int × Bool :=
  let q : Int := (bitLength m : Int) - n + e
  let (a, inexact) := roundUnits .rne false m e q sticky
  (a, q, inexact)

/-- A result of n significant bits placed in FP32, with NX where the rounding was inexact (R61, R216). -/
def placeSig (n : Nat) (s : Bool) (m : Nat) (e : Int) (sticky : Bool) : Nat × FpFlags :=
  let (a, q, inexact) := roundSig n m e sticky
  ((fp32.round .rne s a q false).1, if inexact then flagNX else 0)

/-- A NaN input passed on quiet, with its payload (R61, R215). -/
def quietNan (x : FpVal) : Nat × FpFlags := (fp32.nanOf [x]).getD fp32.invalid

/-- VRCPA (R61, Table 3-5). -/
def rcpApprox (a : Nat) : Nat × FpFlags :=
  match fp32.read a with
  | .nan s f => quietNan (.nan s f)
  | .inf s => (fp32.signed s 0, 0)
  | .fin s m e =>
    if m < 2 ^ 23 then (fp32.signed s fp32.infBits, flagDZ)
    else if 126 < e + 23 ∨ (e + 23 = 126 ∧ m ≠ 2 ^ 23) then (fp32.signed s 0, flagUF ||| flagNX)
    else placeSig 12 s (2 ^ 64 / m) (-64 - e) (2 ^ 64 % m != 0)

/-- The integer square root of n, where it has fewer than k bits. -/
def isqrt (n : Nat) : Nat → Nat → Nat
  | 0, r => r
  | k + 1, r => isqrt n k (if (r + 2 ^ k) * (r + 2 ^ k) ≤ n then r + 2 ^ k else r)

/-- VRSQA (R61, Table 3-5). -/
def rsqApprox (a : Nat) : Nat × FpFlags :=
  match fp32.read a with
  | .nan s f => quietNan (.nan s f)
  | .inf s => if s then fp32.invalid else (0, 0)
  | .fin s m e =>
    if m < 2 ^ 23 then (fp32.signed s fp32.infBits, flagDZ)
    else if s then fp32.invalid
    else
      let (m, e) := if e % 2 = 0 then (m, e) else (2 * m, e - 1)
      let r := isqrt (2 ^ 160 / m) 80 0
      placeSig 12 false r (-80 - e / 2) (r * r * m != 2 ^ 160)

/-- VRCPR and VRSQR: FP32 operations rounded to nearest even, with their flags (R62). -/
def refine (root : Bool) (a b : Nat) : Nat × FpFlags :=
  match fp32.read a with
  | .nan _ _ => (b, 0)
  | .inf _ => (b, 0)
  | .fin _ m _ =>
    if m = 0 then (b, 0)
    else if root then
      let (t, f1) := fp32.mul .rne a b
      let (e, f2) := fp32.fms .rne t b fp32.one
      let (h, f3) := fp32.mul .rne b (126 * 2 ^ 23)
      let (y, f4) := fp32.fma .rne h e b
      (y, f1 ||| f2 ||| f3 ||| f4)
    else
      let (e, f1) := fp32.fms .rne a b fp32.one
      let (y, f2) := fp32.fma .rne b e b
      (y, f1 ||| f2)

/-- ln 2 in units of 2^-160, a little below: the sum of 1 / (k 2^k). -/
def ln2Units : Nat := (List.range 170).foldl (fun s k => s + 2 ^ (160 - (k + 1)) / (k + 1)) 0

/-- exp(x) for 0 ≤ x < 1 in units of 2^-160: terms of the series from the k-th on, of which t is the first. -/
def expTerms (x : Nat) : Nat → Nat → Nat → Nat
  | 0, _, _ => 0
  | n + 1, k, t => t + expTerms x n (k + 1) (t * x / 2 ^ 160 / (k + 1))

/-- atanh(z) for 0 ≤ z ≤ 1/3 in units of 2^-160. -/
def atanhTerms (z2 : Nat) : Nat → Nat → Nat → Nat
  | 0, _, _ => 0
  | n + 1, k, t => t / (2 * k + 1) + atanhTerms z2 n (k + 1) (t * z2 / 2 ^ 160)

/-- VEXP2 (R216): the true value, computed far beyond 20 bits and rounded to 20 significant bits. -/
def exp2Approx (a : Nat) : Nat × FpFlags :=
  match fp32.read a with
  | .nan s f => quietNan (.nan s f)
  | .inf s => (if s then 0 else fp32.infBits, 0)
  | .fin s m e =>
    let v : Int := if s then -(m : Int) else m
    -- the whole part, and the fraction in units of 2^-160
    let (k, x) : Int × Nat := if 0 ≤ e then (v * (2 ^ e.toNat : Nat), 0)
      else
        let d : Int := (2 ^ (-e).toNat : Nat)
        (v / d, ((v % d) * (2 ^ 160 : Nat) / d).toNat)
    let whole := decide (0 ≤ e) || v % (2 ^ (-e).toNat : Nat) == 0
    if 128 ≤ k then (fp32.infBits, flagOF ||| flagNX)
    else if k < -126 then (0, flagUF ||| flagNX)
    else if whole then ((fp32.round .rne false 1 k false).1, 0)
    else placeSig 20 false (expTerms (x * ln2Units / 2 ^ 160) 60 0 (2 ^ 160)) (k - 160) true

/-- VLOG2 (R216). -/
def log2Approx (a : Nat) : Nat × FpFlags :=
  match fp32.read a with
  | .nan s f => quietNan (.nan s f)
  | .inf s => if s then fp32.invalid else (fp32.infBits, 0)
  | .fin s m e =>
    if m = 0 then (fp32.signed true fp32.infBits, flagDZ)
    else if s then fp32.invalid
    else
      let n := Nat.log2 m
      let k : Int := e + n
      if m = 2 ^ n then ((fp32.round .rne (decide (k < 0)) k.natAbs 0 false).1, 0)
      else
        let z := (m - 2 ^ n) * 2 ^ 160 / (m + 2 ^ n)
        let ln := 2 * atanhTerms (z * z / 2 ^ 160) 60 0 z
        let v : Int := k * (2 ^ 160 : Nat) + (ln * 2 ^ 160 / ln2Units : Nat)
        placeSig 20 (decide (v < 0)) v.natAbs (-160) true

/-- Rounds a finite number to an integral value; the sign of a zero result is that of the input (R217). -/
def roundIntegral (rm : Rounding) (a : Nat) : Nat × FpFlags :=
  match fp32.read a with
  | .nan s f => quietNan (.nan s f)
  | .inf s => (fp32.signed s fp32.infBits, 0)
  | .fin s m e =>
    let (u, _) := roundUnits rm s m e 0 false
    ((fp32.round .rne s u 0 false).1, 0)

/-- VFRC in FP32 (R217): a - floor(a) in a direction; 1.0 is replaced by the largest value below it. -/
def fraction (rm : Rounding) (a : Nat) : Nat × FpFlags :=
  match fp32.read a with
  | .nan s f => quietNan (.nan s f)
  | .inf _ => fp32.invalid
  | .fin s m e =>
    if 0 ≤ e ∨ m = 0 then (0, 0)
    else
      let d : Int := (2 ^ (-e).toNat : Nat)
      let v : Int := if s then -(m : Int) else m
      let (r, f) := fp32.round rm false (v % d).toNat e false
      (if r = fp32.one then r - 1 else r, f)

/-- A Welford triple in FP32 (R63). -/
structure Triple where
  n : Nat
  mean : Nat
  m2 : Nat
  deriving DecidableEq, Repr

/-- merge(A, B) with its flags (R63). -/
def Triple.merge (a b : Triple) : Triple × FpFlags :=
  if (fp32.read a.n).isZero then (b, 0)
  else if (fp32.read b.n).isZero then (a, 0)
  else
    let (n, f1) := fp32.add .rne a.n b.n
    let (d, f2) := fp32.sub .rne b.mean a.mean
    let (f, f3) := fp32.div .rne b.n n
    let (mean, f4) := fp32.fma .rne d f a.mean
    let (g, f5) := fp32.mul .rne a.n f
    let (q, f6) := fp32.mul .rne d g
    let (m, f7) := fp32.add .rne a.m2 b.m2
    let (m2, f8) := fp32.fma .rne q d m
    (⟨n, mean, m2⟩, f1 ||| f2 ||| f3 ||| f4 ||| f5 ||| f6 ||| f7 ||| f8)

/-- Mantissa bits of a KBF format: 0 KBF4, 1 KBF8, 2 KBF16 (Table 3-4). -/
def kbfBits (k : Nat) : Nat := match k with | 0 => 3 | 1 => 7 | _ => 15

/-- Bytes of the elements of a block (Table 3-4). -/
def kbfBytes (k : Nat) : Nat := match k with | 0 => 16 | 1 => 32 | _ => 64

/-- e(x), the KBF exponent; an infinity counts as 0xFE (R53, R54). None for a zero or a NaN. -/
def FpVal.kbfExp : FpVal → Option Int
  | .nan _ _ => none
  | .inf _ => some 0xFE
  | .fin _ m e => if m = 0 then none else some ((bitLength m : Int) - 1 + e + 128)

/-- The largest exponent of the elements, within 0 to 0xFE; 0 where there is none (R53). -/
def topExp (xs : List FpVal) : Nat :=
  (xs.foldl (fun (m : Int) x => match x.kbfExp with | none => m | some e => max m (min e 0xFE)) 0).toNat

/-- x in units of the step under exponent E, rounded to nearest even; none for an infinity. Whether inexact. -/
def kbfUnits (m E : Nat) : FpVal → Option (Int × Bool)
  | .fin s n e =>
    let (u, inexact) := roundUnits .rne s n e ((E : Int) - 127 - (m - 1 : Nat)) false
    some (if s then -(u : Int) else u, inexact)
  | _ => none

/-- An element: its selector and mantissa, whether its value changed, and whether it saturated (R53, R54). -/
def kbfElement (m E0 E1 : Nat) (nan : Bool) (x : FpVal) : Bool × Int × Bool × Bool :=
  let lim : Int := (2 ^ (m - 1) : Nat)
  let clamp := fun (v : Int) => max (-lim) (min v (lim - 1))
  match x with
  | .nan _ _ => (false, 0, false, false)
  | .inf s => (nan, if s then -lim else lim - 1, true, true)
  | .fin s n e =>
    let (q1, i1) := (kbfUnits m E1 (.fin s n e)).getD (0, false)
    if (-lim ≤ q1 ∧ q1 ≤ lim - 1) ∨ nan then (true, clamp q1, i1 || clamp q1 != q1, clamp q1 != q1)
    else
      let (q0, i0) := (kbfUnits m E0 (.fin s n e)).getD (0, false)
      (false, clamp q0, i0 || clamp q0 != q0, clamp q0 != q0)

/-- A KBF block: exponents and the elements as stored numbers (R49). -/
structure KbfBlock where
  e0 : Nat
  e1 : Nat
  elems : List Nat
  deriving DecidableEq, Repr

/-- The encoder of VKENC and CPYCV on 32 values of a format (R53, R54). -/
def kbfEncode (k : Nat) (f : FloatFmt) (vs : List Nat) : KbfBlock × FpFlags :=
  let m := kbfBits k
  let xs := vs.map f.read
  let nan := xs.any FpVal.isNan
  let top := topExp xs
  let E0 := if nan then 0xFF else top
  let E1 := if nan then top else top - m
  let es := xs.map (kbfElement m E0 E1 nan)
  (⟨E0, E1, es.map (fun x => (x.2.1 % ((2 ^ m : Nat) : Int)).toNat + (if x.1 then 2 ^ m else 0))⟩,
    (if es.any (fun x => x.2.2.1) then flagNX else 0) ||| (if es.any (fun x => x.2.2.2) then flagOF else 0)
      ||| (if xs.any (FpVal.isSnan f) then flagNV else 0))

/-- The value of an element: M × 2^(E - 127 - (m - 1)), or the default NaN of a format (R50). -/
def kbfValue (k : Nat) (b : KbfBlock) (i : Nat) : FpVal :=
  let m := kbfBits k
  let v := b.elems.getD i 0
  let E := if v.testBit m then b.e1 else b.e0
  let M := signedOf m v
  if E = 0xFF then .nan false (2 ^ 22) else .fin (decide (M < 0)) M.natAbs ((E : Int) - 127 - (m - 1 : Nat))

/-- Decodes an element to a format (R55). -/
def kbfDecode (k : Nat) (b : KbfBlock) (i : Nat) (dst : FloatFmt) (rm : Rounding) : Nat × FpFlags :=
  match kbfValue k b i with
  | .fin s n e => dst.round rm s n e false
  | _ => (dst.defaultNan, 0)

/-- The stored bytes of a block's elements (R51). -/
def kbfPack (k : Nat) (es : List Nat) : List Byte :=
  let w := kbfBits k + 1
  bytesOf (kbfBytes k) (es.zipIdx.foldl (fun n p => n + p.1 * 2 ^ (w * p.2)) 0)

/-- Reads the elements of a block from its bytes (R51). -/
def kbfUnpack (k : Nat) (bs : List Byte) : List Nat :=
  let w := kbfBits k + 1
  let n := numOf bs
  (List.range 32).map (fun i => n / 2 ^ (w * i) % 2 ^ w)

/-- A block from its element bytes and its two exponents. -/
def kbfBlock (k : Nat) (bs : List Byte) (e0 e1 : Nat) : KbfBlock := ⟨e0, e1, kbfUnpack k bs⟩

/-- The product of two finite or infinite operands as a term; none where it is a NaN (R57). -/
def termOf : FpVal → FpVal → Option FpVal
  | .fin s m e, .fin t n d => some (.fin (s != t) (m * n) (e + d))
  | .nan _ _, _ => none
  | _, .nan _ _ => none
  | x, y => if x.isZero || y.isZero then none else some (.inf (x.sign != y.sign))

/-- The window sum of finite terms (R56). -/
def windowSum (ts : List FpVal) : Nat :=
  let tops := ts.filterMap (fun t => match t with
    | .fin _ m e => if m = 0 then none else some ((bitLength m : Int) - 1 + e)
    | _ => none)
  match tops with
  | [] => 0
  | x :: xs =>
    let u := xs.foldl max x - 26
    let S := ts.foldl (fun (a : Int) t => match t with
      | .fin s m e => a + (let v : Int := if s then -(m : Int) else m
          if u ≤ e then v * (2 ^ (e - u).toNat : Nat) else v / (2 ^ (u - e).toNat : Nat))
      | _ => a) 0
    (fp32.round .rne (decide (S < 0)) S.natAbs u false).1

/-- One K-step of a floating-point output element (R56, R57): the accumulator, and the products. -/
def kStep (acc : Nat) (ps : List (Option FpVal)) : Nat :=
  let a := fp32.read acc
  match fp32.nanOf [a] with
  | some r => r.1
  | none =>
    if ps.any Option.isNone then fp32.defaultNan
    else
      let ts := a :: ps.filterMap id
      let pos := ts.any (fun t => t == .inf false)
      let neg := ts.any (fun t => t == .inf true)
      if pos && neg then fp32.defaultNan
      else if pos then fp32.infBits
      else if neg then fp32.signed true fp32.infBits
      else windowSum ts

end Sys2Proof.Machine
end

