-- ==== Sys2Proof/Machine/Crypto.lean ====
section
/-!
DEFINITION. The published functions that the trust core applies (R179, R302, R310, R315, R323, R329): AES-256, CMAC,
GCM, XTS, SHA-384, and the counter-mode KDF of NIST SP 800-108 with CMAC. Keys are numbers held little-endian (R4).
-/
namespace Sys2Proof.Machine.Crypto

/-- The AES S-box, entry b in byte b of the number. -/
def sboxTable : Nat := 0x16BB54B00F2D99416842E6BF0D89A18CDF2855CEE9871E9B948ED9691198F8E19E1DC186B95735610EF6034866B53E708A8BBD4B1F74DDE8C6B4A61C2E2578BA08AE7A65EAF4566CA94ED58D6D37C8E779E4959162ACD3C25C2406490A3A32E0DB0B5EDE14B8EE4688902A22DC4F816073195D643D7EA7C41744975FEC130CCDD2F3FF1021DAB6BCF5389D928F40A351A89F3C507F02F94585334D43FBAAEFD0CF584C4A39BECB6A5BB1FC20ED00D153842FE329B3D63B52A05A6E1B1A2C830975B227EBE28012079A059618C323C7041531D871F1E5A534CCF73F362693FDB7C072A49CAFA2D4ADF04759FA7DC982CA76ABD7FE2B670130C56F6BF27B777C63

/-- One S-box entry. -/
def sbox (b : Byte) : Byte := BitVec.ofNat 8 (sboxTable >>> (8 * b.toNat))

/-- Doubling in the field of AES. -/
def xtime (b : Byte) : Byte := (b <<< 1) ^^^ (if b.getLsbD 7 then 0x1B else 0)

/-- XOR of byte strings, as long as the shorter. -/
def xorBytes (x y : List Byte) : List Byte := List.zipWith (fun a b => a ^^^ b) x y

/-- The next word of the AES-256 key schedule, from the words so far, newest first. -/
def nextWord (i : Nat) (rcon : Byte) (ws : List (List Byte)) : List Byte :=
  let prev := ws.headD []
  let old := ws.getD 7 []
  let t := if i % 8 = 0 then
      match (prev.drop 1 ++ prev.take 1).map sbox with
      | a :: r => (a ^^^ rcon) :: r
      | [] => []
    else if i % 8 = 4 then prev.map sbox else prev
  xorBytes old t

/-- The key schedule of AES-256, `n` further words, newest first. -/
def schedule : Nat → Nat → Byte → List (List Byte) → List (List Byte)
  | 0, _, _, ws => ws
  | n + 1, i, rcon, ws => schedule n (i + 1) (if i % 8 = 0 then xtime rcon else rcon) (nextWord i rcon ws :: ws)

/-- Pieces of n elements. -/
def pieces {α : Type} (n : Nat) : Nat → List α → List (List α)
  | 0, _ => []
  | k + 1, l => if l.isEmpty then [] else l.take n :: pieces n k (l.drop n)

/-- The fifteen round keys of a 32-byte key. -/
def roundKeys (key : List Byte) : List (List Byte) :=
  (pieces 4 15 (schedule 52 8 1 (pieces 4 8 key).reverse).reverse).map List.flatten

/-- The row shift of AES on a block in column order. -/
def shiftRows (s : List Byte) : List Byte := (List.range 16).map (fun i => s.getD ((i + 4 * (i % 4)) % 16) 0)

/-- The column mix of AES for one column. -/
def mixColumn : List Byte → List Byte
  | [a, b, c, d] =>
    let t := a ^^^ b ^^^ c ^^^ d
    [a ^^^ t ^^^ xtime (a ^^^ b), b ^^^ t ^^^ xtime (b ^^^ c), c ^^^ t ^^^ xtime (c ^^^ d), d ^^^ t ^^^ xtime (d ^^^ a)]
  | l => l

/-- The rounds of AES after the first key addition. -/
def rounds : List (List Byte) → List Byte → List Byte
  | [], s => s
  | [k], s => xorBytes (shiftRows (s.map sbox)) k
  | k :: ks, s => rounds ks (xorBytes ((pieces 4 4 (shiftRows (s.map sbox))).map mixColumn).flatten k)

/-- AES-256 of one 16-byte block under expanded keys. -/
def aesBlock (ks : List (List Byte)) (b : List Byte) : List Byte :=
  match ks with
  | [] => b
  | k :: r => rounds r (xorBytes b k)

/-- The inverse S-box, entry b in byte b of the number. -/
def invSboxTable : Nat := 0x7D0C2155631469E126D677BA7E042B17619953833CBBEBC8B0F52AAE4D3BE0A0EF9CC9939F7AE52D0D4AB519A97F51605FEC8027591012B131C7078833A8DD1FF45ACD78FEC0DB9A2079D2C64B3E56FC1BBE18AA0E62B76F89C5291D711AF1476EDF751CE837F9E28535ADE72274AC9673E6B4F0CECFF297EADC674F4111913A6B8A130103BDAFC1020F3FCA8F1E2CD00645B3B80558E4F70AD3BC8C00ABD890849D8DA75746155EDAB9EDFD5048706C92B6655DCC5CA4D41698688664F6F87225D18B6D49A25B76B224D92866A12E084EC3FA420B954CEE3D23C2A632947B54CBE9DEC444438E3487FF2F9B8239E37CFBD7F3819EA340BF38A53630D56A0952

/-- One entry of the inverse S-box. -/
def invSbox (b : Byte) : Byte := BitVec.ofNat 8 (invSboxTable >>> (8 * b.toNat))

/-- The inverse of the row shift. -/
def unshiftRows (s : List Byte) : List Byte := (List.range 16).map (fun i => s.getD ((i + 12 * (i % 4)) % 16) 0)

/-- The inverse of the column mix: the mix, three times over. -/
def unmixColumn (c : List Byte) : List Byte := mixColumn (mixColumn (mixColumn c))

/-- The rounds of AES backward, from the last key, before the first key addition. -/
def unrounds : List (List Byte) → List Byte → List Byte
  | [], s => s
  | [k], s => (unshiftRows (xorBytes s k)).map invSbox
  | k :: ks, s => (unshiftRows ((pieces 4 4 (xorBytes (unrounds ks s) k)).map unmixColumn).flatten).map invSbox

/-- AES-256 backward, of one 16-byte block under expanded keys. -/
def aesUnblock (ks : List (List Byte)) (b : List Byte) : List Byte :=
  match ks with
  | [] => b
  | k :: r => xorBytes (unrounds r b) k

/-- A key as bytes. -/
def keyBytes (k : BitVec 256) : List Byte := bytesOf 32 k.toNat

/-- Bytes as a big-endian number. -/
def beNum (bs : List Byte) : Nat := numOf bs.reverse

/-- A big-endian number of n bytes. -/
def beBytes (n v : Nat) : List Byte := (bytesOf n v).reverse

/-- Doubling of a 16-byte string, as CMAC derives its subkeys. -/
def double (b : List Byte) : List Byte :=
  let v := beNum b
  beBytes 16 (((2 * v) % 2 ^ 128) ^^^ (if 2 ^ 127 ≤ v then 0x87 else 0))

/-- AES-256-CMAC: 16 bytes. -/
def cmac (key : BitVec 256) (m : List Byte) : List Byte :=
  let ks := roundKeys (keyBytes key)
  let k1 := double (aesBlock ks (List.replicate 16 0))
  let blocks := pieces 16 (m.length / 16 + 1) m
  let last := blocks.getLastD []
  let tail := if last.length = 16 then xorBytes last k1
    else xorBytes (last ++ 0x80 :: List.replicate (15 - last.length) 0) (double k1)
  (blocks.dropLast ++ [tail]).foldl (fun c b => aesBlock ks (xorBytes c b)) (List.replicate 16 0)

/-- Product in the field of GCM, most significant bit first. -/
def gmul (x y : Nat) : Nat :=
  ((List.range 128).foldl (fun (zv : Nat × Nat) i =>
    (if x.testBit (127 - i) then zv.1 ^^^ zv.2 else zv.1,
     zv.2 / 2 ^^^ (if zv.2 % 2 = 1 then 0xE1 <<< 120 else 0))) (0, y)).1

/-- Zero bytes up to a multiple of 16. -/
def pad16 (m : List Byte) : List Byte := m ++ List.replicate ((16 - m.length % 16) % 16) 0

/-- GHASH under the hash key h. -/
def ghash (h : Nat) (m : List Byte) : Nat :=
  (pieces 16 (m.length / 16 + 1) m).foldl (fun y b => gmul (y ^^^ beNum b) h) 0

/-- The key stream of GCM XORed into a text (encryption and decryption alike). -/
def gcmCrypt (key : BitVec 256) (iv text : List Byte) : List Byte :=
  let ks := roundKeys (keyBytes key)
  let stream := (List.range ((text.length + 15) / 16)).flatMap (fun i => aesBlock ks (iv ++ beBytes 4 (i + 2)))
  xorBytes text stream

/-- The 16-byte tag of GCM over additional data and ciphertext. -/
def gcmTag (key : BitVec 256) (iv aad ct : List Byte) : List Byte :=
  let ks := roundKeys (keyBytes key)
  let h := beNum (aesBlock ks (List.replicate 16 0))
  let lens := beBytes 8 (8 * aad.length) ++ beBytes 8 (8 * ct.length)
  xorBytes (beBytes 16 (ghash h (pad16 aad ++ pad16 ct ++ lens))) (aesBlock ks (iv ++ [0, 0, 0, 1]))

/-- The 80 constants of SHA-384. -/
def shaK : List Nat :=
  [0x428A2F98D728AE22, 0x7137449123EF65CD, 0xB5C0FBCFEC4D3B2F, 0xE9B5DBA58189DBBC,
   0x3956C25BF348B538, 0x59F111F1B605D019, 0x923F82A4AF194F9B, 0xAB1C5ED5DA6D8118,
   0xD807AA98A3030242, 0x12835B0145706FBE, 0x243185BE4EE4B28C, 0x550C7DC3D5FFB4E2,
   0x72BE5D74F27B896F, 0x80DEB1FE3B1696B1, 0x9BDC06A725C71235, 0xC19BF174CF692694,
   0xE49B69C19EF14AD2, 0xEFBE4786384F25E3, 0x0FC19DC68B8CD5B5, 0x240CA1CC77AC9C65,
   0x2DE92C6F592B0275, 0x4A7484AA6EA6E483, 0x5CB0A9DCBD41FBD4, 0x76F988DA831153B5,
   0x983E5152EE66DFAB, 0xA831C66D2DB43210, 0xB00327C898FB213F, 0xBF597FC7BEEF0EE4,
   0xC6E00BF33DA88FC2, 0xD5A79147930AA725, 0x06CA6351E003826F, 0x142929670A0E6E70,
   0x27B70A8546D22FFC, 0x2E1B21385C26C926, 0x4D2C6DFC5AC42AED, 0x53380D139D95B3DF,
   0x650A73548BAF63DE, 0x766A0ABB3C77B2A8, 0x81C2C92E47EDAEE6, 0x92722C851482353B,
   0xA2BFE8A14CF10364, 0xA81A664BBC423001, 0xC24B8B70D0F89791, 0xC76C51A30654BE30,
   0xD192E819D6EF5218, 0xD69906245565A910, 0xF40E35855771202A, 0x106AA07032BBD1B8,
   0x19A4C116B8D2D0C8, 0x1E376C085141AB53, 0x2748774CDF8EEB99, 0x34B0BCB5E19B48A8,
   0x391C0CB3C5C95A63, 0x4ED8AA4AE3418ACB, 0x5B9CCA4F7763E373, 0x682E6FF3D6B2B8A3,
   0x748F82EE5DEFB2FC, 0x78A5636F43172F60, 0x84C87814A1F0AB72, 0x8CC702081A6439EC,
   0x90BEFFFA23631E28, 0xA4506CEBDE82BDE9, 0xBEF9A3F7B2C67915, 0xC67178F2E372532B,
   0xCA273ECEEA26619C, 0xD186B8C721C0C207, 0xEADA7DD6CDE0EB1E, 0xF57D4F7FEE6ED178,
   0x06F067AA72176FBA, 0x0A637DC5A2C898A6, 0x113F9804BEF90DAE, 0x1B710B35131C471B,
   0x28DB77F523047D84, 0x32CAAB7B40C72493, 0x3C9EBE0A15C9BEBC, 0x431D67C49C100D4C,
   0x4CC5D4BECB3E42B6, 0x597F299CFC657E2A, 0x5FCB6FAB3AD6FAEC, 0x6C44198C4A475817]

/-- The initial hash value of SHA-384. -/
def shaInit : List Nat := [0xCBBB9D5DC1059ED8, 0x629A292A367CD507, 0x9159015A3070DD17, 0x152FECD8F70E5939, 0x67332667FFC00B31, 0x8EB44A8768581511, 0xDB0C2E0D64F98FA7, 0x47B5481DBEFA4FA4]

/-- Addition modulo 2^64. -/
def add64 (a b : Nat) : Nat := (a + b) % 2 ^ 64

/-- Rotation right of a 64-bit word. -/
def rotr (n x : Nat) : Nat := x / 2 ^ n + x % 2 ^ n * 2 ^ (64 - n)

/-- The message schedule: n further words, newest first. -/
def shaWords : Nat → List Nat → List Nat
  | 0, ws => ws
  | n + 1, ws =>
    let a := ws.getD 14 0
    let b := ws.getD 1 0
    let s0 := rotr 1 a ^^^ rotr 8 a ^^^ (a / 2 ^ 7)
    let s1 := rotr 19 b ^^^ rotr 61 b ^^^ (b / 2 ^ 6)
    shaWords n (add64 (add64 (ws.getD 15 0) s0) (add64 (ws.getD 6 0) s1) :: ws)

/-- One round of SHA-384 on its eight working words. -/
def shaRound (v : List Nat) (kw : Nat × Nat) : List Nat :=
  match v with
  | [a, b, c, d, e, f, g, h] =>
    let t1 := add64 (add64 h (rotr 14 e ^^^ rotr 18 e ^^^ rotr 41 e))
      (add64 ((e &&& f) ^^^ ((2 ^ 64 - 1 - e) &&& g)) (add64 kw.1 kw.2))
    let t2 := add64 (rotr 28 a ^^^ rotr 34 a ^^^ rotr 39 a) ((a &&& b) ^^^ (a &&& c) ^^^ (b &&& c))
    [add64 t1 t2, a, b, c, add64 d t1, e, f, g]
  | l => l

/-- One block of 128 bytes. -/
def shaBlock (h : List Nat) (block : List Byte) : List Nat :=
  let ws := (shaWords 64 ((pieces 8 16 block).map beNum).reverse).reverse
  List.zipWith add64 h ((shaK.zip ws).foldl shaRound h)

/-- SHA-384: 48 bytes. -/
def sha384 (m : List Byte) : List Byte :=
  let z := (240 - (m.length + 1) % 128) % 128
  let p := m ++ 0x80 :: List.replicate z 0 ++ beBytes 16 (8 * m.length)
  ((pieces 128 (p.length / 128) p).foldl shaBlock shaInit).flatMap (beBytes 8) |>.take 48

/-- The KDF of R310: counter mode, label "KXK", the listed values little-endian as context, 256 bits. The widths
of the counter and of the length, 32 bits big-endian, are those usual for SP 800-108 (PRESUMED, log 5). -/
def kdf (root : BitVec 256) (ctx : List Byte) : BitVec 256 :=
  let part := fun i => cmac root (beBytes 4 i ++ [0x4B, 0x58, 0x4B, 0x00] ++ ctx ++ beBytes 4 256)
  BitVec.ofNat 256 (numOf (part 1 ++ part 2))

/-- The tweaks of the blocks of one XTS data unit: each doubles the one before, least significant byte first. -/
def xtsTweaks : Nat → List Byte → List (List Byte)
  | 0, _ => []
  | n + 1, t => t :: xtsTweaks n (double t.reverse).reverse

/-- AES-256-XTS of a data unit of whole blocks under a key pair, for a tweak value; `back` decrypts. -/
def xts (back : Bool) (key1 key2 : BitVec 256) (tweak : Nat) (text : List Byte) : List Byte :=
  let k1 := roundKeys (keyBytes key1)
  let n := text.length / 16
  let ts := xtsTweaks n (aesBlock (roundKeys (keyBytes key2)) (bytesOf 16 tweak))
  ((pieces 16 n text).zip ts).flatMap (fun p => xorBytes ((if back then aesUnblock k1 else aesBlock k1) (xorBytes p.1 p.2)) p.2)

/-- An elliptic curve y² = x³ + ax + b over the integers modulo p, with a base point of order n. -/
structure Curve where
  p : Nat
  a : Nat
  b : Nat
  gx : Nat
  gy : Nat
  n : Nat

/-- brainpoolP384r1 of RFC 5639, the curve of the identity key (R323). -/
def brainpool : Curve where
  p := 0x8CB91E82A3386D280F5D6F7E50E641DF152F7109ED5456B412B1DA197FB71123ACD3A729901D1A71874700133107EC53
  a := 0x7BC382C63D8C150C3C72080ACE05AFA0C2BEA28E4FB22787139165EFBA91F90F8AA5814A503AD4EB04A8C7DD22CE2826
  b := 0x04A8C7DD22CE28268B39B55416F0447C2FB77DE107DCD2A62E880EA53EEB62D57CB4390295DBC9943AB78696FA504C11
  gx := 0x1D1C64F068CF45FFA2A63A81B7C13F6B8847A3E77EF14FE3DB7FCAFE0CBD10E8E826E03436D646AAEF87B2E247D4AF1E
  gy := 0x8ABE1D7520F9C2A45CB1EB8E95CFD55262B70B29FEEC5864E19C054FF99129280E4646217791811142820341263C5315
  n := 0x8CB91E82A3386D280F5D6F7E50E641DF152F7109ED5456B31F166E6CAC0425A7CF3AB6AF6B7FC3103B883202E9046565

/-- secp384r1, the curve of a session's key exchange (R323). -/
def secp384 : Curve where
  p := 0xFFFFFFFFFFFFFFFFFFFFFFFFFFFFFFFFFFFFFFFFFFFFFFFFFFFFFFFFFFFFFFFEFFFFFFFF0000000000000000FFFFFFFF
  a := 0xFFFFFFFFFFFFFFFFFFFFFFFFFFFFFFFFFFFFFFFFFFFFFFFFFFFFFFFFFFFFFFFEFFFFFFFF0000000000000000FFFFFFFC
  b := 0xB3312FA7E23EE7E4988E056BE3F82D19181D9C6EFE8141120314088F5013875AC656398D8A2ED19D2A85C8EDD3EC2AEF
  gx := 0xAA87CA22BE8B05378EB1C71EF320AD746E1D3B628BA79B9859F741E082542A385502F25DBF55296C3A545E3872760AB7
  gy := 0x3617DE4A96262C6F5D9E98BF9292DC29F8F41DBD289A147CE9DA3113B5F0B8C00A60B1CE1D7E819D7A431D7C90EA0E5F
  n := 0xFFFFFFFFFFFFFFFFFFFFFFFFFFFFFFFFFFFFFFFFFFFFFFFFC7634D81F4372DDF581A0DB248B0A77AECEC196ACCC52973

/-- A power modulo m, of an exponent of k bits. -/
def powMod (m : Nat) : Nat → Nat → Nat → Nat
  | 0, _, _ => 1
  | k + 1, b, e => (if e % 2 = 1 then b else 1) * powMod m k (b * b % m) (e / 2) % m

/-- The inverse modulo a prime of 384 bits or fewer. -/
def invMod (m v : Nat) : Nat := powMod m 384 (v % m) (m - 2)

/-- Points of a curve; none is the point at infinity. -/
abbrev Point := Option (Nat × Nat)

/-- A pair of coordinates names a point of the curve. -/
def Curve.holds (c : Curve) (x y : Nat) : Bool := decide (x < c.p) && decide (y < c.p) && y * y % c.p == (x * x * x + c.a * x + c.b) % c.p

/-- The sum of two points. -/
def Curve.add (c : Curve) : Point → Point → Point
  | none, q => q
  | p, none => p
  | some (x1, y1), some (x2, y2) =>
    if x1 = x2 ∧ (y1 + y2) % c.p = 0 then none
    else
      let l := (if x1 = x2 then (3 * x1 * x1 + c.a) * invMod c.p (2 * y1) else (y2 + c.p - y1) * invMod c.p (x2 + c.p - x1)) % c.p
      let x := (l * l + 2 * c.p - x1 - x2) % c.p
      some (x, (l * (x1 + c.p - x) + c.p - y1) % c.p)

/-- A multiple of a point, of a factor of k bits. -/
def Curve.mul (c : Curve) : Nat → Nat → Point → Point
  | 0, _, _ => none
  | k + 1, v, q => c.add (if v % 2 = 1 then q else none) (Curve.mul c k (v / 2) (c.add q q))

/-- A number of the range from 1 to n - 1 (n the order of the curve) that a seed names. -/
def Curve.scalar (c : Curve) (seed : Nat) : Nat := seed % (c.n - 1) + 1

/-- The x coordinate of a multiple of a point, 0 at infinity. -/
def Curve.xOf (c : Curve) (v : Nat) (q : Point) : Nat := ((c.mul 384 v q).map Prod.fst).getD 0

/-- An ECDSA signature with SHA-384, under a private key and a fresh number (R323): r, then s, 48 bytes each, high byte first, as
SPDM has them (PRESUMED, log 39). -/
def Curve.sign (c : Curve) (key fresh : Nat) (m : List Byte) : List Byte :=
  let r := c.xOf fresh (some (c.gx, c.gy)) % c.n
  beBytes 48 r ++ beBytes 48 (invMod c.n fresh * (beNum (sha384 m) + r * key) % c.n)

end Sys2Proof.Machine.Crypto
end

