-- ==== Sys2Proof/Machine/Translate.lean ====
section
/-!
DEFINITION. Handles and their checks (R142, R300 to R303), the two stages of translation (R278 to R281), and the
places that an access reaches (R17 to R22, R155, R340).
-/
namespace Sys2Proof.Machine

/-- Why an instruction does not complete. -/
inductive Stop where
  /-- a trap: the cause is recorded and the sequencer halts (R93) -/
  | trap (c : Cause)
  /-- a wait under R121, or on an engine slot (R9) -/
  | wait (k : WaitKind)
  /-- a register whose load has not returned: not a wait (R157) -/
  | stall
  /-- a translation fault (R279, R282) -/
  | fault (i : FaultInfo)
  deriving DecidableEq, Repr

/-- Fields of a handle (Table 17-2). -/
def hBase (h : BitVec 256) : Nat := (h.extractLsb' 0 57).toNat
/-- LENGTH, 0 read as 2^40 (Table 17-2). -/
def hLen (h : BitVec 256) : Nat :=
  let n := (h.extractLsb' 57 40).toNat
  if n = 0 then 2 ^ 40 else n
def hRights (h : BitVec 256) : BitVec 8 := h.extractLsb' 97 8
def hTenant (h : BitVec 256) : Nat := (h.extractLsb' 105 10).toNat
def hContext (h : BitVec 256) : Nat := (h.extractLsb' 115 12).toNat
def hSlot (h : BitVec 256) : Nat := (h.extractLsb' 127 10).toNat
def hEpoch (h : BitVec 256) : BitVec 8 := h.extractLsb' 137 8
def hFmt (h : BitVec 256) : Nat := (h.extractLsb' 145 6).toNat
def hFlags (h : BitVec 256) : BitVec 8 := h.extractLsb' 151 8
def hSerial (h : BitVec 256) : Nat := (h.extractLsb' 159 32).toNat
def hValid (h : BitVec 256) : Bool := h.getLsbD 191
def hSeal (h : BitVec 256) : Nat := (h.extractLsb' 192 64).toNat
/-- Flags of Table 17-4. -/
def hHost (h : BitVec 256) : Bool := h.getLsbD 151
def hPeer (h : BitVec 256) : Bool := h.getLsbD 152
def hOnchip (h : BitVec 256) : Bool := h.getLsbD 153
def hPersist (h : BitVec 256) : Bool := h.getLsbD 154
def hCode (h : BitVec 256) : Bool := h.getLsbD 155

/-- Rights masks (Table 17-3). -/
def rightR : BitVec 8 := 0x01
def rightW : BitVec 8 := 0x02
def rightA : BitVec 8 := 0x04
def rightX : BitVec 8 := 0x08
def rightE : BitVec 8 := 0x10
def rightI : BitVec 8 := 0x20
def rightS : BitVec 8 := 0x40
def rightM : BitVec 8 := 0x80

/-- The seal of handle bits [191:0] under a sealing key (R302). -/
def sealOf (key : BitVec 256) (h : BitVec 256) : Nat :=
  numOf ((Crypto.cmac key (bytesOf 24 (h.toNat % 2 ^ 192))).take 8)

/-- A handle with its seal in place (R302, R304). -/
def sealHandle (key : BitVec 256) (h : BitVec 256) : BitVec 256 :=
  BitVec.ofNat 256 (h.toNat % 2 ^ 192 + sealOf key h * 2 ^ 192)

/-- The first five checks of R142, for a tenant: V, seal, tenant, epoch, revoked serial. -/
def State.handleIdCause (s : State) (tenant : Nat) (h : BitVec 256) : Option Cause :=
  if !hValid h then some 0x70
  else match Store.find? s.tenants (hTenant h) with
    | none => some 0x71
    | some t =>
      if sealOf t.sealKey h != hSeal h then some 0x71
      else if hTenant h != tenant then some 0x75
      else if hEpoch h != t.epoch then some 0x76
      else if t.revoked.contains (hSerial h) then some 0x74
      else none

/-- A handle that was good when it was captured has been revoked since, alone or with its epoch (R306). -/
def State.handleGone (s : State) (tenant : Nat) (h : BitVec 256) : Bool := hValid h && (s.handleIdCause tenant h).isSome

/-- The first six checks of R142. -/
def State.handleCause (s : State) (tenant : Nat) (h : BitVec 256) (need : BitVec 8) : Option Cause :=
  match s.handleIdCause tenant h with
  | some c => some c
  | none => if hRights h &&& need = need then none else some 0x72

/-- Every check of R142, with alignment after rights and before bounds (R154); bits [63:41] of an offset are part of
bounds (R153). -/
def State.accessCause (s : State) (tenant : Nat) (h : BitVec 256) (need : BitVec 8) (off len align : Nat) :
    Option Cause :=
  match s.handleCause tenant h need with
  | some c => some c
  | none =>
    if off % align ≠ 0 then some 0x43
    else if 2 ^ 41 ≤ off ∨ hLen h < off + len then some 0x73
    else none

/-- The kind of a translated access; an atomic reads and writes (DEDUCED, log 6). -/
inductive Acc where
  | read | write | atomic | code
  deriving DecidableEq, Repr

/-- The access writes. -/
def Acc.writes : Acc → Bool
  | .write => true | .atomic => true | _ => false

/-- Permissions of a leaf (Table 15-5). -/
structure Perm where
  r : Bool
  w : Bool
  x : Bool
  d : Bool
  deriving DecidableEq, Repr

/-- A leaf permits an access (R279). -/
def Perm.allows (p : Perm) : Acc → Bool
  | .read => p.r
  | .write => p.w
  | .atomic => p.r && p.w
  | .code => p.x

/-- The permissions of a descriptor. -/
def permOf (d : Nat) : Perm := ⟨d.testBit 2, d.testBit 3, d.testBit 4, d.testBit 5⟩

/-- Both stages' permissions (R279). -/
def Perm.meet (p q : Perm) : Perm := ⟨p.r && q.r, p.w && q.w, p.x && q.x, p.d || q.d⟩

/-- A descriptor is present at a level (Table 15-5): `lo` is the lowest bit the level indexes, `next` the bytes of
the table it may name. -/
def present (d level lo next : Nat) : Bool :=
  let leaf := d.testBit 1
  let addr := d % 2 ^ 52 / 256 * 256
  d.testBit 0 && d / 2 ^ 52 == 0 && bitsOf d 7 6 == 0 && !(leaf && level == 4) && (leaf || level != 0)
    && addr % (if leaf then 2 ^ lo else next) == 0

/-- The levels below the root (Table 15-6): level, high bit, low bit, bytes of the table below. -/
def lowLevels : List (Nat × Nat × Nat × Nat) := [(3, 43, 31, 256), (2, 30, 26, 256), (1, 25, 21, 256), (0, 20, 16, 256)]

/-- A leaf found by a walk: the address it gives, its permissions and its size. -/
structure Leaf where
  addr : Nat
  perm : Perm
  size : Nat
  deriving DecidableEq, Repr

/-- Walks tables from a root, reading each descriptor with `rd`; an address that is in no leaf gives none, a table
that cannot be read the reason. -/
def walk {ε : Type} (rd : Nat → Except ε Nat) (missing : ε) (a : Nat) :
    List (Nat × Nat × Nat × Nat) → Nat → Except ε Leaf
  | [], _ => .error missing
  | (level, hi, lo, next) :: ls, table =>
    match rd (table + 8 * bitsOf a hi lo) with
    | .error e => .error e
    | .ok d =>
      if !present d level lo next then .error missing
      else if d.testBit 1 then .ok ⟨d % 2 ^ 52 / 2 ^ lo * 2 ^ lo + a % 2 ^ lo, permOf d, 2 ^ lo⟩
      else walk rd missing a ls (d % 2 ^ 52 / 256 * 256)

/-- The first failing cause over the pieces of a list. -/
def firstCause {α : Type} (f : α → Option Cause) : List α → Option Cause
  | [] => none
  | x :: xs => match f x with
    | some c => some c
    | none => firstCause f xs

/-- Eight bytes of a table, or the error with which their line is read (R374). -/
def State.readTable (s : State) (ls : List Loc) : Except Cause Nat :=
  match firstCause s.readCause ls with
  | some c => .error c
  | none => .ok (numOf (s.readLocs ls))

/-- A descriptor in device-physical memory (R278). The HBM ends at 384 GiB (R5): past it no table lies, and no descriptor is
present (DESIGN CHOICE, log 7). -/
def State.readDescriptor (s : State) (a : Nat) : Except Cause Nat :=
  if Config.hbmBytes < a + 8 then .ok 0 else s.readTable ((List.range 8).map (fun i => .hbm (a + i)))

/-- Second stage (R278): 0x60 where no descriptor is present. A leaf without R, W and X stands for a frame that the
MC has not yet supplied, 0x62 (DESIGN CHOICE, log 7). -/
def State.secondStage (s : State) (part gpa : Nat) : Except Cause Leaf :=
  match Store.find? s.parts part with
  | none => .error 0x60
  | some p =>
    if 2 ^ 52 ≤ gpa then .error 0x60
    else match walk s.readDescriptor 0x60 gpa ((4, 51, 44, 65536) :: lowLevels) p.root with
      | .error e => .error e
      | .ok l => if !l.perm.r && !l.perm.w && !l.perm.x then .error 0x62 else .ok l

/-- Where what the second stage gives lies: through a PERSIST handle in the file store; else in HBM below 384 GiB, and in host
memory from there up, whatever the handle's HOST flag: a page of a HOST handle that was migrated lies in HBM (R5, R263, R278,
Table 17-4; DESIGN CHOICE, log 7). -/
def physLoc (file : Bool) (pa : Nat) : Loc := if file then .file pa else if Config.hbmBytes ≤ pa then .host pa else .hbm pa

/-- First stage (R278): each table read is translated by the second stage and needs its right R; a discarded page of tables
reads as zero (R281), and a poisoned line is an error (R374). -/
def State.firstStage (s : State) (part root va : Nat) : Except FaultInfo Leaf :=
  let bad := fun (c : Cause) (g : Nat) => ({ cause := c, under := 0, va := va, gpa := g, write := false, code := false } : FaultInfo)
  walk (fun g => match s.secondStage part g with
      | .error c => .error (bad c g)
      | .ok l => if !l.perm.r then .error (bad 0x61 g)
        else if l.perm.d then .ok 0
        else match s.readTable ((List.range 8).map (fun i => physLoc false (l.addr + i))) with
          | .error c => .error (bad c g)
          | .ok d => .ok d)
    (bad 0x40 0) va ((4, 56, 44, 65536) :: lowLevels) root

/-- Both stages for one access (R279, R281): permissions of both are checked before D. A discarded page that the second stage
does not map has no permissions there to check (log 7). -/
def State.translateFresh (s : State) (ctx part va : Nat) (acc : Acc) : Except FaultInfo TlbEntry :=
  let bad := fun (c : Cause) (g : Nat) =>
    ({ cause := c, under := 0, va := va, gpa := g, write := acc.writes, code := acc == .code } : FaultInfo)
  match Store.find? s.ctxs ctx with
  | none => .error (bad 0x40 0)
  | some c =>
    match s.firstStage part c.root va with
    | .error i => .error { i with write := acc.writes, code := acc == .code }
    | .ok l1 =>
      let gone : TlbEntry := ⟨ctx, va / Config.pageBytes * Config.pageBytes, Config.pageBytes, 0, l1.perm.r, l1.perm.w, l1.perm.x, true⟩
      if !l1.perm.allows acc then .error (bad 0x41 0)
      else match s.secondStage part l1.addr with
        | .error e =>
          if !l1.perm.d then .error (bad e l1.addr)
          else if acc.writes then .error (bad 0x42 0) else .ok gone
        | .ok l2 =>
          if !l2.perm.allows acc then .error (bad 0x61 l1.addr)
          else if (l1.perm.d || l2.perm.d) && acc.writes then .error (bad 0x42 l1.addr)
          else if l1.perm.d then .ok gone
          else
            let size := Nat.min l1.size l2.size
            let p := l1.perm.meet l2.perm
            .ok ⟨ctx, va / size * size, size, l2.addr / size * size, p.r, p.w, p.x, l2.perm.d⟩

/-- The entry that a die TLB holds for an address and that permits the access (R279). -/
def tlbLookup (tlb : List TlbEntry) (ctx va : Nat) (acc : Acc) : Option TlbEntry :=
  tlb.find? (fun e => e.ctx == ctx && e.va ≤ va && va < e.va + e.size && (Perm.mk e.r e.w e.x e.d).allows acc
    && !(e.d && acc.writes))

/-- The compute die of a core (R5). -/
def dieOf (core : Nat) : Nat := core / Config.clusterCores / 8

/-- The TLB of the die of a core. -/
def State.tlbOf (s : State) (core : Nat) : List TlbEntry := (s.dies[dieOf core]?.map Die.tlb).getD []

/-- How an access regards translations that an invalidation is removing (R252, R253). -/
inductive Mapping where
  /-- the tables as they stand, or an entry that a TLB still holds -/
  | held
  /-- the new mapping only: past a QPT or the CE's marker while an invalidation is pending -/
  | fresh
  /-- the mapping of an earlier time, or what has been mapped since: ahead of the CE's marker (R252) -/
  | old (time : Nat)
  /-- the tables as they stand, or a mapping of a time since: past the QPT for one invalidation and not for a later one (R253) -/
  | since (time : Nat)
  deriving DecidableEq, Repr

/-- A byte of memory as it stands again where a later write is taken back. -/
def State.unwrite (s : State) (l : Loc) (b : Byte) : State :=
  match l with
  | .hbm a => { s with hbm := Memory.write s.hbm (s.hbmAddr a) b }
  | .host a => { s with host := Memory.write s.host a b }
  | _ => s

/-- HBM and host memory as of a time (R252). -/
def State.asOf (s : State) (t : Nat) : State := s.past.foldl (fun (u : State) p => if t < p.time then u.unwrite p.loc p.old else u) s

/-- The oldest of the mappings of an address that permit an access since a time: n times on from it are looked at (R252). -/
def State.translateSince (s : State) (t n ctx part va : Nat) (acc : Acc) : Except FaultInfo TlbEntry :=
  match (List.range n).findSome? (fun i => ((s.asOf (t + i)).translateFresh ctx part va acc).toOption) with
  | some e => .ok e
  | none => s.translateFresh ctx part va acc

/-- Translates one address of an access (R278 to R281). A TLB may have dropped any entry, so whether an entry that is
listed is used is a free value; the entry of a new walk is listed by the caller. An old mapping is the oldest that the tables have
given since its time (R252). -/
def State.translate (s : State) (core ctx part va : Nat) (acc : Acc) (m : Mapping) : Except FaultInfo TlbEntry :=
  match m with
  | .old t => s.translateSince t (s.writes + 1 - t) ctx part va acc
  | .fresh => s.translateFresh ctx part va acc
  | .since t =>
    if Config.tlbHolds s.draws (va / Config.pageBytes) then s.translateSince t (s.writes + 1 - t) ctx part va acc
    else s.translateFresh ctx part va acc
  | .held =>
    match (if Config.tlbHolds s.draws (va / Config.pageBytes) then tlbLookup (s.tlbOf core) ctx va acc else none) with
    | some e => .ok e
    | none => s.translateFresh ctx part va acc

/-- Lists a translation in the TLB of a core's die, in place of one for the same page; the TLB holds 8,192 (R279,
Table 0-1). Which entry of a full TLB makes way the manual leaves open: the model drops the one listed longest ago (DESIGN CHOICE,
log 2). -/
def State.noteTlb (s : State) (core : Nat) (e : TlbEntry) : State :=
  if (s.tlbOf core).contains e then s
  else { s with dies := modAt s.dies (dieOf core) (fun d =>
    { d with tlb := (e :: d.tlb.filter (fun x => x.ctx != e.ctx || x.va != e.va)).take Config.tlbEntries }) }

/-- Lists the translation of an access, where its mapping is not one that an invalidation is removing (R252). -/
def State.noteEntry (s : State) (core : Nat) (e : TlbEntry) : Mapping → State
  | .old _ => s
  | .since _ => s
  | _ => s.noteTlb core e

/-- The context, partition and tenant for which an access is made. -/
structure Who where
  core : Nat
  tenant : Nat
  ctx : Nat
  part : Nat
  deriving DecidableEq, Repr

/-- The place of byte `i` of an access that translates to entry `e`. -/
def entryLoc (file : Bool) (e : TlbEntry) (va : Nat) : Loc :=
  if e.d then .discarded else physLoc file (e.pa + (va - e.va))

/-- What stops an access whose translation fails: a translation fault, which in an engine's first stage is 0x48 with its
underlying cause (R279), or the machine check or integrity failure with which a table was read, which is not restartable (R287,
R374). -/
def FaultInfo.stop (i : FaultInfo) (engine : Bool) : Stop :=
  if 0x90 ≤ i.cause.toNat then .trap i.cause
  else .fault (if engine ∧ i.cause.toNat / 16 = 4 then { i with cause := 0x48, under := i.cause } else i)

/-- Translates the pages of a range. One that ends above 2^57 is refused before any walk (R278). -/
def State.locateRange (s : State) (w : Who) (file : Bool) (acc : Acc) (engine : Bool) (m : Mapping) :
    Nat → Nat → Nat → Except Stop (State × List Loc)
  | 0, _, _ => .ok (s, [])
  | n + 1, va, len =>
    if len = 0 then .ok (s, [])
    else if 2 ^ 57 < va + len then .error (.trap 0x44)
    else
      let k := Nat.min len (Config.pageBytes - va % Config.pageBytes)
      match s.translate w.core w.ctx w.part va acc m with
      | .error i => .error (i.stop engine)
      | .ok e =>
        match State.locateRange (s.noteEntry w.core e m) w file acc engine m n (va + k) (len - k) with
        | .error x => .error x
        | .ok (t, ls) => .ok (t, (List.range k).map (fun i => entryLoc file e (va + i)) ++ ls)

/-- The partition that owns a cluster (R339). -/
def State.clusterPart (s : State) (k : Nat) : Option Nat :=
  (List.find? (fun p : Nat × Partition => p.2.clusters.contains k) s.parts).map Prod.fst

/-- The checks of an access through a window (R19, R21), after those of R142: M is a right of the handle. -/
def State.windowCause (s : State) (w : Who) (h : BitVec 256) (off : Nat) : Option Cause :=
  if off < 0x40000000 then
    let c := off / 0x200000
    if c = w.core then none
    else if s.clusterPart (c / Config.clusterCores) ≠ some w.part then some 0x41
    else match (s.core c).task with
      | some t => if t.tenant = w.tenant then none else some 0x75
      | none => some 0x75
  else if off < 0x48000000 then
    let k := (off - 0x40000000) / 0x400000
    if s.clusterPart k ≠ some w.part then some 0x41
    else if Store.find? s.clusterTenant k = some w.tenant then none else some 0x75
  else if hValid h then none else some 0x70

/-- The place of an on-chip offset (R17, R21). An offset past the last window is unassigned (DESIGN CHOICE, log 8). -/
def onchipLoc (off : Nat) : Loc :=
  if off < 0x40000000 then .win (off / 0x200000) (off % 0x200000)
  else if off < 0x48000000 then
    let x := (off - 0x40000000) % 0x400000
    clusterLoc ((off - 0x40000000) / 0x400000) x
  else .win (off / 0x200000) 0x1FFFFF

/-- The M right that a window of another core needs (R19): part of the rights check. -/
def needM (core : Nat) (h : BitVec 256) (off len : Nat) : Bool :=
  hOnchip h && decide (hBase h + off < 0x40000000) && ((hBase h + off) / 0x200000 != core || (hBase h + off + len - 1) / 0x200000 != core)

/-- The ports of a partition in ascending order (R339). -/
def State.portsOf (s : State) (part : Nat) : List Nat :=
  (List.range 16).filter (fun k => ((Store.find? s.parts part).map (fun p => p.ports.contains k)).getD false)

/-- The ports of a partition whose links are open, in ascending order (R324). -/
def State.openPorts (s : State) (part : Nat) : List Nat := (s.portsOf part).filter (fun k => (s.links[k]?.bind Link.peer).isSome)

/-- Those of them on whose planes the link of a peer module is not closed (R324, R339). -/
def State.portsTo (s : State) (part rank : Nat) : List Nat := (s.openPorts part).filter (fun k => !s.peersDown.contains (rank, k))

/-- A peer module can be reached through an owned port (R339). -/
def State.reachesPeer (s : State) (part rank : Nat) : Bool := !(s.portsTo part rank).isEmpty

/-- Every other module of a process group can be reached (R339). -/
def State.reachesAll (s : State) (part : Nat) (g : Group) : Bool := (List.range g.size).all (fun r => r == g.rank || s.reachesPeer part r)

/-- Frames that carry chunks of up to 4 KiB leave by open ports in ascending order, one after another (R339): each sender's
sequence number moves on (R337). -/
def State.sendChunks (s : State) (ports : List Nat) (first n : Nat) : State :=
  let k := ports.length
  ports.zipIdx.foldl (fun (t : State) p =>
    { t with links := modAt t.links p.1 (fun l => { l with sent := l.sent + (List.range n).countP (fun j => (first + j) % k == p.2) }) }) s

/-- What an access meets at a peer module: 0xC4 where no owned port reaches it (R339), or a translation fault there, which ends
the requesting task (R340): a free value. -/
def State.peerCause (s : State) (part rank va : Nat) : Option Cause :=
  if s.reachesPeer part rank then ([0x40, 0x41, 0x42, 0x60, 0x61, 0x62] : List Cause)[Config.peerFault s.draws va]? else some 0xC4

/-- The places that `len` bytes at an offset of a handle reach, once the checks of R142 have passed: window checks
after bounds (R19, R21), translation otherwise (R278); a write to a window's read-only part is refused (Table 1-2). Through
a PEER handle the module's own rank is its own memory, and the aperture takes no plain access (DESIGN CHOICE, log 8). -/
def State.locate (s : State) (w : Who) (h : BitVec 256) (off len : Nat) (acc : Acc) (engine : Bool) (m : Mapping) :
    Except Stop (State × List Loc) :=
  if hOnchip h then
    let a := hBase h + off
    match firstCause (fun i => s.windowCause w h (a + i)) (if len ≤ 1 then [0] else [0, len - 1]) with
    | some c => .error (.trap c)
    | none =>
      let ls := (List.range len).map (fun i => onchipLoc (a + i))
      match (if acc.writes then firstCause (fun l => match l with | .win _ o => winWriteCause o | _ => none) ls else none) with
      | some c => .error (.trap c)
      | none => .ok (s, ls)
  else
    let va := hBase h + off
    if 2 ^ 57 < va + len then .error (.trap 0x44)
    else if hPeer h then
      let g := (s.core w.core).task.map Task.group
      let rank := va / 2 ^ 50 % 64
      if va.testBit 56 ∨ (g.map Group.size).getD 1 ≤ rank then .error (.trap 0x73)
      else if rank = (g.map Group.rank).getD 0 then
        s.locateRange w false acc engine m (len / Config.pageBytes + 2) (va % 2 ^ 50) len
      else match s.peerCause w.part rank va with
        | some c => .error (.trap c)
        | none => .ok (s.sendChunks (s.portsTo w.part rank) 0 ((len + 4095) / 4096), (List.range len).map (fun i => .peer rank ((va + i) % 2 ^ 50)))
    else s.locateRange w (hPersist h) acc engine m (len / Config.pageBytes + 2) va len

/-- A place is local to a core: it lies in the core's own window (R155). An access through the cluster window is
remote even where the core holds the byte. -/
def localAccess (core : Nat) (h : BitVec 256) (off : Nat) : Bool :=
  hOnchip h && decide ((hBase h + off) / 0x200000 = core) && decide (hBase h + off < 0x40000000)

end Sys2Proof.Machine
end

