-- ==== Sys2Proof/Machine/Ops.lean ====
section
/-!
DEFINITION. The operations that every meaning is built from: the issuing sequencer, its registers and declarations,
reading code, moving past a unit, transferring control, waiting, and taking a trap or a fault (R20, R29, R70 to R93,
R102, R121, R282 to R285).
-/
namespace Sys2Proof.Machine

/-- The issuing core. -/
def State.cur (s : State) : Core := s.core s.curCore

/-- The issuing sequencer. -/
def State.seq (s : State) : SeqState := s.cur.seqs.get s.curSq

/-- Replaces the issuing core. -/
def State.setCur (s : State) (c : Core) : State := s.setCore s.curCore c

/-- Changes the issuing core. -/
def State.modCur (s : State) (f : Core → Core) : State := s.setCur (f s.cur)

/-- Changes the issuing sequencer. -/
def State.modSeq (s : State) (f : SeqState → SeqState) : State := s.modCur (fun c => c.modSeq s.curSq f)

/-- A core that runs no task declares nothing. -/
def Decl.none : Decl := ⟨Quad.all 0, 0, 0, 0, 0, 0, 0, false⟩

/-- The declarations of the running task (R26). -/
def Core.decl (c : Core) : Decl := (c.task.map Task.decl).getD Decl.none

/-- For whom a core makes accesses: nobody's tenant, context and partition where it runs no task. -/
def Core.who (c : Core) (n : Nat) : Who :=
  match c.task with
  | some t => ⟨n, t.tenant, t.ctx, t.part⟩
  | Option.none => ⟨n, 1024, 4096, 16⟩

/-- For whom the issuing core makes accesses. -/
def State.who (s : State) : Who := s.cur.who s.curCore

/-- Register r of the issuing sequencer is declared (R26). -/
def State.declares (s : State) (r : Nat) : Bool := decide (r < s.cur.decl.scalars.get s.curSq)

/-- A condition whose failure traps. -/
def need (b : Bool) (c : Cause) : Except Stop Unit := if b then .ok () else .error (.trap c)

/-- The instruction is executable by the issuing sequencer, else 0x03 (R6, R91). -/
def State.only (s : State) (qs : List Sq) : Except Stop Unit := need (qs.contains s.curSq) 0x03

/-- The registers are declared, else 0x21 (R26). -/
def State.scalars (s : State) (rs : List Nat) : Except Stop Unit := need (rs.all s.declares) 0x21

/-- Reads a source register of a sequencer: s31 but in ld gives the oldest entry of the receive queue, once it is
filled (R12, R102); a register whose load has not returned stalls (R157). -/
def SeqState.src (x : SeqState) (q : Sq) (i : Nat) : Except Stop (Word × Taint) :=
  if i = 31 ∧ q ≠ .ld then
    match x.rq with
    | [] => .error (.wait .receive)
    | e :: _ =>
      match e.value with
      | none => .error (.wait .receive)
      | some v => .ok (v, e.taint)
  else if i ≠ 0 ∧ (x.pending[i]?.getD none).isSome then .error .stall
  else .ok (x.reg i, x.set i)

/-- Reads a source register of the issuing sequencer. -/
def State.src (s : State) (i : Nat) : Except Stop (Word × Taint) := s.seq.src s.curSq i

/-- Frees the oldest entry of the receive queue where s31 is among the sources, however often (R12, R102). -/
def SeqState.pop (x : SeqState) (q : Sq) (rs : List Nat) : SeqState :=
  if q ≠ .ld ∧ rs.contains 31 then { x with rq := x.rq.drop 1 } else x

/-- Pops the receive queue of the issuing sequencer where s31 is among the sources. -/
def State.pop (s : State) (rs : List Nat) : State := s.modSeq (fun x => x.pop s.curSq rs)

/-- Writes a register of the issuing sequencer with its taint set (R102, R103). -/
def State.put (s : State) (i : Nat) (v : Word) (t : Taint) : State := s.modSeq (fun x => x.put s.curSq i v t)

/-- Adds to the control taint of the issuing sequencer (R107, R118). -/
def State.addControl (s : State) (t : Taint) : State := s.modSeq (fun x => { x with ctlTaint := x.ctlTaint ||| t })

/-- Writes a predicate of the issuing sequencer. -/
def State.putPred (s : State) (i : Nat) (b : Bool) : State :=
  s.modSeq (fun x => { x with preds := if b then x.preds ||| ((1 : BitVec 8) <<< (i % 8)) else x.preds &&& ~~~((1 : BitVec 8) <<< (i % 8)) })

/-- A predicate of the issuing sequencer. -/
def State.pred (s : State) (i : Nat) : Bool := s.seq.preds.getLsbD (i % 8)

/-- The unit that has issued leaves PB coverage by one (R81, R84). -/
def SeqState.passUnit (x : SeqState) : SeqState :=
  { x with pb := x.pb.bind (fun p => if p.passed + 1 < p.count then some { p with passed := p.passed + 1 } else none) }

/-- Moves on to a parcel offset: past the body's last parcel the next pass begins, or, after the last pass, the
parcel that should hold the next HDR (R70, R72). -/
def SeqState.goTo (x : SeqState) (pc : Nat) : SeqState :=
  if pc < x.hdr + 2 + x.length then { x with pc := pc }
  else if 0 < x.passes then { x with pc := x.hdr + 2, passes := x.passes - 1, pb := none }
  else { x with pc := x.hdr + 2 + x.length, inBody := false, pb := none, granules := [] }

/-- The sequencer runs and waits on nothing. -/
def SeqState.resume (x : SeqState) : SeqState := { x with run := .running, waitOn := none, mark := none }

/-- Moves past an instruction of n parcels that has completed. Under REP the next repeat follows, and after the last
the unit is complete (R77). -/
def SeqState.advance (x : SeqState) (n : Nat) : SeqState :=
  match x.rep with
  | some r =>
    if r.done < bitsOf r.parcel.toNat 5 0 then { x with rep := some { r with done := r.done + 1 } }
    else ({ x with rep := none } : SeqState).passUnit.goTo (x.pc + 1 + n)
  | none => x.passUnit.goTo (x.pc + n)

/-- The issuing sequencer has completed an instruction of n parcels. -/
def State.retire (s : State) (n : Nat) : State :=
  s.modCur (fun c => { c.modSeq s.curSq (fun x => (x.advance n).resume) with lastActive := s.cycle })

/-- A sequencer that was not waiting begins to wait: the watchdog counts from here (R39). -/
def Core.beginWait (c : Core) (q : Sq) (cycle : Nat) : Core :=
  if (c.seqs.get q).run = .waiting then c else { c with lastActive := cycle }

/-- The issuing sequencer waits (R121): STATE is 2, and the instruction issues again. -/
def State.await (s : State) (k : WaitKind) : State :=
  s.modCur (fun c => (c.beginWait s.curSq s.cycle).modSeq s.curSq (fun x => { x with run := .waiting, waitOn := some k }))

/-- The issuing sequencer waits for the second part of an instruction whose first part has taken place. -/
def State.awaitMark (s : State) (k : WaitKind) (m : WaitMark) : State :=
  s.modCur (fun c => (c.beginWait s.curSq s.cycle).modSeq s.curSq (fun x => { x with run := .waiting, waitOn := some k, mark := some m }))

/-- Halts a sequencer with a cause: CAUSE holds it, PC stays at the unit, STATE is 4 (R93). -/
def SeqState.halt (x : SeqState) (c : Cause) : SeqState := { x with cause := c, run := .halted, waitOn := none, mark := none }

/-- The fault ring of a TDI has room (R284, R285). -/
def Tdi.room (t : Tdi) : Bool := decide (t.frsize ≠ 0) && decide ((t.frprod - t.frcons).toNat < 2 ^ t.frsize)

/-- A TDI; one that nothing has touched is as after reset. -/
def State.tdi (s : State) (n : Nat) : Tdi := Store.getD s.tdis n Tdi.reset

/-- The core that a faulting unit belongs to; a candidate's read has none. -/
def FaultUnit.core : FaultUnit → Option Nat
  | .seq c _ => some c
  | .copy c _ => some c
  | .me c => some c
  | .coll c _ => some c
  | .candidate _ _ => none

/-- The unit number of Table 15-8 and, for a copy, the issuing sequencer. -/
def State.unitCode (s : State) : FaultUnit → Nat
  | .seq _ q => q.num
  | .copy c i => 4 + ((s.core c).copies.find? (fun k => k.id == i)).elim 0 (fun k => k.sq.num * 2 ^ 27)
  | .me _ => 5
  | .coll _ _ => 6
  | .candidate _ _ => 7

/-- What Table 15-8 puts at offset 0x18: a PC, a copy's issue number, RPROG or a collective id. -/
def State.unitPlace (s : State) : FaultUnit → Nat
  | .seq c q => ((s.core c).seqs.get q).pc
  | .copy c i => ((s.core c).copies.find? (fun k => k.id == i)).elim 0 (fun k => k.issue.toNat)
  | .me c => (s.core c).me.active.elim 0 MeOp.prog
  | .coll _ i => i
  | .candidate _ r => r

/-- The entry that a fault writes to the guest's ring (Table 15-8). -/
def State.ringEntry (s : State) (f : FaultRec) : List Byte :=
  let core := f.unit.core.getD 0
  let t := (s.core core).task
  let u := s.unitCode f.unit
  let low := f.info.cause.toNat + u % 8 * 2 ^ 8 + 2 ^ 16 + (if f.info.write then 2 ^ 17 else 0)
    + (if f.info.code then 2 ^ 18 else 0) + f.info.under.toNat * 2 ^ 19 + u / 2 ^ 27 * 2 ^ 27
  bytesOf 4 low ++ bytesOf 4 ((t.map Task.ctx).getD 0 + core * 2 ^ 16) ++ bytesOf 8 f.info.va
    ++ bytesOf 4 ((t.map (fun t => t.number.toNat)).getD 0) ++ bytesOf 4 f.id
    ++ bytesOf 4 (s.unitPlace f.unit) ++ bytesOf 4 ((t.map Task.queue).getD 0)

/-- A fault goes to the guest's ring: not a second-stage fault, which goes to the MC (R284, R286). -/
def FaultInfo.toGuest (i : FaultInfo) : Bool := i.cause.toNat / 16 == 4

/-- Writes a fault to its ring and advances FRPROD where there is room and the ring can be written; otherwise the
fault is held (R285), as it is while the ring's page is being copied (R295). -/
def State.writeRing (s : State) (f : FaultRec) : State :=
  let t := s.tdi f.tdi
  let core := f.unit.core.getD 0
  if !t.room then s
  else
    let va := t.frbase.toNat % 2 ^ 57 + t.frprod.toNat % 2 ^ t.frsize * 32
    match s.locateRange ((s.core core).who core) false .write false .held 2 va 32 with
    | .error _ => s
    | .ok (s1, ls) =>
      if s1.copying ls then s
      else
      let s2 := s1.writeLocs (ls.zip (s.ringEntry f))
      { s2 with tdis := Store.put f.tdi { t with frprod := t.frprod + 1 } s2.tdis,
                faults := s2.faults.map (fun g => if g.id = f.id then { g with held := false, beyond := false } else g) }

/-- FSTAT of a TDI: the faults held for lack of ring space (Table 15-7). -/
def State.fstat (s : State) (tdi : Nat) : Nat := s.faults.countP (fun f => f.tdi == tdi && f.held && !f.beyond)

/-- Records a restartable fault of a unit (R283) and delivers it (R284). At most 64 are held for a TDI; beyond, the unit
stays halted and raises its fault afresh when there is space (R285). -/
def State.addFault (s : State) (u : FaultUnit) (tdi : Nat) (i : FaultInfo) : State :=
  let f : FaultRec := ⟨s.nextFault, u, i, tdi, i.toGuest, i.toGuest && !(s.tdi tdi).room && decide (Config.maxHeld ≤ s.fstat tdi)⟩
  let s1 := { s with faults := s.faults ++ [f], nextFault := (s.nextFault + 1) % 2 ^ 32 }
  if i.toGuest && !f.beyond then s1.writeRing f else s1

/-- A translation fault is restartable, unless it is a first-stage fault and the guest's ring is disabled (R282,
R284). -/
def State.restartable (s : State) (tdi : Nat) (i : FaultInfo) : Bool :=
  !i.toGuest || decide ((s.tdi tdi).frsize ≠ 0)

/-- TAKING A TRAP OR A FAULT, one operation for every instruction: what becomes of the issuing sequencer when its
instruction does not complete. Nothing else changes but, for a restartable fault, the record of it (R93, R102, R283). -/
def State.stop (s : State) : Stop → State
  | .trap c => s.modSeq (fun x => x.halt c)
  | .wait k => s.await k
  | .stall => s
  | .fault i =>
    let tdi := (s.cur.task.map Task.tdi).getD 0
    let s1 := s.modSeq (fun x => x.halt i.cause)
    if s.restartable tdi i then s1.addFault (.seq s.curCore s.curSq) tdi i else s1

/-- The outcome of an instruction: its next state, or the state in which it has stopped. -/
def finish (s : State) (m : Except Stop State) : Host.Outcome State Fault Refusal :=
  match m with
  | .ok t => .next t
  | .error e => .next (s.stop e)

/-- The mapping that an access of a sequencer uses (R253): none older than that of the last invalidation for which it has passed a
QPT, and with no other pending only the new one. -/
def Core.mapping (c : Core) (q : Sq) : Mapping :=
  match (c.invals.filter (fun i => i.passed.get q)).getLast? with
  | none => .held
  | some i => if c.invals.all (fun i => i.passed.get q) then .fresh else .since i.time

/-- One parcel of the code, reading its granule through the code handle where the sequencer has not read it since it
entered the block (R67, R75, R280). The handle is checked at the read, as at every use (R142). -/
def State.parcel (s : State) (p : Nat) : Except Stop (State × Parcel) :=
  match Store.find? s.seq.granules (p / 16) with
  | some g => .ok (s, g.extractLsb' (p % 16 * 16) 16)
  | none =>
    match s.cur.task with
    | none => .error (.trap 0x70)
    | some t =>
      match s.handleCause t.tenant t.code rightX with
      | some c => .error (.trap c)
      | none => do
        let (s1, ls) ← s.locate s.who t.code (p / 16 * 32) 32 .code false (s.cur.mapping s.curSq)
        match firstCause s1.readCause ls with
        | some c => .error (.trap c)
        | none =>
          let g := BitVec.ofNat 256 (numOf (s1.readLocs ls))
          .ok (s1.modSeq (fun x => { x with granules := Store.put (p / 16) g x.granules }), g.extractLsb' (p % 16 * 16) 16)

/-- The n parcels from offset p upward. -/
def State.parcels (s : State) : Nat → Nat → Except Stop (State × List Parcel)
  | 0, _ => .ok (s, [])
  | n + 1, p => do
    let (s1, x) ← s.parcel p
    let (s2, xs) ← State.parcels s1 n (p + 1)
    .ok (s2, x :: xs)

/-- A parcel begins an HDR word: a long word of major 0x00 (R68, R70). -/
def isHdrParcel (p : Parcel) : Bool := sfld p 8 8 == 0xC0

/-- The parcel offset one past the code (R67). -/
def State.codeEnd (s : State) : Nat := 32 + s.cur.decl.codeLen

/-- Transfers control to a parcel offset (R72, R74): the target must be an HDR parcel of the code, else 0x04. The
block is entered anew, with nothing of it read but the granule of its HDR (R75), and PB coverage is abandoned (R82). -/
def State.transfer (s : State) (target : Int) : Except Stop State := do
  need (decide (32 ≤ target) && decide (target < (s.codeEnd : Int))) 0x04
  let p := target.toNat
  let (s1, x) ← State.parcel (s.modSeq (fun x => { x with granules := [] })) p
  need (isHdrParcel x) 0x04
  .ok (s1.modCur (fun c => { c.modSeq s.curSq (fun x =>
    { x with pc := p, inBody := false, passes := 0, pb := none, rep := none }.resume) with lastActive := s.cycle }))

/-- A completed instruction that may transfer control: to the target where the condition holds, else past it. -/
def State.branch (s : State) (n : Nat) (cond : Bool) (target : Int) : Except Stop State :=
  if cond then s.transfer target else .ok (s.retire n)

/-- The handle register of a number, once it is declared (0x25, R26). -/
def State.handleReg (s : State) (h : Nat) : Except Stop (BitVec 256) := do
  need (decide (h < s.cur.decl.handles)) 0x25
  .ok (s.cur.handles[h]?.getD 0)

/-- Every check of a handle for an access at an offset, then its places (R142, R153, R154, R19, R21, R280). -/
def State.reach (s : State) (h : BitVec 256) (right : BitVec 8) (off len align : Nat) (acc : Acc) :
    Except Stop (State × List Loc) :=
  let w := s.who
  let right := if needM w.core h off len then right ||| rightM else right
  match s.accessCause w.tenant h right off len align with
  | some c => .error (.trap c)
  | none => s.locate w h off len acc false (s.cur.mapping s.curSq)

/-- Reads bytes at once, as an access that is performed before its sequencer goes on: a row that is not yet verified
waits (R181), an error in the array or its tag traps (R155, R374). -/
def State.readNow (s : State) (ls : List Loc) : Except Stop (List Byte) :=
  if ls.any s.unverified then .error (.wait .other)
  else match firstCause s.readCause ls with
    | some c => .error (.trap c)
    | none => .ok (s.readLocs ls)

/-- Two accesses touch a common byte. -/
def overlap (x y : List Loc) : Bool := x.any (fun l => y.contains l)

/-- An access of a sequencer to the same bytes is still to come: a store that has not performed, or a load whose value is not
yet read. An access that acts at once waits for it (R230). -/
def Core.inWay (c : Core) (q : Sq) (ls : List Loc) : Bool :=
  c.stores.any (fun x => x.sq == q && overlap x.locs ls) || c.loads.any (fun l => l.sq == q && l.value.isNone && overlap l.locs ls)

/-- ld has read bytes as of a time (R230). -/
def Core.saw (c : Core) (ls : List Loc) (t : Nat) : Core :=
  { c with seen := ls.map (fun l => (l, t)) ++ c.seen.filter (fun p => !ls.contains p.1) }

/-- What the issuing sequencer reads or writes at once it finds as it stands; ld reads no older value later (R230). -/
def State.touched (s : State) (ls : List Loc) : State := s.modCur (fun c => if s.curSq = .ld then c.saw ls s.writes else c)

/-- The issuing sequencer has read bytes at once: what it has joined is ordered before the read, and what was read before what
follows (R231, R248). -/
def State.saw (s : State) (ls : List Loc) : State := ((s.carry s.curCore s.curSq).observed s.writes ls).touched ls

/-- The issuing sequencer writes bytes at once, after what it has joined (R248). -/
def State.writeNow (s : State) (m : List (Loc × Byte)) : State := ((s.carry s.curCore s.curSq).writeLocs m).touched (m.map Prod.fst)

/-- Everything performed is ordered before the later loads of ld, where ld issues (R134, R166). -/
def State.acquireAll (s : State) : State := s.modCur (fun c => if s.curSq = .ld then { c with floor := s.writes } else c)

/-- Bytes with times are added to others, each with the latest time at which it stands among both. -/
def addTimes (old new : List (Loc × Nat)) : List (Loc × Nat) :=
  new.foldl (fun (m : List (Loc × Nat)) p =>
    if m.any (fun q => q.1 == p.1 && decide (p.2 ≤ q.2)) then m else p :: m.filter (fun q => q.1 != p.1)) old

/-- What other sequencers have handed on is ordered before the later loads of ld, where ld issues (R235). -/
def State.takeOver (s : State) : State :=
  s.modCur (fun c => if s.curSq = .ld then { c with floor := Nat.max c.floor c.handed, seen := addTimes c.seen c.given } else c)

/-- A token or an advance of ex or ctl hands on their accesses, which are performed before they go on; one of st hands on what a
FENCE of st has covered, and its spills and fills (R235). -/
def State.handOn (s : State) : State :=
  s.modCur (fun c => match s.curSq with
    | .ld => c
    | .st => { c with handed := Nat.max c.handed c.fenced, given := addTimes c.given c.spilt }
    | _ => { c with handed := s.writes })

/-- st has accessed bytes at once, in a spill or a fill: it issues nothing further until that is performed, and what it has joined
is ordered before it (R235, R248). -/
def State.spills (s : State) (ls : List Loc) : State :=
  let joined := (s.past.filter (fun p => p.by s.curCore && p.joined.st && !p.stored)).map (fun p => (p.loc, p.time))
  s.modCur (fun c => if s.curSq = .st then { c with spilt := addTimes c.spilt (joined ++ ls.map (fun l => (l, s.writes))) } else c)

/-- The issuing sequencer joins the engine writes whose completion object it has observed (R248). -/
def State.joinObject (s : State) (code : Nat) : State :=
  s.joins s.curCore s.curSq (fun a => match a with
    | .object c => c == code
    | .landed _ _ c => c == code
    | _ => false)

/-- The loads that a taint set stands for (R237, R241). -/
def Core.loadsOf (c : Core) (t : Taint) : List Nat :=
  c.tags.flatMap (fun p => if t.getLsbD p.1 then p.2 else [])

/-- A load that an access depends on has not performed. -/
def Core.blocked (c : Core) (deps : List Nat) : Bool := c.loads.any (fun l => !l.performed && deps.contains l.id)

/-- A persistent SAVE of the core's ctl waits for its commit: the other sequencers, the CE and the ME stand still (R149). -/
def Core.saving (c : Core) : Bool :=
  match c.seqs.ctl.mark with
  | some (.save _) => true
  | _ => false

/-- Every load, store and atomic that a sequencer has issued has performed. -/
def Core.quiet (c : Core) (q : Sq) : Bool := c.loads.all (fun l => l.performed || l.sq != q) && c.stores.all (fun x => x.sq != q)

/-- A fresh free value is drawn: the counter of draws moves on. -/
def State.draw (s : State) : State := { s with draws := s.draws + 1 }

end Sys2Proof.Machine
end

