-- ==== Sys2Proof/Machine/Fetch.lean ====
section
/-!
DEFINITION. Fetching the issue unit at the pc (R67 to R72), what REP makes of its target (R77 to R79), the units
that PB covers (R82), and the checks that depend on the bits of the code alone (R83, R91).
-/
namespace Sys2Proof.Machine

/-- Parcels left in the body from offset p. -/
def SeqState.left (x : SeqState) (p : Nat) : Nat := x.hdr + 2 + x.length - p

/-- The parcels of the instruction at offset p of a body: one, two, or four with a literal. An HDR inside a body is
0x05, parcels that do not all lie within the body are 0x06 (R71). -/
def State.fetchParcels (s : State) (p : Nat) : Except Stop (State × List Parcel) := do
  let room := s.seq.left p
  need (decide (1 ≤ room)) 0x06
  let (s1, a) ← s.parcel p
  need (!isHdrParcel a) 0x05
  if !isLongParcel a then .ok (s1, [a])
  else do
    need (decide (2 ≤ room)) 0x06
    let (s2, b) ← s1.parcel (p + 1)
    if !hasLiteral (wordOfParcels a b) then .ok (s2, [a, b])
    else do
      need (decide (4 ≤ room)) 0x06
      let (s3, l) ← s2.parcels 2 (p + 2)
      .ok (s3, a :: b :: l)

/-- Decodes the parcels of an instruction: 0x01 or 0x02 where they are none (R91). -/
noncomputable def decodeUnit (ps : List Parcel) : Except Stop (Instr × Nat) :=
  match decode ps with
  | .error c => .error (.trap c)
  | .ok (i, n) => if i.wf then .ok (i, n) else .error (.trap 0x02)

/-- The instruction at offset p of the body (R91). -/
noncomputable def State.fetchInstr (s : State) (p : Nat) : Except Stop (State × Instr × Nat × List Parcel) := do
  let (s1, ps) ← s.fetchParcels p
  let (i, n) ← decodeUnit ps
  .ok (s1, i, n, ps)

/-- The HDR at a block entry: a parcel past the code, or one that does not begin an HDR word, is 0x05 (R71). -/
def State.fetchHeader (s : State) : Except Stop (State × List Parcel) := do
  let p := s.seq.pc
  need (decide (p + 1 < s.codeEnd)) 0x05
  let (s1, ps) ← s.parcels 2 p
  need (isHdrParcel (ps.headD 0)) 0x05
  .ok (s1, ps)

/-- The fields of REP. -/
structure RepFields where
  n : Nat
  sd : BitVec 1
  sa : BitVec 1
  sb : BitVec 1
  x2 : BitVec 1
  rv : BitVec 1

/-- The fields of a REP parcel (R77). -/
def repFields (p : Parcel) : RepFields := ⟨(sfld p 0 6).toNat + 1, sfld p 6 1, sfld p 7 1, sfld p 8 1, sfld p 9 1, sfld p 10 1⟩

/-- The register fields of a REP target; none where it is not eligible (Table 5-4). -/
def stepFields : List Parcel → Option StepFields
  | [p] => shortStepFields p
  | a :: b :: _ => longStepFields (wordOfParcels a b)
  | [] => none

/-- The target is eligible and every set step bit names one of its register operands (R78). -/
def repEligible (f : RepFields) (ps : List Parcel) : Bool :=
  match stepFields ps with
  | none => false
  | some k => (f.sd == 0 || k.d != .none) && (f.sa == 0 || k.a != .none) && (f.sb == 0 || k.b != .none)

/-- The parcels of repeat j of a target (R77). -/
def stepParcels (f : RepFields) (j : Nat) : List Parcel → List Parcel
  | [p] => [stepShort p f.sd f.sa f.x2 f.rv j]
  | a :: b :: l => longParcels (stepLong (wordOfParcels a b) f.sd f.sa f.sb f.x2 f.rv j) ++ l
  | [] => []

/-- The encoded number of field d, a or b of a target, with the kind of register it names. -/
def targetFields (ps : List Parcel) : List (StepKind × Nat) :=
  match ps, stepFields ps with
  | [p], some k => [(k.d, (sfld p 6 5).toNat), (k.a, (sfld p 0 5).toNat)]
  | a :: b :: _, some k =>
    let w := wordOfParcels a b
    let ((dl, dn), (al, an), (bl, bn)) := longStepPlaces w
    [(k.d, (fld w dl dn).toNat), (k.a, (fld w al an).toNat), (k.b, (fld w bl bn).toNat)]
  | _, _ => []

/-- The numbers that the stepped fields of a target take in every repeat (R79). -/
def steppedNumbers (f : RepFields) (ps : List Parcel) : List (StepKind × Int) :=
  (targetFields ps).zip [f.sd, f.sa, f.sb] |>.flatMap (fun p =>
    if p.2 = 1 then (List.range f.n).map (fun j => (p.1.1, stepNumber p.1.2 1 f.x2 f.rv j)) else [])

/-- A stepped number lies in its file or tile (R79): registers, and the field of a predicate, 0 to 31, rows 0 to 63. -/
def inFile : StepKind × Int → Bool
  | (.row, v) => decide (0 ≤ v) && decide (v ≤ 63)
  | (_, v) => decide (0 ≤ v) && decide (v ≤ 31)

/-- The target is a vector instruction, which only ex executes (Table 5-9). -/
def vectorTarget : List Parcel → Option Nat
  | a :: b :: _ => let w := wordOfParcels a b
      if 0x30 ≤ majorOf w then some (fld w 22 2).toNat else none
  | _ => none

/-- The declaration checks of a stepped number (R79): 0x21 for a scalar register, 0x22 for a row. -/
def State.stepDeclared (s : State) (tile : Option Nat) : StepKind × Int → Option Cause
  | (.scal, v) => if s.declares v.toNat then none else some 0x21
  | (.row, _) => if decide (tile.getD 0 < s.cur.decl.tiles) then none else some 0x22
  | _ => none

/-- The parcels of a REP's target (R78): a REP that is the last parcel of a body has none. -/
def State.repTarget (s : State) (off : Nat) : Except Stop (State × List Parcel) := do
  need (decide (1 ≤ s.seq.left (off + 1))) 0x07
  s.fetchParcels (off + 1)

/-- The fates of a REP unit that arise from the bits of the code alone (R83, R91), in the order of Table 5-10: the
target's own first, then 0x07. Answers the number of parcels of the target. -/
noncomputable def State.repFates (s : State) (off : Nat) (p : Parcel) : Except Stop (State × Nat) := do
  let (s1, ps) ← s.repTarget off
  let (_, n) ← decodeUnit ps
  need (repEligible (repFields p) ps) 0x07
  .ok (s1, n)

/-- The checks of a REP that runs (R78, R79): an eligible target, 0x03, 0x08, then the declarations. -/
def State.repRuns (s : State) (p : Parcel) (ps : List Parcel) : Except Stop Unit := do
  need (repEligible (repFields p) ps) 0x07
  need ((vectorTarget ps).isNone || s.curSq == .ex) 0x03
  let ns := steppedNumbers (repFields p) ps
  need (ns.all inFile) 0x08
  match firstCause (s.stepDeclared (vectorTarget ps)) ns with
  | some c => .error (.trap c)
  | none => .ok ()

/-- The parcels of an instruction at offset p, as PB scans its units: an HDR counts as its two parcels. -/
def State.scanParcels (s : State) (p : Nat) : Except Stop (State × List Parcel) :=
  match s.fetchParcels p with
  | .error (.trap 0x05) => do
    need (decide (2 ≤ s.seq.left p)) 0x06
    s.parcels 2 p
  | x => x

/-- The parcels of the issue unit at offset p: an instruction, or a REP with its target; whether it is a PB. -/
def State.unitSpan (s : State) (p : Nat) : Except Stop (State × Nat × Bool) := do
  let (s1, ps) ← s.scanParcels p
  match ps with
  | [a] =>
    if (sfld a 11 5).toNat = 0x10 then do
      let (s2, qs) ← s1.scanParcels (p + 1)
      .ok (s2, 1 + qs.length, false)
    else .ok (s1, 1, false)
  | a :: b :: _ => .ok (s1, ps.length, majorOf (wordOfParcels a b) == 0x0A)
  | [] => .ok (s1, 0, false)

/-- The n units that PB covers all lie within the body, and none is PB, else 0x07 (R82). -/
def State.covered (s : State) : Nat → Nat → Except Stop State
  | 0, _ => .ok s
  | n + 1, p => do
    need (decide (1 ≤ s.seq.left p)) 0x07
    match s.unitSpan p with
    | .error (.trap 0x06) => .error (.trap 0x07)
    | .error e => .error e
    | .ok (s1, k, isPb) => do
      need (!isPb) 0x07
      State.covered s1 n (p + k)

/-- The unit at the pc runs under PB coverage (R81). -/
def SeqState.guardRuns (x : SeqState) : Bool :=
  match x.pb with
  | none => true
  | some p => p.pat.getLsbD p.passed == p.sampled

/-- What the next unit of a sequencer is. -/
inductive Fetched where
  /-- an instruction to issue -/
  | run (i : Instr)
  /-- a unit of n parcels that PB guards off: it takes an issue cycle and does nothing (R83) -/
  | skip (n : Nat)

/-- The unit at the pc of the issuing sequencer: the next repeat of a REP, the HDR of a block being entered, or a unit
of the body, guarded off or not. What is raised at a guarded-off unit arises from the bits of the code alone (R83). -/
noncomputable def State.nextUnit (s : State) : Except Stop (State × Fetched) :=
  let x := s.seq
  match x.rep with
  | some r => do
    let (s1, ps) ← s.fetchParcels (x.pc + 1)
    let (i, _) ← decodeUnit (stepParcels (repFields r.parcel) r.done ps)
    .ok (s1, .run i)
  | none =>
    if x.inBody then do
      let (s1, i, n, ps) ← s.fetchInstr x.pc
      let a := ps.headD 0
      if ps.length = 1 ∧ (sfld a 11 5).toNat = 0x10 then do
        let (s2, k) ← s1.repFates x.pc a
        .ok (s2, if x.guardRuns then .run i else .skip (1 + k))
      else .ok (s1, if x.guardRuns then .run i else .skip n)
    else do
      let (s1, ps) ← s.fetchHeader
      let (i, _) ← decodeUnit ps
      .ok (s1, .run i)

end Sys2Proof.Machine
end

