-- ==== Sys2Proof/Machine/Operands.lean ====
section
/-!
DEFINITION. The operand forms of the instructions: registers, immediates, literals, counts and offsets (R69, R86,
R105, R122, R153), and the shared bodies of the register instructions.
-/
namespace Sys2Proof.Machine

/-- An immediate or a literal, sign-extended to 64 bits (R69, R86, R104). -/
def sext64 {n : Nat} (v : BitVec n) : Word := v.signExtend 64

/-- The body of an instruction of n parcels that reads one register and writes d (R102, R103). -/
def State.alu1 (s : State) (n : Nat) (d a : Nat) (f : Word → Word) : Except Stop State := do
  s.scalars [d, a]
  let x ← s.src a
  .ok (((s.pop [a]).put d (f x.1) x.2).retire n)

/-- The body of an instruction that reads two registers and writes d (R102, R103). -/
def State.alu2 (s : State) (n : Nat) (d a b : Nat) (f : Word → Word → Except Stop Word) : Except Stop State := do
  s.scalars [d, a, b]
  let x ← s.src a
  let y ← s.src b
  let v ← f x.1 y.1
  .ok (((s.pop [a, b]).put d v (x.2 ||| y.2)).retire n)

/-- The body of an instruction that reads a register and a literal and writes d (R105). -/
def State.aluLit (s : State) (d a : Nat) (lit : BitVec 32) (f : Word → Word → Except Stop Word) : Except Stop State := do
  s.scalars [d, a]
  let x ← s.src a
  let v ← f x.1 (sext64 lit)
  .ok (((s.pop [a]).put d v x.2).retire 4)

/-- The body of an instruction that reads d and two registers and writes d (R103, R106). -/
def State.alu3 (s : State) (d a b : Nat) (f : Word → Word → Word → Word) : Except Stop State := do
  s.scalars [d, a, b]
  let z ← s.src d
  let x ← s.src a
  let y ← s.src b
  .ok (((s.pop [d, a, b]).put d (f z.1 x.1 y.1) (z.2 ||| x.2 ||| y.2)).retire 2)

/-- As `alu3`, with a literal as operand b. -/
def State.alu3Lit (s : State) (d a : Nat) (lit : BitVec 32) (f : Word → Word → Word → Word) : Except Stop State := do
  s.scalars [d, a]
  let z ← s.src d
  let x ← s.src a
  .ok (((s.pop [d, a]).put d (f z.1 x.1 (sext64 lit)) (z.2 ||| x.2)).retire 4)

/-- The body of a compare of two registers: writes predicate d mod 8 and adds to the control taint (R107). -/
def State.cmp2 (s : State) (d a b : Nat) (r : Word → Word → Bool) : Except Stop State := do
  s.scalars [a, b]
  let x ← s.src a
  let y ← s.src b
  .ok ((((s.pop [a, b]).putPred d (r x.1 y.1)).addControl (x.2 ||| y.2)).retire 2)

/-- The body of a compare of a register with a constant (R107, R110). -/
def State.cmp1 (s : State) (n : Nat) (d a : Nat) (c : Word) (r : Word → Word → Bool) : Except Stop State := do
  s.scalars [a]
  let x ← s.src a
  .ok ((((s.pop [a]).putPred d (r x.1 c)).addControl x.2).retire n)

/-- A constant written to d with an empty taint set (R103). -/
def State.constant (s : State) (n : Nat) (d : Nat) (v : Word) : Except Stop State := do
  s.scalars [d]
  .ok ((s.put d v 0).retire n)

/-- A value of the state written to d with an empty taint set: the results that R103 lists. -/
def State.report (s : State) (d : Nat) (v : Word) : Except Stop State := s.constant 2 d v

/-- A result of two predicates (R112). -/
def State.predOp (s : State) (n : Nat) (d : Nat) (v : Bool) : Except Stop State := .ok ((s.putPred d v).retire n)

/-- The count s[a] + imm10, without wrap (R123, R126). -/
def State.count (s : State) (a : Nat) (n : BitVec 10) : Except Stop Nat := do
  let x ← s.src a
  .ok (x.1.toNat + n.toNat)

/-- An offset that the bounds check refuses, with the low bits that the alignment check sees (R142, R154). -/
def badOffset (v : Int) : Nat := 2 ^ 64 + (v % 2 ^ 64).toNat

/-- The offset s[a] plus an addend, exact (R153, R156): a register with a bit above 40 set, or a negative sum, is
outside every bound. -/
def offsetOf (v : Word) (addend : Int) : Nat :=
  let sum : Int := v.toNat + addend
  if 2 ^ 41 ≤ v.toNat ∨ sum < 0 then badOffset sum else sum.toNat

/-- The offset of format LM: s[a], plus the sign-extended literal with L = 1 (R69, R156); with the register's taint
set. -/
def State.offset (s : State) (a : Nat) (lit : BitVec 32) : Except Stop (Nat × Taint) := do
  let x ← s.src a
  .ok (offsetOf x.1 lit.toInt, x.2)

/-- The scope field of an ordered access (Table 13-1). -/
def scopeOf (s : BitVec 3) : Nat := s.toNat

end Sys2Proof.Machine
end

