-- ==== Sys2Proof/Machine/Control.lean ====
section
/-!
DEFINITION. Blocks, prefixes, branches and the ends of streams (R70 to R84, R114 to R120), the spill slots (R170,
R171), the clearing of taint (R168), quiescent points (R169), and what the END of a sequencer settles (R33, R136).
-/
namespace Sys2Proof.Machine

/-- Parties of a gang that have executed END (R33); a hard-stopped task stays a party (log 36). -/
def State.partyEnded (s : State) (p : Party) : Bool :=
  match Store.find? s.parked p.core with
  | some k => k.ended.get p.sq
  | none => ((s.core p.core).seqs.get p.sq).run == .ended

/-- A phase completes: leaves are applied first, then joins; a barrier left without members returns to phase 0, and
the pending joiners become its members (R32, R33, R130). -/
def Barrier.complete (b : Barrier) : Barrier :=
  let stay := b.members.filter (fun m => !b.leaves.contains m)
  { phase := if stay.isEmpty then 0 else b.phase + 1, members := stay ++ b.joins, joins := [], leaves := [], arrived := [] }

/-- The phase has received an arrival, and every member that has not ended has arrived (R33). -/
def State.phaseDone (s : State) (b : Barrier) : Bool :=
  !b.arrived.isEmpty && b.members.all (fun m => b.arrived.contains m || s.partyEnded m)

/-- Completes the phase of a barrier if it is complete: at the end of a cycle (R33, R135). -/
def State.settleBarrier (s : State) (b : Barrier) : Barrier := if s.phaseDone b then b.complete else b

/-- An empty barrier in phase 0. -/
def Barrier.empty : Barrier := ⟨0, [], [], [], []⟩

/-- The gang of the issuing task. -/
def State.gang (s : State) : Gang := Store.getD s.gangs ((s.cur.task.map Task.gang).getD 0) ⟨[], [], [], []⟩

/-- A barrier of a gang. -/
def Gang.barrier (g : Gang) (b : Nat) : Barrier := Store.getD g.barriers b Barrier.empty

/-- Replaces a barrier of the issuing gang. -/
def State.setBarrier (s : State) (i : Nat) (b : Barrier) : State :=
  match s.cur.task with
  | none => s
  | some t => { s with gangs := Store.put t.gang { s.gang with barriers := Store.put i b s.gang.barriers } s.gangs }

/-- Changes every barrier of a gang. -/
def Gang.mapBarriers (g : Gang) (f : Barrier → Barrier) : Gang :=
  { g with barriers := g.barriers.map (fun (p : Nat × Barrier) => (p.1, f p.2)) }

/-- Removes a party's pending joins and leaves (R33). -/
def Barrier.cancel (me : Party) (b : Barrier) : Barrier :=
  { b with joins := b.joins.filter (· != me), leaves := b.leaves.filter (· != me) }

/-- The end of a cycle for the gangs: phases complete, and what BCNT reads in the next cycle stands (R33, R133, R135). -/
def State.tickGangs (s : State) : State :=
  { s with gangs := s.gangs.map (fun (p : Nat × Gang) =>
      let g := p.2.mapBarriers s.settleBarrier
      (p.1, { g with was := g.barriers })) }

/-- Every sequencer of the launch has arrived or ended, and one has arrived (R136). -/
def State.stepDone (s : State) (l : Launch) : Bool :=
  !l.arrived.isEmpty && l.cores.all (fun c => [Sq.ld, Sq.ex, Sq.st, Sq.ctl].all (fun q =>
    l.arrived.contains ⟨c, q⟩ || s.partyEnded ⟨c, q⟩))

/-- Every store, atomic and copy that a task of the launch has issued has performed (R35). -/
def State.launchQuiet (s : State) (l : Launch) : Bool :=
  l.cores.all (fun c => match Store.find? s.parked c with
    | some k => k.maps.isEmpty
    | none => (s.core c).stores.isEmpty && (s.core c).copies.isEmpty)

/-- A communication step has ended: what the tasks of the launch have written is visible at device scope (R35). -/
def State.exposeLaunch (s : State) (l : Launch) : State :=
  s.reveal (fun p => if p.agents.head?.any l.cores.contains then some 2 else none)

/-- A step of a superstep launch ends when all have arrived; a communication step also waits for R35 (R136). -/
def State.settleLaunch (s : State) (n : Nat) : State :=
  match Store.find? s.launches n with
  | none => s
  | some l =>
    let next := { s with launches := Store.put n { l with steps := l.steps + 1, arrived := [] } s.launches }
    if !s.stepDone l then s
    else if l.steps % 2 == 0 then next
    else if s.launchQuiet l then next.exposeLaunch l else s

/-- Invalidations that a core has acknowledged (R254). -/
def Partition.acks (p : Partition) (n : Nat) : Nat := Store.getD p.acked n 0

/-- The cores of a partition (R339). -/
def Partition.cores (p : Partition) : List Nat := p.clusters.flatMap (fun k => (List.range Config.clusterCores).map (fun i => k * Config.clusterCores + i))

/-- A core of a partition has acknowledged one more invalidation: those are complete that every core has acknowledged (R254). -/
def Partition.acknowledged (p : Partition) (n : Nat) : Partition :=
  let q := { p with acked := Store.put n (p.acks n + 1) p.acked }
  match q.cores.map q.acks with
  | [] => q
  | k :: ks => { q with invalsDone := ks.foldl Nat.min k }

/-- A core has acknowledged an invalidation of a partition (R254): the TLB of its die drops the partition's entries. -/
def State.acknowledge (s : State) (n part : Nat) : State :=
  { s with
    dies := modAt s.dies (dieOf n) (fun d => { d with tlb := d.tlb.filter (fun e => (Store.find? s.ctxs e.ctx).map Context.part != some part) }),
    parts := s.parts.map (fun (p : Nat × Partition) =>
      if p.1 = part then (p.1, p.2.acknowledged n) else p) }

/-- The CE's marker of an invalidation has passed: no copy that was issued before its arrival is left (R252). -/
def Core.markerPassed (c : Core) (i : Inval) : Bool := c.copies.all (fun k => !(k.oldMap && decide (k.mapTime < i.time)))

/-- ctl sends the acknowledgement of an invalidation once the sequencers have passed or ended (R169). -/
def Core.sendAck (c : Core) (i : Inval) : Inval :=
  { i with acked := i.acked || (i.passed.ctl && [Sq.ld, Sq.ex, Sq.st].all (fun q => i.passed.get q || (c.seqs.get q).run == .ended)) }

/-- A core has acknowledged those invalidations whose acknowledgement ctl has sent and whose marker has passed; one without a task
acknowledges on arrival (R254). -/
def State.settleInval (s : State) (n : Nat) : State :=
  let c := s.core n
  if c.invals.isEmpty then s
  else
    let is := c.invals.map c.sendAck
    let met := fun (i : Inval) => (i.acked || c.task.isNone) && c.markerPassed i
    (is.filter met).foldl (fun (t : State) i => t.acknowledge n i.part) (s.setCore n { c with invals := is.filter (fun i => !met i) })

/-- HDR at a block entry: the checks of R71, then the body runs REPEAT + 1 times (R70, R72). Inside a body it is
never executed (0x05). -/
def execHdr (r l : BitVec 12) (s : State) : Host.Outcome State Fault Refusal :=
  finish s (do
    let x := s.seq
    need (!x.inBody) 0x05
    need (l != 0) 0x05
    need (r == 0 || decide (l.toNat ≤ 510)) 0x05
    need (decide (x.pc + 2 + l.toNat ≤ s.codeEnd)) 0x05
    .ok (s.modCur (fun c => { c.modSeq s.curSq (fun x =>
      { x with hdr := x.pc, length := l.toNat, passes := r.toNat, inBody := true, pc := x.pc + 2 }.resume)
      with lastActive := s.cycle })))

/-- REP: makes the checks of its unit and readies its repeats, which issue next (R77 to R79). The fates that arise
from the bits of its target alone have been met as the unit was fetched (`State.repFates`). -/
def execRep (v x b a d : BitVec 1) (n : BitVec 6) (s : State) : Host.Outcome State Fault Refusal :=
  finish s (do
    let p : Parcel := BitVec.ofNat 16 (0x8000 + v.toNat * 1024 + x.toNat * 512 + b.toNat * 256 + a.toNat * 128 + d.toNat * 64 + n.toNat)
    let (s1, ps) ← s.repTarget s.seq.pc
    s1.repRuns p ps
    .ok (s1.modSeq (fun q => { q with rep := some ⟨q.pc, p, 0⟩ })))

/-- PB: its units lie within the body and none is PB (0x07); samples pC once (R81, R82). -/
def execPb (c n : BitVec 3) (p : BitVec 8) (s : State) : Host.Outcome State Fault Refusal :=
  finish s (do
    need (wfPattern n p) 0x02
    let s1 ← s.covered (n.toNat + 1) (s.seq.pc + 2)
    let off := s.seq.pc
    .ok ((s1.retire 2).modSeq (fun x => { x with pb := some ⟨off, s.pred c.toNat, p, n.toNat + 1, 0⟩ })))

/-- The condition of BRC on a register (R114). -/
def branchCond (c : BitVec 3) (v : Word) : Bool :=
  match c.toNat with
  | 0 => v == 0
  | 1 => v != 0
  | 2 => v.slt 0
  | 3 => !v.slt 0
  | 4 => v.sle 0
  | _ => !v.sle 0

/-- BRC: a test of a register adds its set to the control taint, a test of a predicate adds nothing (R114, R118). -/
def execBrc (a : BitVec 5) (c : BitVec 3) (d : BitVec 16) (s : State) : Host.Outcome State Fault Refusal :=
  finish s (do
    need (wfBranchCond a c) 0x02
    let target : Int := s.seq.pc + d.toInt
    if 6 ≤ c.toNat then s.branch 2 (s.pred a.toNat == (c == 6)) target
    else do
      s.scalars [a.toNat]
      let x ← s.src a.toNat
      ((s.pop [a.toNat]).addControl x.2).branch 2 (branchCond c x.1) target)

/-- BR (R115). -/
def execBr (d : BitVec 24) (s : State) : Host.Outcome State Fault Refusal := finish s (s.transfer (s.seq.pc + d.toInt))

/-- BR16 (R115). -/
def execBr16 (d : BitVec 11) (s : State) : Host.Outcome State Fault Refusal := finish s (s.transfer (s.seq.pc + d.toInt))

/-- CALL writes the link into s30 once the target has passed R74 (R116). -/
def execCall (d : BitVec 24) (s : State) : Host.Outcome State Fault Refusal :=
  finish s (do
    s.scalars [30]
    (s.put 30 (BitVec.ofNat 64 (s.seq.pc + 2)) 0).transfer (s.seq.pc + d.toInt))

/-- The body of a jump through a register (R117, R118): the register value read as unsigned plus an addend; the link,
where there is one, is written after the register is read. -/
def State.jump (s : State) (n : Nat) (a : Nat) (addend : Int) (link : Option Nat) : Except Stop State := do
  s.scalars (a :: link.toList)
  let x ← s.src a
  let s1 := (s.pop [a]).addControl x.2
  let s2 := match link with
    | some d => s1.put d (BitVec.ofNat 64 (s.seq.pc + n)) 0
    | none => s1
  s2.transfer (x.1.toNat + addend)

/-- JR (R117). -/
def execJr (a : BitVec 5) (_u : BitVec 1) (s : State) : Host.Outcome State Fault Refusal := finish s (s.jump 2 a.toNat 0 none)
/-- JR with a literal (R117). -/
def execJrLit (a : BitVec 5) (_u : BitVec 1) (lit : BitVec 32) (s : State) : Host.Outcome State Fault Refusal :=
  finish s (s.jump 4 a.toNat lit.toInt none)
/-- JALR (R117). -/
def execJalr (d a : BitVec 5) (_u : BitVec 1) (s : State) : Host.Outcome State Fault Refusal :=
  finish s (s.jump 2 a.toNat 0 (some d.toNat))
/-- JALR with a literal: the link follows the literal (R117). -/
def execJalrLit (d a : BitVec 5) (_u : BitVec 1) (lit : BitVec 32) (s : State) : Host.Outcome State Fault Refusal :=
  finish s (s.jump 4 a.toNat lit.toInt (some d.toNat))
/-- Long RET (R117). -/
def execRetL (_u : BitVec 1) (s : State) : Host.Outcome State Fault Refusal := finish s (s.jump 2 30 0 none)
/-- Long RET with a literal (R117). -/
def execRetLLit (_u : BitVec 1) (lit : BitVec 32) (s : State) : Host.Outcome State Fault Refusal :=
  finish s (s.jump 4 30 lit.toInt none)
/-- Short RET (R117). -/
def execRet (s : State) : Host.Outcome State Fault Refusal := finish s (s.jump 1 30 0 none)

/-- LOOP: decrements s[a], keeping its taint set, and branches while it is not zero (R119); with a = 0 it never
branches. -/
def execLoop (a : BitVec 5) (d : BitVec 16) (s : State) : Host.Outcome State Fault Refusal :=
  finish s (do
    s.only [.ctl]
    s.scalars [a.toNat]
    let x ← s.src a.toNat
    let v := x.1 - 1
    (((s.pop [a.toNat]).put a.toNat v x.2).addControl x.2).branch 2 (v != 0 && a != 0) (s.seq.pc + d.toInt))

/-- END: the sequencer issues nothing further; its pending joins and leaves are cancelled, and the superstep and the
invalidation that waited for it go on; a barrier that waited for it completes its phase at the end of the cycle (R29, R33,
R120, R136, R169). -/
def execEndStream (s : State) : Host.Outcome State Fault Refusal :=
  finish s (
    let me : Party := ⟨s.curCore, s.curSq⟩
    let s1 := s.modCur (fun c => { c.modSeq s.curSq (fun x =>
      { x with run := .ended, waitOn := none, mark := none, pc := x.pc + 1, pb := none }) with lastActive := s.cycle })
    match s.cur.task with
    | none => .ok s1
    | some t =>
      let s2 := { s1 with gangs := (match Store.find? s1.gangs t.gang with
        | none => s1.gangs
        | some g => Store.put t.gang (g.mapBarriers (Barrier.cancel me)) s1.gangs) }
      let s3 := match t.launch with
        | some l => s2.settleLaunch l
        | none => s2
      .ok (s3.settleInval s.curCore))

/-- Loads that leave a control taint before they have performed: their values may still change (R243). -/
def Core.loosen (c : Core) (t : Taint) : Core :=
  { c with loads := c.loads.map (fun l => if !l.performed && (c.loadsOf t).contains l.id then { l with loose := true } else l) }

/-- The body of TCLR (R168): the set of s[d], and with x the control taint. -/
def State.clearTaint (s : State) (n d : Nat) (x : BitVec 1) : Except Stop State := do
  s.scalars [d]
  let s := if x = 1 then s.modCur (fun c => c.loosen s.seq.ctlTaint) else s
  .ok ((s.modSeq (fun q => { q with taint := q.taint.setIfInBounds d 0, ctlTaint := if x = 1 then 0 else q.ctlTaint })).retire n)

/-- TCLR, short form (R168). -/
def execTclr (d : BitVec 5) (x : BitVec 1) (s : State) : Host.Outcome State Fault Refusal := finish s (s.clearTaint 1 d.toNat x)
/-- TCLR, long form (R168). -/
def execTclrL (d : BitVec 5) (x : BitVec 1) (s : State) : Host.Outcome State Fault Refusal := finish s (s.clearTaint 2 d.toNat x)

/-- The body of QPT (R169, R253): with an invalidation pending the sequencer has passed its quiescent point; ex first
waits until no ME operation is outstanding. -/
def State.quiesce (s : State) (n : Nat) : Except Stop State :=
  if s.cur.invals.isEmpty then .ok (s.retire n)
  else
    if s.curSq = .ex ∧ (s.cur.me.active.isSome ∨ s.cur.me.pendingOp.isSome) then .error (.wait .other)
    else .ok (((s.modCur (fun c => { c with invals := c.invals.map (fun i => { i with passed := i.passed.set s.curSq true }) })).retire n).settleInval s.curCore)

/-- QPT, short form (R169). -/
def execQpt (s : State) : Host.Outcome State Fault Refusal := finish s (s.quiesce 1)
/-- QPT, long form (R169). -/
def execQptL (s : State) : Host.Outcome State Fault Refusal := finish s (s.quiesce 2)
/-- NOPL (R120). -/
def execNopl (s : State) : Host.Outcome State Fault Refusal := finish s (.ok (s.retire 2))

/-- The places of a spill slot (R170); 0x26 where fewer than 0x400 scratchpad bytes are declared. -/
def State.spillSlot (s : State) (i : Nat) : Except Stop (List Loc) := do
  need (decide (0x400 ≤ s.cur.decl.scratch)) 0x26
  .ok ((List.range 8).map (fun k => .win s.curCore (s.cur.decl.scratch - 0x400 + 0x100 * s.curSq.num + 8 * i + k)))

/-- SPL: waits for an empty taint set, then stores (R171), after the accesses of its sequencer to the slot (R230). -/
def execSpl (d i : BitVec 5) (s : State) : Host.Outcome State Fault Refusal :=
  finish s (do
    s.scalars [d.toNat]
    let ls ← s.spillSlot i.toNat
    let x ← s.src d.toNat
    if x.2 ≠ 0 ∨ ls.any s.unverified ∨ s.cur.inWay s.curSq ls then .error (.wait .other)
    else .ok ((((s.pop [d.toNat]).writeNow (ls.zip (bytesOf 8 x.1.toNat))).spills ls).retire 1))

/-- FIL: reads a slot, after the accesses of its sequencer to it (R230); the result has an empty set (R171). -/
def execFil (d i : BitVec 5) (s : State) : Host.Outcome State Fault Refusal :=
  finish s (do
    s.scalars [d.toNat]
    let ls ← s.spillSlot i.toNat
    if s.cur.inWay s.curSq ls then .error (.wait .other)
    else do
      let bs ← s.readNow ls
      .ok ((((s.saw ls).spills ls).put d.toNat (BitVec.ofNat 64 (numOf bs)) 0).retire 1))

end Sys2Proof.Machine
end

