-- ==== Sys2Proof/Machine/Sync.lean ====
section
/-!
DEFINITION. Token queues, rills, barriers and supersteps (R10 to R16, R32 to R35, R123 to R136).
-/
namespace Sys2Proof.Machine

/-- The source of a token queue (R10). -/
def queueSource (q : Nat) : Nat := q / 3

/-- The destination of a token queue: the j-th of the other sequencers (R10). -/
def queueDest (q : Nat) : Nat := if q % 3 < q / 3 then q % 3 else q % 3 + 1

/-- The queue from one sequencer to another (R10). -/
def queueOf (src dst : Nat) : Nat := 3 * src + (if dst < src then dst else dst - 1)

/-- The count of a token queue. -/
def Core.tokenCount (c : Core) (q : Nat) : Nat := c.tokens[q]?.getD 0

/-- Sets the count of a token queue. -/
def Core.setTokens (c : Core) (q n : Nat) : Core := { c with tokens := c.tokens.setIfInBounds q n }

/-- The body of TKS: only the source adds; past 65,535 it traps and the count stays; a count of 0 has no effect (R11, R123). -/
def State.tokenSet (s : State) (len q n : Nat) : Except Stop State := do
  need (decide (q < 12)) 0x02
  need (queueSource q == s.curSq.num) 0x03
  need (decide (s.cur.tokenCount q + n ≤ 65535)) 0x27
  if n = 0 then .ok (s.retire len)
  else .ok ((s.handOn.modCur (fun c => c.setTokens q (c.tokenCount q + n))).retire len)

/-- The body of TKW: only the destination waits; a count above 65,535 can never be met (R11, R123). The count tested is that of
the end of the previous cycle (R124). The wait joins the copies whose tokens it has seen (R248); a count of 0 has no effect. -/
def State.tokenWait (s : State) (len q n : Nat) : Except Stop State := do
  need (decide (q < 12)) 0x02
  need (queueDest q == s.curSq.num) 0x03
  need (decide (n ≤ 65535)) 0x27
  if n = 0 then .ok (s.retire len)
  else if s.cur.was.tokens[q]?.getD 0 < n ∨ s.cur.tokenCount q < n then .error (.wait .token)
  else .ok (((s.joinObject (32 + q)).takeOver.modCur (fun c => c.setTokens q (c.tokenCount q - n))).retire len)

/-- TKS, short form: 1 to 32 tokens (R123). -/
def execTks (n : BitVec 5) (q : BitVec 4) (s : State) : Host.Outcome State Fault Refusal :=
  finish s (s.tokenSet 1 q.toNat (n.toNat + 1))
/-- TKW, short form (R123). -/
def execTkw (n : BitVec 5) (q : BitVec 4) (s : State) : Host.Outcome State Fault Refusal :=
  finish s (s.tokenWait 1 q.toNat (n.toNat + 1))

/-- The long forms' checks before the count is read: the queue exists, and names this sequencer's side. -/
def State.tokenLong (s : State) (q a : BitVec 5) (n : BitVec 10) (side : Nat → Nat)
    (body : State → Nat → Except Stop State) : Except Stop State := do
  need (wfQueue q.toNat) 0x02
  need (side q.toNat == s.curSq.num) 0x03
  s.scalars [a.toNat]
  let k ← s.count a.toNat n
  body (s.pop [a.toNat]) k

/-- TKS, long form (R123). -/
def execTksL (q a : BitVec 5) (n : BitVec 10) (s : State) : Host.Outcome State Fault Refusal :=
  finish s (s.tokenLong q a n queueSource (fun t k => t.tokenSet 2 q.toNat k))
/-- TKW, long form (R123). -/
def execTkwL (q a : BitVec 5) (n : BitVec 10) (s : State) : Host.Outcome State Fault Refusal :=
  finish s (s.tokenLong q a n queueDest (fun t k => t.tokenWait 2 q.toNat k))

/-- The geometry operand of WINIT, where it is valid (R13, R125, Table 7-5). -/
def rillGeometry (g : Word) (scratch : Nat) : Option Rill :=
  let count := bitsOf g.toNat 48 40
  let size := bitsOf g.toNat 39 20
  let base := bitsOf g.toNat 19 0
  if g.toNat / 2 ^ 49 = 0 ∧ base % 256 = 0 ∧ size ≠ 0 ∧ size % 256 = 0 ∧ 2 ≤ count ∧ count ≤ 256
      ∧ base + size * count ≤ 0xC0000 ∧ base + size * count ≤ scratch
  then some ⟨base, size, count, 0, 0, 0⟩ else none

/-- The completion object of a copy is a fill of a rill (Table 5-7). -/
def fillsRill (lit : BitVec 32) (w : Nat) : Bool := bitsOf lit.toNat 31 28 == 1 && bitsOf lit.toNat 27 24 == w

/-- WINIT: ctl only; waits for the copies that are to fill the rill, then sets its geometry (R13, R125). -/
def execWinit (w a : BitVec 5) (s : State) : Host.Outcome State Fault Refusal :=
  finish s (do
    need (wfRill w.toNat) 0x02
    s.only [.ctl]
    s.scalars [a.toNat]
    need (decide (w.toNat < s.cur.decl.rills)) 0x24
    let x ← s.src a.toNat
    match rillGeometry x.1 s.cur.decl.scratch with
    | none => .error (.trap 0x28)
    | some r =>
      if s.cur.copies.any (fun k => fillsRill k.lit w.toNat) then .error (.wait .other)
      else .ok (((s.pop [a.toNat]).modCur (fun c => { c with rills := c.rills.setIfInBounds w.toNat (some r) })).retire 2))

/-- A declared rill whose geometry is set: 0x24, then 0x28 (R13, R26, R126). -/
def State.rill (s : State) (w : Nat) : Except Stop Rill := do
  need (decide (w < s.cur.decl.rills)) 0x24
  match s.cur.rills[w]?.getD none with
  | none => .error (.trap 0x28)
  | some r => .ok r

/-- A producer advance (R14); none where it would overrun. -/
def Rill.produce (r : Rill) (n : Nat) : Option Rill :=
  if r.fill + n ≤ r.count then some { r with pptr := (r.pptr + n) % r.count, fill := r.fill + n } else none

/-- A consumer advance (R14). -/
def Rill.consume (r : Rill) (n : Nat) : Option Rill :=
  if n ≤ r.fill then some { r with cptr := (r.cptr + n) % r.count, fill := r.fill - n } else none

/-- The body of an advance (R14, R126, R127): one that cannot be made is 0xA2 and changes nothing; a count of 0 has no effect. -/
def State.rillAdvance (s : State) (len w n : Nat) (f : Rill → Nat → Option Rill) : Except Stop State := do
  let r ← s.rill w
  match f r n with
  | none => .error (.trap 0xA2)
  | some r' => if n = 0 then .ok (s.retire len) else .ok ((s.handOn.modCur (fun c => { c with rills := c.rills.setIfInBounds w (some r') })).retire len)

/-- The body of a rill wait (R14, R126): a count above the slot count can never be met; no slots are reserved; a count of 0 has
no effect. The count tested is that of the moment, with the advances made earlier in the cycle (DESIGN CHOICE, log 12). -/
def State.rillWait (s : State) (w n : Nat) (have' : Rill → Nat) (join : State → State) : Except Stop State := do
  let r ← s.rill w
  need (decide (n ≤ r.count)) 0xA2
  if n = 0 then .ok (s.retire 2)
  else if have' r < n then .error (.wait .rill) else .ok ((join s).takeOver.retire 2)

/-- The operands of the long rill forms: the rill, its geometry, and the count s[a] + imm10 (R126). -/
def State.rillLong (s : State) (w a : BitVec 5) (n : BitVec 10) (body : State → Nat → Except Stop State) :
    Except Stop State := do
  need (wfRill w.toNat) 0x02
  s.scalars [a.toNat]
  let _ ← s.rill w.toNat
  let k ← s.count a.toNat n
  body (s.pop [a.toNat]) k

/-- WWAITF (R126): it joins the copies that have advanced the rill (R248). -/
def execWwaitf (w a : BitVec 5) (n : BitVec 10) (s : State) : Host.Outcome State Fault Refusal :=
  finish s (s.rillLong w a n (fun t k => t.rillWait w.toNat k Rill.fill (fun u => u.joinObject (16 + w.toNat))))
/-- WWAITE (R126). -/
def execWwaite (w a : BitVec 5) (n : BitVec 10) (s : State) : Host.Outcome State Fault Refusal :=
  finish s (s.rillLong w a n (fun t k => t.rillWait w.toNat k (fun r => r.count - r.fill) id))
/-- WADVP (R126). -/
def execWadvp (w a : BitVec 5) (n : BitVec 10) (s : State) : Host.Outcome State Fault Refusal :=
  finish s (s.rillLong w a n (fun t k => t.rillAdvance 2 w.toNat k Rill.produce))
/-- WADVC (R126). -/
def execWadvc (w a : BitVec 5) (n : BitVec 10) (s : State) : Host.Outcome State Fault Refusal :=
  finish s (s.rillLong w a n (fun t k => t.rillAdvance 2 w.toNat k Rill.consume))
/-- ADV: producer with x = 0, consumer with x = 1 (R127). -/
def execAdv (n : BitVec 5) (x : BitVec 1) (w : BitVec 4) (s : State) : Host.Outcome State Fault Refusal :=
  finish s (s.rillAdvance 1 w.toNat (n.toNat + 1) (if x = 0 then Rill.produce else Rill.consume))

/-- The word of Table 7-6; a rill whose geometry is unset reads zero (R128). -/
def rillWord : Option Rill → Word
  | none => 0
  | some r => BitVec.ofNat 64 (r.count * 2 ^ 34 + r.cptr * 2 ^ 26 + r.pptr * 2 ^ 18 + (r.count - r.fill) * 2 ^ 9 + r.fill)

/-- WSTAT: the counts at the end of the previous cycle (R128). -/
def execWstat (d : BitVec 5) (w : BitVec 4) (s : State) : Host.Outcome State Fault Refusal :=
  finish s (do
    s.scalars [d.toNat]
    need (decide (w.toNat < s.cur.decl.rills)) 0x24
    s.report d.toNat (rillWord (s.cur.was.rills[w.toNat]?.getD none)))

/-- A barrier that the header's mask permits, else 0x23 (R129). -/
def State.barrier (s : State) (b : BitVec 5) : Except Stop Barrier := do
  need (s.cur.decl.barriers.getLsbD b.toNat) 0x23
  .ok (s.gang.barrier b.toNat)

/-- The issuing sequencer as a party. -/
def State.me (s : State) : Party := ⟨s.curCore, s.curSq⟩

/-- The issuing sequencer's earlier memory accesses have all performed. -/
def State.settled (s : State) : Bool :=
  s.cur.quiet s.curSq

/-- Arrives at a barrier (R33, R131, R134): not a member is 0xA0; a second arrival in one phase is held until the
phase completes; the arrival is a release at cluster scope, and the model has the sequencer make it once its earlier accesses
have performed (log 10). -/
def State.arrive (s : State) (b : BitVec 5) : Except Stop (State × Barrier) := do
  let x ← s.barrier b
  need (x.members.contains s.me) 0xA0
  if x.arrived.contains s.me then .error (.wait .barrier)
  else if !s.settled then .error .stall
  else .ok ((s.releaseAll s.curCore s.curSq).setBarrier b.toNat { x with arrived := x.arrived ++ [s.me] }, x)

/-- BJOIN (R32, R130). -/
def execBjoin (b : BitVec 5) (s : State) : Host.Outcome State Fault Refusal :=
  finish s (do
    let x ← s.barrier b
    let x' :=
      if x.members.contains s.me then { x with leaves := x.leaves.filter (· != s.me) }
      else if x.joins.contains s.me then x
      else if x.members.isEmpty then { x with members := [s.me] }
      else { x with joins := x.joins ++ [s.me] }
    .ok ((s.setBarrier b.toNat x').retire 2))

/-- BLEAVE: records the leave, and counts as the member's arrival unless it has arrived in this phase (R33, R130). -/
def execBleave (b : BitVec 5) (s : State) : Host.Outcome State Fault Refusal :=
  finish s (do
    let x ← s.barrier b
    need (x.members.contains s.me) 0xA0
    let leaves := if x.leaves.contains s.me then x.leaves else x.leaves ++ [s.me]
    if x.arrived.contains s.me then .ok ((s.setBarrier b.toNat { x with leaves := leaves }).retire 2)
    else if !s.settled then .error .stall
    else .ok (((s.releaseAll s.curCore s.curSq).setBarrier b.toNat { x with leaves := leaves, arrived := x.arrived ++ [s.me] }).retire 2))

/-- ARR arrives and continues (R131). -/
def execArr (b : BitVec 5) (s : State) : Host.Outcome State Fault Refusal :=
  finish s (do
    let (t, _) ← s.arrive b
    .ok (t.retire 1))

/-- BARR arrives, then waits until the phase it arrived in has completed (R131), which it sees in the next cycle at the
earliest (R135). -/
def execBarr (b : BitVec 5) (s : State) : Host.Outcome State Fault Refusal :=
  finish s (do
    let x ← s.barrier b
    match s.seq.mark with
    | some (.arrived _ _) => if x.arrived.contains s.me then .error (.wait .barrier) else .ok (s.acquireAll.retire 2)
    | _ =>
      let (t, y) ← s.arrive b
      .ok (t.awaitMark .barrier (.arrived b.toNat y.phase)))

/-- BARN arrives, writes the number of the phase it arrived in, and continues (R131). -/
def execBarn (d b : BitVec 5) (s : State) : Host.Outcome State Fault Refusal :=
  finish s (do
    s.scalars [d.toNat]
    let (t, y) ← s.arrive b
    .ok ((t.put d.toNat (BitVec.ofNat 64 y.phase.toNat) 0).retire 2))

/-- BWAIT waits until the phase number has been reached, within half the 32-bit range (R132). -/
def execBwait (a b : BitVec 5) (s : State) : Host.Outcome State Fault Refusal :=
  finish s (do
    s.scalars [a.toNat]
    let x ← s.barrier b
    let v ← s.src a.toNat
    if (x.phase - v.1.extractLsb' 0 32).toNat < 2 ^ 31 then .ok ((s.pop [a.toNat]).acquireAll.retire 2) else .error (.wait .barrier))

/-- BCNT: the barrier at the end of the previous cycle (R133, Table 7-8). A member whose task has ended is none. -/
def execBcnt (d b : BitVec 5) (s : State) : Host.Outcome State Fault Refusal :=
  finish s (do
    s.scalars [d.toNat]
    let _ ← s.barrier b
    let x := Store.getD s.gang.was b.toNat Barrier.empty
    s.report d.toNat (BitVec.ofNat 64 ((x.members.filter x.arrived.contains).length * 2 ^ 40 + x.members.length * 2 ^ 32 + x.phase.toNat)))

/-- The superstep launch of the running task; without one SSTEP, SSYNC and SPHASE are 0xA3 (R35). -/
def State.superstep (s : State) : Except Stop (Nat × Launch) :=
  match s.cur.task.bind Task.launch with
  | none => .error (.trap 0xA3)
  | some n =>
    match Store.find? s.launches n with
    | none => .error (.trap 0xA3)
    | some l => .ok (n, l)

/-- A sequencer leaves a step: after SSYNC its later loads read no older than what the launch has written (R35). -/
def State.leaveStep (s : State) (communication : Bool) : State := if communication then s.acquireAll else s

/-- The body of SSTEP and SSYNC (R136): the step must be of the kind that the instruction ends; the sequencer arrives,
and goes on once every sequencer of the launch has. -/
def State.endStep (s : State) (communication : Bool) : Except Stop State := do
  let (n, l) ← s.superstep
  match s.seq.mark with
  | some (.step k) =>
    let t := s.settleLaunch n
    if k < ((Store.find? t.launches n).map Launch.steps).getD 0 then .ok ((t.leaveStep communication).retire 2)
    else .error (.wait .superstep)
  | _ =>
    need ((l.steps % 2 == 1) == communication) 0xA3
    let t := State.settleLaunch { s with launches := Store.put n { l with arrived := l.arrived ++ [s.me] } s.launches } n
    if l.steps < ((Store.find? t.launches n).map Launch.steps).getD 0 then .ok ((t.leaveStep communication).retire 2)
    else .ok (t.awaitMark .superstep (.step l.steps))

/-- SSTEP ends a computation step (R136). -/
def execSstep (s : State) : Host.Outcome State Fault Refusal := finish s (s.endStep false)
/-- SSYNC ends a communication step (R35, R136). -/
def execSsync (s : State) : Host.Outcome State Fault Refusal := finish s (s.endStep true)
/-- SPHASE: the SSYNCs completed, bit 32 in a communication step (R136). -/
def execSphase (d : BitVec 5) (s : State) : Host.Outcome State Fault Refusal :=
  finish s (do
    s.scalars [d.toNat]
    let (_, l) ← s.superstep
    s.report d.toNat (BitVec.ofNat 64 (l.steps / 2 % 2 ^ 32 + l.steps % 2 * 2 ^ 32)))

/-- The ALIGN counts of a sequencer. -/
def Core.aligns (c : Core) (q : Sq) (k : Nat) : Nat := (if q = .ld then c.alignLd[k]? else c.alignSt[k]?).getD 0

/-- The waits of a pair of ALIGNs of a core's ld and st complete in the same cycle: what either has stored or joined is ordered
before what the other does next, in every scope (R167, R234, R235). -/
def State.alignPair (s : State) (n : Nat) : State :=
  let t := s.revealOf n (fun p => if p.stored then some 4 else if p.joined.ld || p.joined.st then some p.joinScope else none)
  let u := t.modPast n (fun p => if p.stored || p.joined.ld || p.joined.st then { p with joined := (p.joined.set .ld true).set .st true } else p)
  u.modCore n (fun c => { (c.modSeq .ld (fun x => (x.advance 2).resume)).modSeq .st (fun x => (x.advance 2).resume) with
    floor := u.writes, handed := u.writes, lastActive := s.cycle })

/-- ALIGN k: the n-th of ld pairs with the n-th of st; each waits until the other has issued, and the model has both wait until
the accesses before them have performed (R167, log 16). A partner that has ended without its match is 0x27. -/
def execAlign (k : BitVec 4) (s : State) : Host.Outcome State Fault Refusal :=
  finish s (do
    s.only [.ld, .st]
    let other := if s.curSq = .ld then Sq.st else .ld
    let i := k.toNat
    let first := match s.seq.mark with
      | some (.align _ _) => false
      | _ => true
    let c := s.cur
    let c := if first then
        (if s.curSq = .ld then { c with alignLd := c.alignLd.setIfInBounds i (c.aligns .ld i + 1) }
         else { c with alignSt := c.alignSt.setIfInBounds i (c.aligns .st i + 1) })
      else c
    let n := c.aligns s.curSq i
    let t := (s.setCur c).awaitMark .token (.align i n)
    if c.aligns other i < n then
      if (c.seqs.get other).run = .ended then .error (.trap 0x27) else .ok t
    else if c.quiet .ld && c.quiet .st then .ok (t.alignPair s.curCore)
    else .ok t)

end Sys2Proof.Machine
end

