-- ==== Sys2Proof/Machine/Waits.lean ====
section
/-!
DEFINITION. Waits that are ended: what a waiting instruction has done is taken back (R121), and a late cause is raised at a
sequencer's instruction boundary, which for one that waits is at once (R15, R123).
-/
namespace Sys2Proof.Machine

/-- A word of the aperture that nothing has touched. -/
def ApWord.empty : ApWord := ⟨[], [], [], [], 0⟩

/-- The key of a word of the aperture. -/
def apKey (ctx slot word : Nat) : Nat := (ctx * 64 + slot) * 8192 + word

/-- A word of the aperture. -/
def State.apWord (s : State) (key : Nat) : ApWord := Store.getD s.aperture key ApWord.empty

/-- Replaces a word of the aperture. -/
def State.setApWord (s : State) (key : Nat) (w : ApWord) : State := { s with aperture := Store.put key w s.aperture }

/-- The result of HREVK (R144). -/
def sweepResult (x : Sweep) : Word :=
  if x.refused then BitVec.ofNat 64 (2 ^ 63 + 1) else BitVec.ofNat 64 (x.regs % 2 ^ 32 + x.copies % 2 ^ 32 * 2 ^ 32)

/-- A sequencer's instruction of n parcels has completed. -/
def State.complete2 (s : State) (n : Nat) (q : Sq) : State := s.modCore n (fun c => c.modSeq q (fun x => (x.advance 2).resume))

/-- A waiting instruction completes with a value for a register. -/
def State.completeWith (s : State) (n : Nat) (q : Sq) (d : Nat) (v : Word) (pops : Bool) : State :=
  s.modCore n (fun c => c.modSeq q (fun x => (((if pops then x.pop q [31] else x).put q d v 0).advance 2).resume))

/-- The wait of a sequencer can be ended at once: not that of an HREVK whose sweep has begun and is not complete, which the
sweep ends (log 35). -/
def State.undoable (s : State) (n : Nat) (q : Sq) : Bool :=
  match ((s.core n).seqs.get q).mark with
  | some (.sweep id _ _) => (Store.find? s.sweeps id).all (fun x => x.done || x.stage == 0)
  | _ => true

/-- A waiting instruction has had no effect (R121): its first part is taken back, or, where what it waited for has come
about, it completes. -/
def State.undoWait (s : State) (n : Nat) (t : Task) (q : Sq) : State :=
  let x := (s.core n).seqs.get q
  let me : Party := ⟨n, q⟩
  let clear := fun (s : State) => s.modCore n (fun c => c.modSeq q (fun x => { x with mark := none }))
  match x.mark with
  | some (.arrived b _) =>
    match Store.find? s.gangs t.gang with
    | none => clear s
    | some g =>
      let y := g.barrier b
      if y.arrived.contains me
      then clear { s with gangs := Store.put t.gang { g with barriers := Store.put b { y with arrived := y.arrived.filter (· != me) } g.barriers } s.gangs }
      else s.complete2 n q
  | some (.step k) =>
    match t.launch.bind (fun l => (Store.find? s.launches l).map (fun x => (l, x))) with
    | none => clear s
    | some (l, x) =>
      if k < x.steps then s.complete2 n q
      else clear { s with launches := Store.put l { x with arrived := x.arrived.filter (· != me) } s.launches }
  | some (.align k i) =>
    let c := s.core n
    if i ≤ c.aligns (if q = .ld then .st else .ld) k && c.quiet .ld && c.quiet .st then s.alignPair n
    else clear (s.modCore n (fun c => if q = .ld then { c with alignLd := c.alignLd.setIfInBounds k (i - 1) }
      else { c with alignSt := c.alignSt.setIfInBounds k (i - 1) }))
  | some (.round key k) =>
    let w := s.apWord key
    clear (s.setApWord key { w with loads := Store.put n (k - 1) w.loads })
  | some (.sweep id d pops) =>
    match Store.find? s.sweeps id with
    | none => clear s
    | some x =>
      let s1 := { s with sweeps := Store.erase id s.sweeps }
      if x.done then s1.completeWith n q d (sweepResult x) pops else clear s1
  | some (.save _) => clear { s with commits := s.commits.filter (fun k => k.core != some n) }
  | some (.saved d v) => s.completeWith n q d v false
  | some .cancelled => clear s
  | none => s

/-- Takes back the waits of all four sequencers. -/
def State.undoWaits (s : State) (n : Nat) (t : Task) : State := [Sq.ld, Sq.ex, Sq.st, Sq.ctl].foldl (fun (u : State) q => u.undoWait n t q) s

/-- The sequencer of a core meets a late cause, raised at its next boundary (R15). -/
def Core.raiseLate (c : Core) (q : Sq) (cause : Cause) : Core :=
  c.modSeq q (fun x => if x.run = .ended then { x with cause := cause, late := some cause } else { x with late := some cause })

/-- A late cause is raised at the boundary (R15, R123): a waiting instruction has had no effect, or has completed (R121). One
that waits for a sweep in progress ends its wait first. -/
def State.meetLate (s : State) (n : Nat) (q : Sq) : State :=
  match ((s.core n).seqs.get q).late, (s.core n).task with
  | some c, some t =>
    if !s.undoable n q then s
    else (s.undoWait n t q).modCore n (fun x => x.modSeq q (fun y => ({ y with late := none } : SeqState).halt c))
  | _, _ => s

/-- A sequencer that waits is at an instruction boundary: a late cause is raised in it at once (R15). -/
def State.meetWaiting (s : State) (n : Nat) (q : Sq) : State := if ((s.core n).seqs.get q).run = .waiting then s.meetLate n q else s

/-- A cause is raised late in a sequencer of a core: at once where it waits, else at its next boundary (R15). -/
def State.raiseLate (s : State) (n : Nat) (q : Sq) (cause : Cause) : State := (s.modCore n (fun c => c.raiseLate q cause)).meetWaiting n q

end Sys2Proof.Machine
end

