-- ==== Sys2Proof/Machine/Loads.lean ====
section
/-!
DEFINITION. Loads, stores, atomics, signals, fences and prefetches, and the events in which they are delivered and
performed (R153 to R167, R233, R237 to R241).
-/
namespace Sys2Proof.Machine

/-- The atomic brings its old value to a load, which stands for the request (R162). -/
def StoreKind.returns : StoreKind → Bool
  | .atomic _ _ _ (some _) => true
  | _ => false

/-- Requests that a core has outstanding: at most 1,024 (R9). -/
def Core.requests (c : Core) : Nat := c.loads.length + (c.stores.filter (fun x => !x.kind.returns)).length

/-- A tag may be allocated: it stands for no load, and did not in the previous cycle (R240). -/
def Core.tagFree (c : Core) (t : Nat) : Bool := (Store.find? c.tags t).isNone && !c.freed.contains t

/-- The lowest-numbered free tag of a range; T15 where the range has none, and nothing while T15 is held (R237, R241). -/
def Core.freeTag (c : Core) (lo hi : Nat) : Option Nat :=
  match (List.range (hi + 1 - lo)).find? (fun i => c.tagFree (lo + i)) with
  | some i => some (lo + i)
  | none => if c.tagFree 15 then some 15 else none

/-- Allocates a tag to a load; T15 also covers every tagged load outstanding (R241). -/
def Core.takeTag (c : Core) (tag id : Nat) : Core :=
  { c with tags := Store.put tag (if tag = 15 then (id :: c.tags.flatMap Prod.snd).eraseDups else [id]) c.tags }

/-- Removes tags from every set of the core (R240). -/
def Core.dropTags (c : Core) (m : Taint) : Core :=
  let k := ~~~m
  let seq := fun (x : SeqState) => { x with
    taint := x.taint.map (· &&& k), ctlTaint := x.ctlTaint &&& k,
    rq := x.rq.map (fun e => { e with taint := e.taint &&& k }) }
  { c with
    seqs := ⟨seq c.seqs.ld, seq c.seqs.ex, seq c.seqs.st, seq c.seqs.ctl⟩,
    rowTaint := (c.rowTaint.map (fun p => (p.1, p.2 &&& k))).filter (fun p => p.2 != 0),
    me := { c.me with shadowTaint := c.me.shadowTaint.map (· &&& k) } }

/-- A load has performed: it leaves the tags that stand for it, and a tag that stands for nothing more leaves every set, and is
free from the next cycle (R240, R241). -/
def Core.performLoad (c : Core) (id : Nat) : Core :=
  let left := c.tags.map (fun p => (p.1, p.2.filter (· != id)))
  let gone := left.filter (fun p => p.2.isEmpty)
  let m := gone.foldl (fun (t : Taint) p => t ||| ((1 : Taint) <<< p.1)) 0
  let c := { c with tags := left.filter (fun p => !p.2.isEmpty), freed := gone.map Prod.fst ++ c.freed,
                    loads := (c.loads.map (fun l => if l.id = id then { l with performed := true } else l)).filter
                      (fun l => !(l.performed && l.delivered)) }
  if gone.isEmpty then c else c.dropTags m

/-- The taint set of one tag. -/
def tagSet : Option Nat → Taint
  | none => 0
  | some t => (1 : Taint) <<< t

/-- The acquires of ld whose value is not yet read: later loads of ld read after them (R157). -/
def Core.openAcquires (c : Core) : List Nat := (c.loads.filter (fun l => l.acquire.isSome && l.value.isNone)).map LoadReq.id

/-- The loads that order a new copy of ld: those named in sets, and acquires not yet performed (R157, R239). -/
def Core.loadDeps (c : Core) (t : Taint) : List Nat :=
  c.loadsOf t ++ (c.loads.filter (fun l => l.acquire.isSome && !l.performed)).map LoadReq.id

/-- Issues a load: takes a tag where it needs one, reserves its queue entry, and marks its register as awaiting the
value (R12, R157, R237). -/
def State.issueLoad (s : State) (ls : List Loc) (dest : LoadDest) (tagged : Option (Nat × Nat)) (deps : List Nat)
    (acquire : Option Nat) (atomic : Bool) : Except Stop State :=
  let c := s.cur
  if Config.maxRequests ≤ c.requests then .error (.wait .engine)
  else do
    let tag ← match tagged with
      | none => .ok none
      | some (lo, hi) => match c.freeTag lo hi with
        | none => .error (Stop.wait .engine)
        | some t => .ok (some t)
    let id := c.nextId
    let req : LoadReq := ⟨id, s.curSq, ls, dest, tag, none, false, false, atomic, deps, acquire,
      if s.curSq = .ld then c.openAcquires else [], c.floor, 0, false⟩
    let c1 := { c with nextId := id + 1, loads := c.loads ++ [req] }
    let c2 := match tag with
      | none => c1
      | some t => c1.takeTag t id
    let c3 := match dest with
      | .none => c2
      | .reg d => if fixedReg s.curSq d then c2 else c2.modSeq s.curSq (fun x =>
          { x with pending := x.pending.setIfInBounds d (some id), loaded := x.loaded.setIfInBounds d none, taint := x.taint.setIfInBounds d (tagSet tag) })
      | .queue q => c2.modSeq q (fun x => { x with rq := x.rq ++ [⟨id, none, tagSet tag⟩] })
    .ok (s.setCur c3)

/-- The body of LD (R156, R157). -/
def State.load (s : State) (len : Nat) (d h a : BitVec 5) (z o : BitVec 2) (sc : BitVec 3) (q : BitVec 1) (lit : BitVec 32) :
    Except Stop State := do
  need (wfLoad d o sc q) 0x02
  s.only [.ld]
  s.scalars (if q = 0 then [d.toNat, a.toNat] else [a.toNat])
  let hv ← s.handleReg h.toNat
  let (off, t) ← s.offset a.toNat lit
  let n := 2 ^ z.toNat
  let (s1, ls) ← s.reach hv rightR off n n .read
  let dest := if q = 1 then LoadDest.queue (Sq.ofNum d.toNat) else if d = 0 then .none else .reg d.toNat
  match dest with
  | .queue r => if 16 ≤ (s1.cur.seqs.get r).rq.length then .error (.wait .receive) else .ok ()
  | _ => .ok ()
  let _ ← s1.readNow ls
  let tagged := if dest = .none ∨ localAccess s.curCore hv off then none else some (0, 11)
  let s2 ← s1.issueLoad ls dest tagged (s.cur.loadsOf (t ||| s.seq.ctlTaint))
    (if o = 1 then some (scopeOf sc) else none) false
  .ok (s2.retire len)

/-- LD (R156). -/
def execLd (d h a : BitVec 5) (z o : BitVec 2) (sc : BitVec 3) (q : BitVec 1) (s : State) : Host.Outcome State Fault Refusal :=
  finish s (s.load 2 d h a z o sc q 0)
/-- LD with a literal (R156). -/
def execLdLit (d h a : BitVec 5) (z o : BitVec 2) (sc : BitVec 3) (q : BitVec 1) (lit : BitVec 32) (s : State) :
    Host.Outcome State Fault Refusal := finish s (s.load 4 d h a z o sc q lit)

/-- Puts a store in its sequencer's queue (R233), after what the sequencer has joined (R248). -/
def State.issueStore (s : State) (ls : List Loc) (k : StoreKind) (deps : List Nat) : Except Stop State :=
  let c := s.cur
  if !k.returns && decide (Config.maxRequests ≤ c.requests) then .error (.wait .engine)
  else .ok (State.carry (s.setCur { c with nextId := c.nextId + 1, stores := c.stores ++ [⟨c.nextId, s.curSq, ls, k, deps⟩] }) s.curCore s.curSq)

/-- The body of ST (R158). -/
def State.store (s : State) (len : Nat) (d h a : BitVec 5) (z o : BitVec 2) (sc : BitVec 3) (lit : BitVec 32) :
    Except Stop State := do
  need (wfStore o sc) 0x02
  s.only [.st]
  s.scalars [d.toNat, a.toNat]
  let hv ← s.handleReg h.toNat
  let (off, t) ← s.offset a.toNat lit
  let v ← s.src d.toNat
  let n := 2 ^ z.toNat
  let (s1, ls) ← s.reach hv rightW off n n .write
  let data := bytesOf n v.1.toNat
  let kind := match o.toNat with
    | 0 => StoreKind.plain data
    | 1 => .release (scopeOf sc) data
    | 2 => .combining data
    | _ => .streaming data
  let s2 ← s1.issueStore ls kind (s.cur.loadsOf (t ||| v.2 ||| s.seq.ctlTaint))
  .ok ((s2.pop [d.toNat, a.toNat]).retire len)

/-- ST (R158). -/
def execSt (d h a : BitVec 5) (z o : BitVec 2) (sc : BitVec 3) (s : State) : Host.Outcome State Fault Refusal :=
  finish s (s.store 2 d h a z o sc 0)
/-- ST with a literal (R158). -/
def execStLit (d h a : BitVec 5) (z o : BitVec 2) (sc : BitVec 3) (lit : BitVec 32) (s : State) :
    Host.Outcome State Fault Refusal := finish s (s.store 4 d h a z o sc lit)

/-- The body of an atomic (R162, R163): s[a] is the offset, s[a + 1] the operand or comparand, s[a + 2] the new value
of a compare-and-swap. It is one access towards every agent, whatever scope its field names: R163 asks it of those of the
scope's own instance, and leaves the others open (DESIGN CHOICE, log 14). -/
def State.atomic (s : State) (op : AtomOp) (d h a : BitVec 5) (sc : BitVec 3) (w : BitVec 1) : Except Stop State := do
  let extra := if op = .cas then 2 else 1
  need (wfScope sc && wfGroup a extra) 0x02
  s.only [.st]
  let rs := [a.toNat, a.toNat + 1] ++ (if op = .cas then [a.toNat + 2] else [])
  s.scalars (d.toNat :: rs)
  let hv ← s.handleReg h.toNat
  let (off, t) ← s.offset a.toNat 0
  let x ← s.src (a.toNat + 1)
  let y ← (if op = .cas then s.src (a.toNat + 2) else .ok (0, 0))
  let n := if w = 1 then 8 else 4
  let (s1, ls) ← s.reach hv rightA off n n .atomic
  let _ ← s1.readNow ls
  let deps := s.cur.loadsOf (t ||| x.2 ||| y.2 ||| s.seq.ctlTaint)
  let id := s1.cur.nextId
  let s2 ← (if d = 0 then .ok s1 else
    s1.issueLoad [] (.reg d.toNat) (if localAccess s.curCore hv off then none else some (12, 14)) deps none true)
  let s3 ← s2.issueStore ls (.atomic op x.1 y.1 (if d = 0 then none else some id)) deps
  .ok ((s3.modSeq (fun q => q.pop s.curSq rs)).retire 2)

/-- AADD (R162). -/
def execAadd (d h a : BitVec 5) (sc : BitVec 3) (w : BitVec 1) (s : State) : Host.Outcome State Fault Refusal := finish s (s.atomic .add d h a sc w)
/-- AAND (R162). -/
def execAand (d h a : BitVec 5) (sc : BitVec 3) (w : BitVec 1) (s : State) : Host.Outcome State Fault Refusal := finish s (s.atomic .and d h a sc w)
/-- AOR (R162). -/
def execAor (d h a : BitVec 5) (sc : BitVec 3) (w : BitVec 1) (s : State) : Host.Outcome State Fault Refusal := finish s (s.atomic .or d h a sc w)
/-- AXOR (R162). -/
def execAxor (d h a : BitVec 5) (sc : BitVec 3) (w : BitVec 1) (s : State) : Host.Outcome State Fault Refusal := finish s (s.atomic .xor d h a sc w)
/-- AMIN (R162). -/
def execAmin (d h a : BitVec 5) (sc : BitVec 3) (w : BitVec 1) (s : State) : Host.Outcome State Fault Refusal := finish s (s.atomic .min d h a sc w)
/-- AMAX (R162). -/
def execAmax (d h a : BitVec 5) (sc : BitVec 3) (w : BitVec 1) (s : State) : Host.Outcome State Fault Refusal := finish s (s.atomic .max d h a sc w)
/-- AMINU (R162). -/
def execAminu (d h a : BitVec 5) (sc : BitVec 3) (w : BitVec 1) (s : State) : Host.Outcome State Fault Refusal := finish s (s.atomic .minu d h a sc w)
/-- AMAXU (R162). -/
def execAmaxu (d h a : BitVec 5) (sc : BitVec 3) (w : BitVec 1) (s : State) : Host.Outcome State Fault Refusal := finish s (s.atomic .maxu d h a sc w)
/-- ASWP (R162). -/
def execAswp (d h a : BitVec 5) (sc : BitVec 3) (w : BitVec 1) (s : State) : Host.Outcome State Fault Refusal := finish s (s.atomic .swap d h a sc w)
/-- ACAS (R162). -/
def execAcas (d h a : BitVec 5) (sc : BitVec 3) (w : BitVec 1) (s : State) : Host.Outcome State Fault Refusal := finish s (s.atomic .cas d h a sc w)

/-- SIGADD: a release at system scope (R165). -/
def execSigadd (d a h : BitVec 5) (s : State) : Host.Outcome State Fault Refusal :=
  finish s (do
    s.only [.st]
    s.scalars [d.toNat, a.toNat]
    let hv ← s.handleReg h.toNat
    let (off, t) ← s.offset a.toNat 0
    let v ← s.src d.toNat
    let (s1, ls) ← s.reach hv (rightR ||| rightW ||| rightA) off 8 8 .atomic
    let _ ← s1.readNow ls
    let s2 ← s1.issueStore ls (.signal v.1) (s.cur.loadsOf (t ||| v.2 ||| s.seq.ctlTaint))
    .ok ((s2.pop [d.toNat, a.toNat]).retire 2))

/-- The relations of SIGWAIT, signed (R166). -/
def signalRelation (r : BitVec 3) (x y : Word) : Bool :=
  match r.toNat with
  | 0 => x == y
  | 1 => x != y
  | 2 => x.slt y
  | 3 => x.sle y
  | 4 => y.sle x
  | _ => y.slt x

/-- SIGWAIT: waits until the signal stands in the relation to s[d], then writes the value it observed (R166), having let the
earlier loads of the signal read first (R230). -/
def execSigwait (d a : BitVec 5) (t : BitVec 1) (r : BitVec 3) (h : BitVec 5) (s : State) : Host.Outcome State Fault Refusal :=
  finish s (do
    need (wfSignalRel r) 0x02
    s.only [.ld]
    s.scalars [d.toNat, a.toNat]
    let hv ← s.handleReg h.toNat
    let (off, _) ← s.offset a.toNat 0
    let y ← s.src d.toNat
    let (s1, ls) ← s.reach hv rightR off 8 8 .read
    if s1.cur.inWay s.curSq ls then .error .stall
    else do
      let bs ← s1.readNow ls
      let v : Word := BitVec.ofNat 64 (numOf bs)
      if t = 1 ∧ v.slt 0 then .error (.trap 0xA4)
      else if signalRelation r v y.1 then .ok (((s1.saw ls).acquireAll.put d.toNat v 0).retire 2)
      else .error (.wait .signal))

/-- A FENCE of st has joined and ordered its earlier stores at a scope (R158, R164), and its next token or advance hands them on
(R235). -/
def State.fenceStores (s : State) (scope : Nat) : State :=
  if s.curSq = .st then
    let t := (s.revealOf s.curCore (fun p => if p.stored then some scope else none)).modPast s.curCore (fun p =>
      if p.stored then { p with joined := p.joined.set .st true } else p)
    t.modCur (fun c => { c with fenced := t.writes })
  else s

/-- A FENCE of st that covers its loads alone, the atomics that have returned a value: its next token or advance hands them on
(R164, R235). -/
def State.fenceLoads (s : State) : State := if s.curSq = .st then s.modCur (fun c => { c with fenced := Nat.max c.fenced c.fetched }) else s

/-- FENCE waits until the accesses of its kind have performed (R164): kind 0 all, 1 the loads, 2 the stores. -/
def execFence (k : BitVec 2) (sc : BitVec 3) (s : State) : Host.Outcome State Fault Refusal :=
  finish s (do
    need (wfFenceKind k && wfScope sc) 0x02
    s.only [.ld, .st]
    let c := s.cur
    let loads := c.loads.all (fun l => l.performed || l.sq != s.curSq)
    let stores := c.stores.all (fun x => x.sq != s.curSq)
    if (k == 2 || loads) && (k == 1 || stores)
    then .ok ((if k = 1 then s.fenceLoads else s.fenceStores (scopeOf sc)).retire 2) else .error (.wait .other))

/-- The pages that PREF installs, from page j on (R161): those that begin beyond the bounds, which end at `stop`, or whose
translation would fault, are skipped. -/
def State.prefetchPages (s : State) (va stop g : Nat) : Nat → Nat → State
  | 0, _ => s
  | n + 1, j =>
    let w := s.who
    let a := va + j * g
    let t := if a < 2 ^ 57 then
        match s.translateFresh w.ctx w.part a .read with
        | .ok e => if e.va < stop then s.noteTlb w.core e else s
        | .error _ => s
      else s
    State.prefetchPages t va stop g n (j + 1)

/-- The address of this module that a handle names at an offset, and the end of its object; none where it names no memory that
translations of this module reach. -/
def State.ownAddress (s : State) (h : BitVec 256) (off : Nat) : Option (Nat × Nat) :=
  let va := hBase h + off
  let rank := (s.cur.task.map (fun t => t.group.rank)).getD 0
  if hOnchip h ∨ 2 ^ 41 ≤ off then none
  else if !hPeer h then some (va, hBase h + hLen h)
  else if va / 2 ^ 50 % 64 = rank ∧ !va.testBit 56 then some (va % 2 ^ 50, va % 2 ^ 50 + (hLen h - off)) else none

/-- The body of PREF (R161): the handle with right R, but its bounds; it writes no register and orders nothing. It follows the
acquires of ld (R157). Its access size is that of its size field (R154; log 17). -/
def State.prefetch (s : State) (len : Nat) (h a : BitVec 5) (z : BitVec 2) (lit : BitVec 32) : Except Stop State := do
  s.only [.ld]
  s.scalars [a.toNat]
  let hv ← s.handleReg h.toNat
  let (off, _) ← s.offset a.toNat lit
  let w := s.who
  match s.handleCause w.tenant hv (if needM w.core hv off 1 then rightR ||| rightM else rightR) with
  | some c => .error (.trap c)
  | none => do
    need (decide (off % 2 ^ z.toNat = 0)) 0x43
    if s.cur.loads.any (fun l => l.acquire.isSome && !l.performed) then .error .stall
    else match s.ownAddress hv off with
      | none => .ok (s.retire len)
      | some (va, stop) =>
        let g := match s.translateFresh w.ctx w.part va .read with
          | .ok e => e.size
          | .error _ => Config.pageBytes
        .ok ((s.prefetchPages va stop g (2 ^ z.toNat) 0).retire len)

/-- PREF (R161). -/
def execPref (h a : BitVec 5) (z : BitVec 2) (s : State) : Host.Outcome State Fault Refusal := finish s (s.prefetch 2 h a z 0)
/-- PREF with a literal (R161). -/
def execPrefLit (h a : BitVec 5) (z : BitVec 2) (lit : BitVec 32) (s : State) : Host.Outcome State Fault Refusal :=
  finish s (s.prefetch 4 h a z lit)

/-- Changes the load of an id. -/
def Core.modLoad (c : Core) (id : Nat) (f : LoadReq → LoadReq) : Core :=
  { c with loads := c.loads.map (fun l => if l.id = id then f l else l) }

/-- The load of an id, with the loads of its core that stand before it. -/
def Core.loadAt (c : Core) (id : Nat) : Option (LoadReq × List LoadReq) :=
  (c.loads.find? (fun l => l.id == id)).map (fun l => (l, c.loads.takeWhile (fun x => x.id != id)))

/-- The value a load reads, where it may read, and the time as of which: the loads it follows have performed (R239) or, if
acquires, been read (R157), no earlier load of its sequencer from the same bytes is still to be read (R230), and its rows are
verified (R181). What no order puts before it, it may miss: any write from its bound on (R230, R233, R243). -/
def State.bindLoad (s : State) (core : Nat) (c : Core) (l : LoadReq) (before : List LoadReq) : Option (Word × Nat) :=
  match l.value with
  | some v => some (v, l.readAt)
  | none =>
    if l.atomic || c.blocked l.deps || l.locs.any s.unverified
        || before.any (fun x => x.sq == l.sq && x.value.isNone && (overlap x.locs l.locs || l.acqs.contains x.id)) then none
    else
      let t := s.readTime core l.floor l.locs
      some (BitVec.ofNat 64 (numOf (l.locs.map (s.readAsOf t))), t)

/-- Writes up to a time are ordered before the later loads of ld: those issued after the load of an id and not yet read, or
that depend on it (`only`), and those to come. -/
def Core.raiseFloor (c : Core) (id t : Nat) (only : Bool) : Core :=
  { c with floor := Nat.max c.floor t,
           loads := c.loads.map (fun x => if x.sq = .ld ∧ x.value.isNone ∧ (if only then id ∈ x.deps else id < x.id)
             then { x with floor := Nat.max x.floor t } else x) }

/-- An acquire at a scope synchronises with what it has read as of a time: the newest write to its bytes stands for an agent of
its own scope, itself or through read-modify-writes (R229, R245). -/
def State.synchronises (s : State) (core scope : Nat) (ls : List Loc) (t : Nat) : Bool :=
  ls.any (fun l => ((s.writeAsOf t l).map (fun p => p.agents.any (fun a => sameInstance scope a core))).getD false)

/-- The time at which a load reads bytes as of a time: not before its floor, nor before what it reads is ordered before what
follows (R231, R232). -/
def State.readMoment (s : State) (floor t : Nat) (ls : List Loc) : Nat :=
  ((s.past.filter (fun p => ls.contains p.loc && decide (p.time ≤ t))).map Past.latest).foldl Nat.max (Nat.max t floor)

/-- A load of a core has read its value as of a time: what it has read is ordered before what follows it, and what it has missed
comes after it (R231, R232); ld reads those bytes no older later (R230); and an acquire orders the later loads of ld after what
it has read, where it synchronises (R229, R245). -/
def State.boundLoad (s : State) (core : Nat) (l : LoadReq) (v : Word) (t : Nat) : State :=
  if l.value.isSome then s
  else
    let s1 := s.observed t l.locs
    let k := s1.readMoment l.floor t l.locs
    let s2 : State := { s1 with past := s1.past.map (fun (p : Past) => if l.locs.contains p.loc && decide (t < p.time) then { p with missed := Nat.max p.missed (k + 1) } else p) }
    let put := fun (c : Core) => { c with loads := c.loads.map (fun (x : LoadReq) => if x.id = l.id then { x with value := some v, readAt := k } else x) }
    let saw := fun (c : Core) => if l.sq = .ld then c.saw l.locs t else c
    let acq := fun (c : Core) => match l.acquire with
      | some sc => if s.synchronises core sc l.locs t then c.raiseFloor l.id k false else c
      | none => c
    State.draw (s2.modCore core (fun c => acq (saw (put c))))

/-- A load performs, and what depends on it reads no older than it has (R239, R240). -/
def Core.performBound (c : Core) (id : Nat) : Core :=
  match c.loads.find? (fun l => l.id == id) with
  | some l => (if l.sq = .ld then c.raiseFloor id l.readAt true else c).performLoad id
  | none => c

/-- Puts a load's value where it goes: its register, unless something else has been written there since, or its entry
of a receive queue (R12, R157). -/
def Core.deliver (c : Core) (l : LoadReq) (v : Word) : Core :=
  match l.dest with
  | .none => c
  | .reg d => c.modSeq l.sq (fun x =>
      if x.pending[d]?.getD none = some l.id
      then { x with regs := x.regs.setIfInBounds d v, pending := x.pending.setIfInBounds d none, loaded := x.loaded.setIfInBounds d (some l.id) } else x)
  | .queue q => c.modSeq q (fun x => { x with rq := x.rq.map (fun e => if e.id = l.id then { e with value := some v } else e) })

/-- A load ends with an error that its read has met, which is raised in its sequencer (R155, R374). -/
def State.failLoad (s : State) (core : Nat) (l : LoadReq) (e : Cause) : State :=
  (s.modCore core (fun c => { (c.modLoad l.id (fun x => { x with delivered := true })).performLoad l.id with lastActive := s.cycle })).raiseLate core l.sq e

/-- LOAD_VALUE_DELIVERY (R233, R240): the oldest load of a sequencer whose value has not been returned. A local load
performs with it. An error met by the read is raised in the sequencer (R155, R374). -/
def State.deliverLoad (s : State) (core id : Nat) : State :=
  let c := s.core core
  match c.loadAt id with
  | none => s
  | some (l, before) =>
    if l.delivered || before.any (fun x => x.sq == l.sq && !x.delivered) then s
    else match s.bindLoad core c l before with
      | none => s
      | some (v, t) =>
        match (if l.value.isNone then firstCause s.readCause l.locs else none) with
        | some e => s.failLoad core l e
        | none => (s.boundLoad core l v t).modCore core (fun c =>
          let c2 := (c.modLoad id (fun x => { x with delivered := true })).deliver l v
          { (if l.tag.isNone ∨ l.performed then c2.performBound id else c2) with lastActive := s.cycle })

/-- LOAD_VALUE_DELIVERY (R233, R240). -/
def execLoadValueDelivery (core id : Nat) (s : State) : Host.Outcome State Fault Refusal := .next (s.deliverLoad core id)

/-- A load whose taint a TCLR has cleared from a control taint may return another value as it performs, from its bound on: the
register that holds its value, and nothing that was done with it, takes that one (R243; log 14). -/
def LoadReq.mayChange (l : LoadReq) : Bool := l.loose && l.delivered && !l.atomic

/-- The register that still holds a load's value takes the value with which the load performs (R243). -/
def Core.redeliver (c : Core) (l : LoadReq) (v : Word) : Core :=
  match l.dest with
  | .reg d => c.modSeq l.sq (fun x => if x.loaded[d]?.getD none = some l.id then { x with regs := x.regs.setIfInBounds d v } else x)
  | _ => c

/-- LOAD_PERFORMED (R240): the load's value can no longer change, and its tag leaves every set. -/
def State.settleLoad (s : State) (core id : Nat) : State :=
  let c := s.core core
  match c.loadAt id with
  | none => s
  | some (l0, before) =>
    let again := l0.mayChange && (Config.pick s.draws).testBit 0
    let s := if again then s.draw else s
    let l := if again then { l0 with value := none } else l0
    if l.performed || c.blocked l.deps then s
    else match s.bindLoad core c l before with
      | none => s
      | some (v, t) =>
        match (if l.value.isNone then firstCause s.readCause l.locs else none) with
        | some e => s.failLoad core l e
        | none => (s.boundLoad core l v t).modCore core (fun c =>
          { (if again then c.redeliver l v else c).performBound id with lastActive := s.cycle })

/-- LOAD_PERFORMED (R240). -/
def execLoadPerformed (core id : Nat) (s : State) : Host.Outcome State Fault Refusal := .next (s.settleLoad core id)

/-- The new value of an atomic of n bytes from the old value m (Table 9-2). -/
def atomResult (op : AtomOp) (n : Nat) (m x y : Word) : Word :=
  let k := 8 * n
  let sm := signedOf k m.toNat
  let sx := signedOf k x.toNat
  let um := m.toNat % 2 ^ k
  let ux := x.toNat % 2 ^ k
  let v : Nat := match op with
    | .add => um + ux
    | .and => um &&& ux
    | .or => um ||| ux
    | .xor => um ^^^ ux
    | .min => if sm < sx then um else ux
    | .max => if sm < sx then ux else um
    | .minu => if um < ux then um else ux
    | .maxu => if um < ux then ux else um
    | .swap => ux
    | .cas => if um = ux then y.toNat % 2 ^ k else um
  BitVec.ofNat 64 (v % 2 ^ k)

/-- A store of the queue counts as a plain store or an atomic in Table 13-2: all but write-combining and non-temporal
ones. -/
def StoreKind.ordered : StoreKind → Bool
  | .combining _ => false
  | .streaming _ => false
  | _ => true

/-- The store must wait for an earlier store of its sequencer (Table 13-2, R158, R230): one to overlapping bytes; one
that is ordered, unless this one is non-temporal; and, for a release or SIGADD, a write-combining one too. A non-temporal
store that a FENCE has joined has performed: the FENCE waited for it (R164). -/
def mustFollow (x e : StoreReq) : Bool :=
  overlap x.locs e.locs ||
    (match x.kind with
     | .streaming _ => false
     | .release _ _ => (match e.kind with | .streaming _ => false | _ => true)
     | .signal _ => (match e.kind with | .streaming _ => false | _ => true)
     | _ => e.kind.ordered)

/-- A store may perform now: nothing before it in its sequencer's queue holds it back, the loads it follows have
performed, its rows are verified, and its page is not being copied. -/
def State.storeReady (s : State) (c : Core) (x : StoreReq) : Bool :=
  !c.blocked x.deps && !x.locs.any s.unverified
    && !(c.stores.takeWhile (fun e => e.id != x.id)).any (fun e => e.sq == x.sq && mustFollow x e)
    && !s.copying x.locs

/-- A compare-and-swap that finds another value than its comparand writes nothing (Table 9-2). -/
def casFails (op : AtomOp) (n : Nat) (m x : Word) : Bool := op == .cas && m.toNat % 2 ^ (8 * n) != x.toNat % 2 ^ (8 * n)

/-- An engine operation that was issued after a store follows it, in every scope (R247). -/
def Core.forked (c : Core) (id : Nat) : Bool := c.copies.any (fun k => k.storeDeps.contains id)

/-- Writes what a store writes; an atomic brings its old value to the load that returns it, and has read the
newest write (R162, R165, R231). A release covers what
its sequencer has joined (R158, R165). -/
def State.applyStore (s0 : State) (core : Nat) (x : StoreReq) : State :=
  let s := { s0 with actor := core }
  match x.kind with
  | .plain d => s.writeLocs (x.locs.zip d)
  | .combining d => s.writeFrom [core] (if (s.core core).forked x.id then Strength.plain else Strength.combining) (x.locs.zip d)
  | .streaming d => s.writeFrom [core] (if (s.core core).forked x.id then Strength.plain else Strength.joinedBy .fence) (x.locs.zip d)
  | .release sc d => (s.release core x.sq sc).writeLocs (x.locs.zip d)
  | .signal v =>
    (s.release core x.sq 4).writeRmw (x.locs.zip (bytesOf 8 (numOf (s.readLocs x.locs) + v.toNat)))
  | .atomic op a b ret =>
    let n := x.locs.length
    let m : Word := BitVec.ofNat 64 (numOf (s.readLocs x.locs))
    let t := if casFails op n m a then s.observed s.writes x.locs else s.writeRmw (x.locs.zip (bytesOf n (atomResult op n m a b).toNat))
    match ret with
    | none => t
    | some id => t.modCore core (fun c => { (c.modLoad id (fun l => { l with value := some m })).performLoad id with
        fetched := if x.sq = .st then t.writes else c.fetched })

/-- The access reads before it writes. -/
def StoreKind.reads : StoreKind → Bool
  | .atomic _ _ _ _ => true
  | .signal _ => true
  | _ => false

/-- An atomic or a SIGADD whose read meets an error when it performs: it writes nothing (R155, R374). -/
def Core.failStore (c : Core) (x : StoreReq) : Core :=
  match x.kind with
  | .atomic _ _ _ (some id) => (c.modLoad id (fun l => { l with delivered := true })).performLoad id
  | _ => c

/-- STORE_PERFORMED (R158, R233): an issued store, atomic or signal addition performs at memory; the cause of a read that fails is
raised in its sequencer (R155, R374). -/
def State.performStore (s : State) (core id : Nat) : State :=
  let c := s.core core
  match c.stores.find? (fun x => x.id == id) with
  | none => s
  | some x =>
    if !s.storeReady c x then s
    else
      let done := fun (c : Core) => { c with stores := c.stores.filter (fun e => e.id != id), lastActive := s.cycle }
      match (if x.kind.reads then firstCause s.readCause x.locs else none) with
      | some e => (s.modCore core (fun c => done (c.failStore x))).raiseLate core x.sq e
      | none => (s.applyStore core x).modCore core done

/-- STORE_PERFORMED (R158, R233). -/
def execStorePerformed (core id : Nat) (s : State) : Host.Outcome State Fault Refusal := .next (s.performStore core id)

end Sys2Proof.Machine
end

