-- ==== Sys2Proof/Machine/Handles.lean ====
section
/-!
DEFINITION. Minting, and the instructions on handles and keys (R138 to R146, R300 to R306, R311, R312).
-/
namespace Sys2Proof.Machine

/-- A key not yet used in a store. -/
def Store.fresh {α : Type} (m : Store α) : Nat := m.foldl (fun k p => Nat.max k (p.1 + 1)) 0

/-- The parts of a mint request (R138). -/
structure MintAsk where
  base : Nat
  len : Nat
  rights : BitVec 8
  flags : BitVec 8
  fmt : Nat
  /-- a reserved bit of the request is set -/
  reserved : Bool

/-- The request that HREQ builds from three registers (R138). -/
def mintAsk (base len ask : Word) : MintAsk where
  base := base.toNat % 2 ^ 57
  len := len.toNat
  rights := ask.extractLsb' 0 8
  flags := ask.extractLsb' 14 8
  fmt := (ask.extractLsb' 8 6).toNat
  reserved := decide (2 ^ 57 ≤ base.toNat) || decide (2 ^ 22 ≤ ask.toNat) || bitsOf ask.toNat 21 19 != 0

/-- The combinations that Table 17-4 excludes (R301). -/
def excluded (rights flags : BitVec 8) : Bool :=
  let host := flags.getLsbD 0
  let peer := flags.getLsbD 1
  let chip := flags.getLsbD 2
  let persist := flags.getLsbD 3
  let code := flags.getLsbD 4
  ((host || peer) && rights &&& (rightX ||| rightS ||| rightM) != 0)
    || (chip && (rights &&& (rightX ||| rightS) != 0 || host || peer))
    || (persist && rights &&& ~~~(rightR ||| rightW ||| rightS) != 0)
    || (code && rights &&& ~~~(rightR ||| rightX) != 0)
    || (rights &&& rightX != 0 && !code)

/-- An on-chip range lies in the windows of a partition's cores and clusters (R305). -/
def State.windowRange (s : State) (part lo hi : Nat) : Bool :=
  match Store.find? s.parts part with
  | none => false
  | some p =>
    let all := fun (a b : Nat) => (List.range (b + 1 - a)).all (fun i => p.clusters.contains (a + i))
    if hi < 0x40000000 then all (lo / 0x2000000) (hi / 0x2000000)
    else if 0x40000000 ≤ lo ∧ hi < 0x48000000 then all ((lo - 0x40000000) / 0x400000) ((hi - 0x40000000) / 0x400000)
    else false

/-- The status with which the TC answers a mint request (R139): the first that applies of range and reserved bits,
length and format, rights and flags, key slot, serials. -/
def State.mintStatus (s : State) (tenant part : Nat) (driver : Bool) (q : MintAsk) : Nat :=
  let last := q.base + Nat.max q.len 1 - 1
  match Store.find? s.tenants tenant with
  | none => if q.reserved || decide (2 ^ 57 ≤ last) then 2
      else if q.len = 0 ∨ 2 ^ 40 < q.len ∨ 11 ≤ q.fmt then 3 else if excluded q.rights q.flags then 1 else 4
  | some t =>
    let inRange := if q.flags.getLsbD 2 then s.windowRange part q.base last
      else decide (last < 2 ^ 57) && t.policy.ranges.any (fun r => decide (r.1 ≤ q.base) && decide (last ≤ r.2))
    let (rm, fm) := if driver then (t.policy.mintRights, t.policy.mintFlags) else (t.policy.hreqRights, t.policy.hreqFlags)
    if q.reserved || !inRange then 2
    else if q.len = 0 ∨ 2 ^ 40 < q.len ∨ 11 ≤ q.fmt then 3
    else if q.rights &&& ~~~rm != 0 || q.flags &&& ~~~fm != 0 || excluded q.rights q.flags then 1
    else if 2 ^ 32 ≤ t.nextSerial then 5
    else 0

/-- A handle from its fields, V set and sealed (Table 17-2, R302). -/
def makeHandle (key : BitVec 256) (base len : Nat) (rights flags : BitVec 8) (fmt tenant ctx slot : Nat) (epoch : BitVec 8)
    (serial : Nat) : BitVec 256 :=
  sealHandle key (BitVec.ofNat 256 (base % 2 ^ 57 + len % 2 ^ 40 * 2 ^ 57 + rights.toNat * 2 ^ 97 + tenant % 2 ^ 10 * 2 ^ 105
    + ctx % 2 ^ 12 * 2 ^ 115 + slot % 2 ^ 10 * 2 ^ 127 + epoch.toNat * 2 ^ 137 + fmt % 2 ^ 6 * 2 ^ 145
    + flags.toNat * 2 ^ 151 + serial % 2 ^ 32 * 2 ^ 159 + 2 ^ 191))

/-- The TC mints a handle, or refuses (R304): the status, the handle, and the tenant's next serial. -/
def State.mint (s : State) (tenant ctx part : Nat) (driver : Bool) (q : MintAsk) : State × Nat × BitVec 256 :=
  let st := s.mintStatus tenant part driver q
  match st, Store.find? s.tenants tenant with
  | 0, some t =>
    ({ s with tenants := Store.put tenant { t with nextSerial := t.nextSerial + 1 } s.tenants }, 0,
      makeHandle t.sealKey q.base q.len q.rights q.flags q.fmt tenant ctx t.slot t.epoch t.nextSerial)
  | n, _ => (s, n, 0)

/-- HREQ (R138). -/
def execHreq (a : BitVec 5) (t : BitVec 3) (s : State) : Host.Outcome State Fault Refusal :=
  finish s (do
    need (wfGroup a 3) 0x02
    s.only [.ctl]
    let rs := [a.toNat, a.toNat + 1, a.toNat + 2]
    s.scalars rs
    let x ← s.src a.toNat
    let y ← s.src (a.toNat + 1)
    let z ← s.src (a.toNat + 2)
    need ((Store.find? s.cur.mints t.toNat).isNone) 0x27
    .ok (((s.pop rs).modCur (fun c => { c with
      mints := Store.put t.toNat ⟨c.nextId, x.1, y.1, z.1, none⟩ c.mints, nextId := c.nextId + 1 })).retire 2))

/-- Writes a handle register, all 256 bits at once (R8). -/
def State.putHandle (s : State) (d : Nat) (h : BitVec 256) : State :=
  s.modCur (fun c => { c with handles := c.handles.setIfInBounds d h })

/-- HWAIT (R139). -/
def execHwait (h a : BitVec 5) (t : BitVec 3) (s : State) : Host.Outcome State Fault Refusal :=
  finish s (do
    s.only [.ctl]
    s.scalars [a.toNat]
    let _ ← s.handleReg h.toNat
    match Store.find? s.cur.mints t.toNat with
    | none => .error (.trap 0x27)
    | some m =>
      match m.answer with
      | none => .error (.wait .other)
      | some (st, v) =>
        let s1 := s.modCur (fun c => { c with mints := Store.erase t.toNat c.mints })
        .ok (((s1.putHandle h.toNat (if st = 0 then v else 0)).put a.toNat (BitVec.ofNat 64 st) 0).retire 2))

/-- The TC answers a request under a tag, once the earlier ones of the core are answered (R304). -/
def State.answerMint (s : State) (core tag : Nat) : State :=
  let c := s.core core
  match Store.find? c.mints tag, c.task with
  | some m, some t =>
    if m.answer.isSome || c.mints.any (fun p => p.2.answer.isNone && p.2.order < m.order) then s
    else
      let (s1, st, h) := s.mint t.tenant t.ctx t.part false (mintAsk m.base m.len m.ask)
      s1.modCore core (fun c => { c with mints := Store.put tag { m with answer := some (st, h) } c.mints, lastActive := s.cycle })
  | _, _ => s

/-- MINT_ANSWER (R304). -/
def execMintAnswer (core tag : Nat) (s : State) : Host.Outcome State Fault Refusal := .next (s.answerMint core tag)

/-- HMOV (R140). -/
def execHmov (d a : BitVec 5) (s : State) : Host.Outcome State Fault Refusal :=
  finish s (do
    s.only [.ctl]
    let v ← s.handleReg a.toNat
    let _ ← s.handleReg d.toNat
    .ok ((s.putHandle d.toNat v).retire 2))

/-- HCLR (R140). -/
def execHclr (d : BitVec 5) (s : State) : Host.Outcome State Fault Refusal :=
  finish s (do
    s.only [.ctl]
    let _ ← s.handleReg d.toNat
    .ok ((s.putHandle d.toNat 0).retire 2))

/-- The loads named in the sets of an instruction and in the control taint have performed, else the access waits for
them (R239). -/
def State.after (s : State) (t : Taint) : Except Stop Unit :=
  if s.cur.blocked (s.cur.loadsOf (t ||| s.seq.ctlTaint)) then .error .stall else .ok ()

/-- A place may be written now: its row is verified and its page is not being copied (R181, R295). -/
def State.writable (s : State) (ls : List Loc) : Except Stop Unit :=
  if ls.any s.unverified || s.copying ls then .error (.wait .other) else .ok ()

/-- HLD: loads 32 bytes into a handle register, unchecked, before the next instruction of ctl (R141). -/
def execHld (d a m : BitVec 5) (s : State) : Host.Outcome State Fault Refusal :=
  finish s (do
    s.only [.ctl]
    s.scalars [a.toNat]
    let _ ← s.handleReg d.toNat
    let hv ← s.handleReg m.toNat
    let (off, t) ← s.offset a.toNat 0
    let (s1, ls) ← s.reach hv rightR off 32 32 .read
    s.after t
    let bs ← s1.readNow ls
    .ok ((((s1.saw ls).pop [a.toNat]).putHandle d.toNat (BitVec.ofNat 256 (numOf bs))).retire 2))

/-- HST: stores a handle register as 32 bytes (R141). -/
def execHst (d a m : BitVec 5) (s : State) : Host.Outcome State Fault Refusal :=
  finish s (do
    s.only [.ctl]
    s.scalars [a.toNat]
    let v ← s.handleReg d.toNat
    let hv ← s.handleReg m.toNat
    let (off, t) ← s.offset a.toNat 0
    let (s1, ls) ← s.reach hv rightW off 32 32 .write
    s.after t
    s1.writable ls
    .ok (((s1.pop [a.toNat]).writeNow (ls.zip (bytesOf 32 v.toNat))).retire 2))

/-- HCHK: the first six checks of R142, as a value (R142). -/
def execHchk (d a : BitVec 5) (m : BitVec 8) (s : State) : Host.Outcome State Fault Refusal :=
  finish s (do
    s.only [.ctl]
    s.scalars [d.toNat]
    let hv ← s.handleReg a.toNat
    s.report d.toNat (BitVec.ofNat 64 ((s.handleCause s.who.tenant hv m).elim 0 BitVec.toNat)))

/-- The field of a handle that HGET selects (R143). -/
def handleField (h : BitVec 256) (n : Nat) : Nat :=
  match n with
  | 0 => hBase h
  | 1 => hLen h
  | 2 => (hRights h).toNat
  | 3 => hTenant h
  | 4 => hContext h
  | 5 => hSlot h
  | 6 => (hEpoch h).toNat
  | 7 => hFmt h
  | 8 => (hFlags h).toNat
  | 9 => hSerial h
  | _ => if hValid h then 1 else 0

/-- HGET (R143). -/
def execHget (d a : BitVec 5) (n : BitVec 4) (s : State) : Host.Outcome State Fault Refusal :=
  finish s (do
    need (wfHandleField n) 0x02
    s.only [.ctl]
    s.scalars [d.toNat]
    let hv ← s.handleReg a.toNat
    s.report d.toNat (BitVec.ofNat 64 (handleField hv n.toNat)))

/-- Begins a revocation: the policy's permit, asked only from within the device, and a list that is not full (R305, R306). -/
def State.beginSweep (s : State) (tenant serial : Nat) (all device : Bool) (session : Option Nat) : State × Nat :=
  let id := Store.fresh s.sweeps
  let refused := match Store.find? s.tenants tenant with
    | none => true
    | some t => (device && !t.policy.permitRevoke) || (!all && Config.maxRevoked ≤ t.revoked.length)
  ({ s with sweeps := Store.put id ⟨tenant, serial, all, !device, session, 0, 0, 0, refused, refused⟩ s.sweeps }, id)

/-- The body of HREVK (R144): sends the request, then waits until its sweep is reported complete. -/
def State.revokeWait (s : State) (d : Nat) (rs : List Nat) (serial : Except Stop Nat) (all : Bool) : Except Stop State := do
  s.only [.ctl]
  s.scalars (d :: rs)
  match s.seq.mark with
  | some (.sweep id _ _) =>
    match Store.find? s.sweeps id with
    | none => .error (.wait .other)
    | some x =>
      if x.done then
        .ok (((State.pop { s with sweeps := Store.erase id s.sweeps } rs).put d (sweepResult x) 0).retire 2)
      else .error (.wait .other)
  | _ =>
    let n ← serial
    let (s1, id) := s.beginSweep s.who.tenant n all true none
    .ok (s1.awaitMark .other (.sweep id d (rs.contains 31)))

/-- HREVK of one serial: bits [63:32] of s[a] must be zero (R144). -/
def execHrevk (d a : BitVec 5) (s : State) : Host.Outcome State Fault Refusal :=
  finish s (s.revokeWait d.toNat [a.toNat] (do
    let x ← s.src a.toNat
    need (decide (x.1.toNat < 2 ^ 32)) 0x02
    .ok x.1.toNat) false)
/-- HREVK of every handle of the tenant (R144). -/
def execHrevkAll (d : BitVec 5) (s : State) : Host.Outcome State Fault Refusal :=
  finish s (s.revokeWait d.toNat [] (.ok 0) true)

/-- Rows of a core may hold data of a tenant: it runs or last ran the tenant's task, or its cluster's current tenant it
is (R312). -/
def State.holdsRows (s : State) (core tenant : Nat) : Bool :=
  (s.core core).lastTenant == some tenant || Store.find? s.clusterTenant (core / Config.clusterCores) == some tenant

/-- Pages of an HBM slice. -/
def slicePages : Nat := Config.sliceBytes / Config.pageBytes

/-- The progress mark of a slice's walker from a page on: the first page still under the older generation; none past the
end (R312). -/
def State.nextMark (s : State) (slot slice lo : Nat) : Option Nat :=
  (List.find? (fun (p : Nat × Owner) => p.1 / slicePages == slice && decide (lo ≤ p.1 % slicePages) && p.2.slot == some slot && !p.2.newer) s.pages).map
    (fun (p : Nat × Owner) => p.1 % slicePages)

/-- Retires the older generation of a tenant once every progress mark has passed its end (R312, step 5): an image of it is refused
from then on (R314). -/
def State.settleRotation (s : State) (tenant : Nat) : State :=
  match Store.find? s.tenants tenant with
  | none => s
  | some t =>
    if t.rotating && t.marks.isEmpty && !(List.range Config.numCores).any (fun n => s.holdsRows n tenant && (s.core n).bankMark.isSome)
    then { s with retired := s.retired ++ (Store.find? t.imageRoots (t.gen - 1)).toList,
                  tenants := Store.put tenant { t with rotating := false, older := false, imageRoots := Store.erase (t.gen - 1) t.imageRoots, keys := Store.erase (t.gen - 1) t.keys } s.tenants,
                  pages := s.pages.map (fun (p : Nat × Owner) => if p.2.slot = some t.slot then (p.1, { p.2 with newer := false }) else p) }
    else s

/-- Retires what can be retired. -/
def State.settleRotations (s : State) : State := s.tenants.foldl (fun (t : State) (p : Nat × Tenant) => t.settleRotation p.1) s

/-- The keys of a new generation beside its image root, drawn at random (R310, R312). -/
def State.newKeys (s : State) : SlotKeys := ⟨Config.randomKey (s.draws + 1), Config.randomKey (s.draws + 2), Config.randomKey (s.draws + 3), Config.randomKey (s.draws + 4)⟩

/-- Begins a rotation of a tenant's key slot (R311, R312): 1 where one runs, 2 where the policy or the last generation
refuses, else the new generation. For a refusal by policy R145 gives 2 and R305 gives 1: the model takes R145's (DESIGN
CHOICE, log 43). -/
def State.beginRotation (s : State) (tenant : Nat) (device : Bool) : State × Except Nat Nat :=
  match Store.find? s.tenants tenant with
  | none => (s, .error 2)
  | some t =>
    if t.rotating then (s, .error 1)
    else if (device && !t.policy.permitRotate) || 2 ^ 32 - 1 ≤ t.gen then (s, .error 2)
    else
      let g := t.gen + 1
      let t' := { t with gen := g, older := true, rotating := true,
                         imageRoots := Store.put g (Config.randomKey s.draws) t.imageRoots, keys := Store.put g s.newKeys t.keys,
                         marks := (List.range Config.numSlices).filterMap (fun n => (s.nextMark t.slot n 0).map (fun m => (n, m))) }
      let s1 := { s with draws := s.draws + 5, tenants := Store.put tenant t' s.tenants }
      (State.settleRotation ((List.range Config.numCores).foldl (fun (x : State) n =>
        if x.holdsRows n tenant then x.modCore n (fun c => { c with bankMark := some 0 }) else x) s1) tenant, .ok g)

/-- KROT (R145). -/
def execKrot (d : BitVec 5) (s : State) : Host.Outcome State Fault Refusal :=
  finish s (do
    s.only [.ctl]
    s.scalars [d.toNat]
    match s.beginRotation s.who.tenant true with
    | (s1, .ok g) => s1.report d.toNat (BitVec.ofNat 64 g)
    | (s1, .error e) => s1.report d.toNat (BitVec.ofNat 64 (2 ^ 63 + e)))

/-- A progress mark as KSTAT shows it: all ones past the end, or where no rotation runs (R146). -/
def markWord : Option Nat → Nat
  | none => 0xFFFFFFFF
  | some m => m

/-- KSTAT (R146). -/
def execKstat (d : BitVec 5) (n : BitVec 10) (s : State) : Host.Outcome State Fault Refusal :=
  finish s (do
    need (wfKstat n) 0x02
    s.only [.ctl]
    s.scalars [d.toNat]
    let k := n.toNat
    let v := match Store.find? s.tenants s.who.tenant with
      | none => if k = 0 then 0 else 0xFFFFFFFF
      | some t =>
        if k = 0 then t.gen + (if t.rotating then 2 ^ 32 else 0) + (if t.older then 2 ^ 33 else 0)
        else if !t.rotating then 0xFFFFFFFF
        else if k ≤ 32 then markWord (Store.find? t.marks (k - 1))
        else markWord s.cur.bankMark
    s.report d.toNat (BitVec.ofNat 64 v))

end Sys2Proof.Machine
end

