-- ==== Sys2Proof/Machine/System.lean ====
section
/-!
DEFINITION. The system instructions: TRAP, the system registers, YIELD, CLK and ENRG (R150 to R152).
-/
namespace Sys2Proof.Machine

/-- TRAP raises 0xF0 + n (R150). -/
def execTrap (n : BitVec 4) (s : State) : Host.Outcome State Fault Refusal :=
  finish s (do
    need (wfTrap n) 0x02
    .error (.trap (0xF0 + n.zeroExtend 8)))

/-- The value of a system register for the issuing sequencer (Table 7-11). -/
def State.sysReg (s : State) (r : Nat) : Nat :=
  let c := s.cur
  match c.task with
  | none => 0
  | some t =>
    let g := t.group
    match r with
    | 0x000 => s.seq.passes
    | 0x001 => c.fpmode.toNat
    | 0x002 => c.fpflags.toNat
    | 0x003 => t.number.toNat
    | 0x004 => t.member
    | 0x005 => t.gangSize
    | 0x006 => t.ctx
    | 0x007 => t.tenant
    | 0x008 => s.curCore
    | 0x009 => g.rank
    | 0x00A => g.size
    | 0x00B => g.gen.toNat
    | 0x00C => Config.moduleId.toNat
    | 0x020 => t.queue
    | 0x021 => t.prio
    | _ => if r < 0x018 then g.neighbours.getD (r - 0x010) 0xFFFF else g.axes.getD (r - 0x018) 1

/-- A register of ex alone: FPMODE and FPFLAGS (R151). -/
def exRegister (r : BitVec 11) : Bool := r == 0x001 || r == 0x002

/-- GETS (R151): the result has an empty set. -/
def execGets (a : BitVec 5) (r : BitVec 11) (s : State) : Host.Outcome State Fault Refusal :=
  finish s (do
    need (wfSysReg r) 0x02
    need (!exRegister r || s.curSq == .ex) 0x03
    s.scalars [a.toNat]
    s.report a.toNat (BitVec.ofNat 64 (s.sysReg r.toNat)))

/-- SETS writes FPMODE or FPFLAGS; a reserved bit that is not zero traps with 0x02 (R45, R46, R151). -/
def execSets (a : BitVec 5) (r : BitVec 11) (s : State) : Host.Outcome State Fault Refusal :=
  finish s (do
    need (wfSysRegWrite r) 0x02
    need (s.curSq == .ex) 0x03
    s.scalars [a.toNat]
    let x ← s.src a.toNat
    need (decide (x.1.toNat < (if r = 1 then 4 else 32))) 0x02
    .ok (((s.pop [a.toNat]).modCur (fun c =>
      if r = 1 then { c with fpmode := x.1.extractLsb' 0 2 } else { c with fpflags := x.1.extractLsb' 0 5 })).retire 2))

/-- YIELD: 1 where a slice-end drain is pending in the partition, as it is for the tasks of the context that drains (R152,
R288; DEDUCED, log 38). -/
def execYield (a : BitVec 5) (s : State) : Host.Outcome State Fault Refusal :=
  finish s (do
    s.only [.ctl]
    s.scalars [a.toNat]
    let pending := s.ctxs.any (fun (c : Nat × Context) => c.2.part == s.who.part && c.2.draining.isSome)
    s.report a.toNat (if pending then 1 else 0))

/-- CLK: cycles since the cores left reset, or the time base in nanoseconds, cycles × 10 / 17 rounded down (R152). -/
def execClk (a : BitVec 5) (c : BitVec 1) (s : State) : Host.Outcome State Fault Refusal :=
  finish s (do
    s.scalars [a.toNat]
    s.report a.toNat (BitVec.ofNat 64 (if c = 0 then s.cycle else s.cycle * 10 / 17)))

/-- Key of a queue of a tenant (R258). -/
def queueKey (tenant q : Nat) : Nat := 64 * tenant + q

/-- The number of a record's process group among those of the module, by its queue and ring index. -/
def groupKey (key ring : Nat) : Nat := key * 2 ^ 32 + ring

/-- ENRG: the energy counter of a queue, which is charged while its tasks run and never falls (R152, R277). A queue of another
context is 0x41, the launching one too where it has been reassigned; one that is not configured reads zero (log 19). -/
def execEnrg (a : BitVec 5) (l : BitVec 1) (q : BitVec 6) (s : State) : Host.Outcome State Fault Refusal :=
  finish s (do
    need (wfEnergy l q) 0x02
    s.only [.ctl]
    s.scalars [a.toNat]
    let w := s.who
    let k := queueKey w.tenant (if l = 1 then (s.cur.task.map Task.queue).getD 0 else q.toNat)
    match Store.find? s.queues k with
    | none => s.report a.toNat 0
    | some x =>
      need (x.ctx == w.ctx) 0x41
      s.report a.toNat (BitVec.ofNat 64 x.energy))

end Sys2Proof.Machine
end

