-- ==== Sys2Proof/Machine/Queues.lean ====
section
/-!
DEFINITION. Launch queues and their records: appending, status words, completion signals, completion with abort
forwarding (R258 to R271), and the instructions LAUNCH and QSTAT (R147, R148).
-/
namespace Sys2Proof.Machine

/-- Inserts by a key, behind what has an equal one. -/
def insertKey {α : Type} (f : α → Nat) (x : α) : List α → List α
  | [] => [x]
  | y :: ys => if f x < f y then x :: y :: ys else y :: insertKey f x ys

/-- Sorts by a key; equal keys keep their order. -/
def sortKey {α : Type} (f : α → Nat) (l : List α) : List α := l.foldl (fun (acc : List α) x => insertKey f x acc) []

/-- Bytes off to off + n - 1 of a launch record as a number (Table 1-4). -/
def recNum (b : BitVec 2048) (off n : Nat) : Nat := b.toNat / 2 ^ (8 * off) % 2 ^ (8 * n)

/-- A flag of a launch record: 0 B, 1 GANG, 2 PROTECTED, 3 POD, 4 AFD, 5 PGT (Table 1-4). -/
def recFlag (b : BitVec 2048) (i : Nat) : Bool := (recNum b 4 2).testBit i

/-- Nest levels of a record. -/
def recLevels (b : BitVec 2048) : Nat := recNum b 7 1

/-- The count of a nest level. -/
def recCount (b : BitVec 2048) (l : Nat) : Nat := recNum b (0x10 + 4 * l) 4

/-- The levels in enumeration order, position 0 fastest. -/
def recOrder (b : BitVec 2048) : List Nat := (List.range (recLevels b)).map (fun p => bitsOf (recNum b 8 4) (3 * p + 2) (3 * p))

/-- Tasks of the whole nest. -/
def recTasks (b : BitVec 2048) : Nat := (List.range (recLevels b)).foldl (fun k l => k * recCount b l) 1

/-- A handle of a record: 0 the code handle, 1 to 3 the argument handles. -/
def recHandle (b : BitVec 2048) (i : Nat) : BitVec 256 := BitVec.ofNat 256 (recNum b (0x80 + 32 * i) 32)

/-- The wait-list offsets. -/
def recWaits (b : BitVec 2048) : List Nat := (List.range (recNum b 0x0C 1)).map (fun i => recNum b (0x50 + 4 * i) 4)

/-- For whom the LW and the MC make accesses of a queue: they belong to no core (R5, R261). -/
def queueWho (key : Nat) (q : Queue) : Who := ⟨Config.numCores, key / 64, q.ctx, q.part⟩

/-- Changes a queue. -/
def State.modQueue (s : State) (key : Nat) (f : Queue → Queue) : State :=
  match Store.find? s.queues key with
  | none => s
  | some q => { s with queues := Store.put key (f q) s.queues }

/-- Changes a record of a queue. -/
def Queue.modRecord (q : Queue) (ring : Nat) (f : Record → Record) : Queue :=
  { q with records := q.records.map (fun r => if r.ring = ring then f r else r) }

/-- A record of a queue. -/
def Queue.record (q : Queue) (ring : Nat) : Option Record := q.records.find? (fun r => r.ring == ring)

/-- A record has started (R261): its status word has been written as running. -/
def RecPhase.started : RecPhase → Bool
  | .startBarrier => true
  | .running => true
  | .complete => true
  | _ => false

/-- The candidate of a queue (R261). -/
def Queue.candidate (q : Queue) : Option Record := q.records.find? (fun r => !r.phase.started)

/-- The candidate is held by an earlier record with B set (R261); every record before it has started. -/
def Queue.held (q : Queue) : Bool :=
  (q.records.takeWhile (fun r => r.phase.started)).any (fun r => recFlag r.bits 0 && r.phase != .complete)

/-- STATE of a queue (R270, Table 7-10). -/
def Queue.stateCode (q : Queue) : Nat :=
  if q.error then 3
  else if q.candidate.isSome && q.held then 2
  else if q.records.any (fun r => r.phase != .complete) then 1
  else 0

/-- The 64-bit status word (Table 15-3). -/
def statusWord (status : Nat) (cause : Cause) (task : BitVec 32) : Nat := status + cause.toNat * 2 ^ 8 + task.toNat * 2 ^ 32

/-- An access of a service unit through a handle: the checks of R142, then translation. -/
def State.serviceReach (s : State) (w : Who) (h : BitVec 256) (right : BitVec 8) (off len align : Nat) (acc : Acc) :
    Except Cause (State × List Loc) :=
  match s.accessCause w.tenant h right off len align with
  | some c => .error c
  | none =>
    match s.locate w h off len acc false .held with
    | .ok x => .ok x
    | .error (.trap c) => .error c
    | .error (.fault i) => .error i.cause
    | .error _ => .error 0x41

/-- A write of a service unit takes place (R295). -/
def State.writeDelayed (s : State) (d : Delayed) : State :=
  let s1 := { s with actor := d.actor }
  let s2 := match d.data with
    | some bs => s1.writeLocs (d.locs.zip bs)
    | none => s1.writeRmw (d.locs.zip (bytesOf 8 (numOf (s1.readLocs d.locs) + 2 ^ 64 - 1)))
  { s2 with actor := s.actor }

/-- A service unit writes, in order with the writes for the partition before it: one to a page that is being copied waits, and the
later ones for its partition behind it; no other partition's wait (R295). -/
def State.serviceStore (s : State) (d : Delayed) : State :=
  if s.copying d.locs || s.waiting.any (fun e => e.part == d.part) then { s with waiting := s.waiting ++ [d] } else s.writeDelayed d

/-- The writes that waited take place, but those that still wait (R295). -/
def State.writeWaiting (s : State) : State := s.waiting.foldl State.serviceStore { s with waiting := [] }

/-- Writes bytes for a service unit, or gives the cause for which they are lost. -/
def State.serviceWrite (s : State) (w : Who) (h : BitVec 256) (off : Nat) (bs : List Byte) : Except Cause State :=
  match s.serviceReach w h rightW off bs.length 8 .write with
  | .error c => .error c
  | .ok (s1, ls) => .ok (s1.serviceStore ⟨s1.actor, w.part, h, ls, some bs⟩)

/-- Subtracts 1 from a signal, as the completion of a record or a copy does (R183, R265). -/
def State.decrement (s : State) (w : Who) (h : BitVec 256) (off : Nat) : Except Cause State :=
  match s.serviceReach w h (rightR ||| rightW ||| rightA) off 8 8 .atomic with
  | .error c => .error c
  | .ok (s1, ls) =>
    match firstCause s1.readCause ls with
    | some c => .error c
    | none => .ok (s1.serviceStore ⟨s1.actor, w.part, h, ls, none⟩)

/-- The decrement by a completion object of a core, which the core makes (R183, R227). -/
def State.decrementBy (s : State) (n : Nat) (h : BitVec 256) (off : Nat) : Except Cause State :=
  match State.decrement { s with actor := n } ((s.core n).who n) h off with
  | .ok t => .ok { t with actor := s.actor }
  | .error c => .error c

/-- QBAD records an outcome that could not be written (Table 15-1, R265). -/
def badWord (sig : Bool) (cause : Cause) (status ring : Nat) : Word :=
  BitVec.ofNat 64 (2 ^ 63 + (if sig then 2 ^ 62 else 0) + cause.toNat * 2 ^ 40 + status % 256 * 2 ^ 32 + ring % 2 ^ 32)

/-- The signal handle and area of a record: those captured at its start, before it the queue's (R258). -/
def Record.signals (r : Record) (q : Queue) : BitVec 256 × Nat :=
  if r.phase.started then (r.sigHandle, r.area) else (q.sigHandle, q.area)

/-- For whom a record's status word and decrement are written: as captured at its start, before it as its queue stands (R258). -/
def Record.whose (r : Record) (key : Nat) (q : Queue) : Who :=
  if r.phase.started then ⟨Config.numCores, key / 64, r.sigCtx, r.sigPart⟩ else queueWho key q

/-- QBAD takes the final status of a record with the cause for which a write of its status word was lost (R260, R265). -/
def State.noteBad (s : State) (key ring status : Nat) (cause : Cause) : State :=
  s.modQueue key (fun q => { q with bad := badWord false cause status ring })

/-- An offset of the signal area that a record may name: a multiple of 8 within the area (Table 15-2). -/
def areaCause (area off : Nat) : Option Cause :=
  if off % 8 ≠ 0 then some 0x43 else if area < off + 8 then some 0x73 else none

/-- No status word is written for a record: it could not be read, or its status-word offset does not name a word of the signal area
that it has captured, or before its start of its queue's (R258, R260). -/
def Record.unsignalled (r : Record) (q : Queue) : Bool := r.silent || (areaCause (r.signals q).2 (recNum r.bits 0x64 4)).isSome

/-- Writes the status word of a record; a write that fails, or one that has no place, is lost, and QBAD records it with the
record's final status: one lost before that is recorded when the record completes (R260, R265; DEDUCED, log 27). -/
def State.writeStatus (s : State) (key : Nat) (q : Queue) (r : Record) (status : Nat) (cause : Cause) (task : BitVec 32) :
    State :=
  if r.unsignalled q then
    if status < 2 then s else s.noteBad key r.ring status cause
  else
    match s.serviceWrite (r.whose key q) (r.signals q).1 (recNum r.bits 0x64 4) (bytesOf 8 (statusWord status cause task)) with
    | .ok t => match r.lost with
      | some c => if status < 2 then t else t.noteBad key r.ring status c
      | none => t
    | .error c => if status < 2 then s.modQueue key (fun q => q.modRecord r.ring (fun r => { r with lost := some c }))
      else s.noteBad key r.ring status c

/-- QHEAD advances past the complete records that have no incomplete record ahead of them (R265). -/
def Queue.advanceHead (q : Queue) : Queue :=
  let rs := q.records.dropWhile (fun r => r.phase == .complete)
  { q with records := rs, head := match rs with
      | [] => q.tail
      | r :: _ => BitVec.ofNat 32 r.ring }

/-- Ends the claims of cores made for a record (R24). -/
def State.dropClaims (s : State) (key ring : Nat) : State :=
  { s with cores := s.cores.map (fun (p : Nat × Core) => if p.2.claim = some (key, ring) then (p.1, { p.2 with claim := none }) else p) }

/-- Completes a record with a status: its status word, the decrement of its completion signal if it is done, and the
head (R265, R266). An error of code 0xE1 that this decrement meets ends no task and is not counted at 0x0930; R375 does not say
whether it is (DESIGN CHOICE, log 40). -/
def State.finishRecord (s : State) (key ring status : Nat) (cause : Cause) (task : BitVec 32) : State :=
  match Store.find? s.queues key with
  | none => s
  | some q =>
    match q.record ring with
    | none => s
    | some r =>
      let s1 := s.writeStatus key q r status cause task
      let off := recNum r.bits 0x60 4
      let s2 := if status ≠ 2 then s1 else
        match (match areaCause (r.signals q).2 off with
          | some c => Except.error c
          | none => s1.decrement (r.whose key q) (r.signals q).1 off) with
        | .ok t => t
        | .error c => s1.modQueue key (fun q => { q with bad := badWord true c status ring })
      let s3 := s2.modQueue key (fun q => (q.modRecord ring (fun r =>
        { r with phase := .complete, status := BitVec.ofNat 8 status, cause := cause, task := task })).advanceHead)
      State.dropClaims { s3 with faults := s3.faults.filter (fun f => f.unit != .candidate key ring) } key ring

/-- Completes records that have not started with ABORTED, writing their status words only (R268, R271). -/
def State.abortRecords (s : State) (key : Nat) : List Record → State
  | [] => s
  | r :: rs => State.abortRecords (if r.phase.started then s else s.finishRecord key r.ring 0x10 0 0) key rs

/-- A record completes; one that fails with AFD clear aborts what has not started, and its queue enters ERROR (R268). -/
def State.completeRecord (s : State) (key ring status : Nat) (cause : Cause) (task : BitVec 32) : State :=
  match Store.find? s.queues key with
  | none => s
  | some q =>
    match q.record ring with
    | none => s
    | some r =>
      let s1 := s.finishRecord key ring status cause task
      if status = 2 ∨ recFlag r.bits 4 then s1
      else (s1.abortRecords key (((Store.find? s1.queues key).map Queue.records).getD [])).modQueue key (fun q => { q with error := true })

/-- A record as it is appended. -/
def Record.new (ring : Nat) (bits : BitVec 2048) (silent : Bool) (h : BitVec 256) (area : Nat) : Record where
  ring := ring
  bits := bits
  phase := .appended
  status := 0
  cause := 0
  task := 0
  decl := none
  entries := Quad.all 0
  gangSize := 1
  nextTask := 0
  endTask := 0
  live := 0
  silent := silent
  faulted := none
  revoked := false
  sigHandle := h
  area := area
  sigCtx := 0
  sigPart := 0
  lost := none
  group := ⟨0, 1, 0, [1, 1, 1, 1], []⟩
  periods := 0
  since := 0
  die := none
  arrivals := []
  replicas := []

/-- A machine check that ends a task, or the record of a service unit's read, is counted in the lifetime record (Table 21-5); counts saturate (R375). -/
def State.countCheck (s : State) (c : Cause) : State :=
  if 0xE0 ≤ c.toNat ∧ c.toNat ≤ 0xE3 then
    { s with lifetime := { s.lifetime with checks := s.lifetime.checks.zipIdx.map (fun (p : Nat × Nat) =>
        if p.2 = c.toNat - 0xE0 then Nat.min (p.1 + 1) (2 ^ 32 - 1) else p.1) } }
  else s

/-- Appends the record at the tail: its 256 bytes are read, and its status word is written as pending. A record that
cannot be read completes with FAULT, its outcome recorded in QBAD (R260, R261). -/
def State.appendRecord (s : State) (key : Nat) : State :=
  match Store.find? s.queues key with
  | none => s
  | some q =>
    let ring := q.tail.toNat
    let push := fun (s : State) (r : Record) => s.modQueue key (fun q =>
      { q with tail := q.tail + 1, records := q.records ++ [r] })
    let fail := fun (s : State) (c : Cause) =>
      (push (s.countCheck c) (Record.new ring 0 true q.sigHandle q.area)).completeRecord key ring 0x13 c 0
    match s.locateRange (queueWho key q) false .read false .held 2 (q.ringBase + 256 * (ring % 2 ^ q.ringLog)) 256 with
    | .error (.trap c) => fail s c
    | .error (.fault i) => fail s i.cause
    | .error _ => s
    | .ok (s1, ls) =>
      match firstCause s1.readCause ls with
      | some c => fail s1 c
      | none =>
        let bits := BitVec.ofNat 2048 (numOf (s1.readLocs ls))
        let r := Record.new ring bits false q.sigHandle q.area
        (push s1 r).writeStatus key q r 0 0 0

/-- A record that joins a queue in ERROR, behind one of the same write that failed, completes with ABORTED (R268). -/
def State.abortError (s : State) (key : Nat) : State :=
  match Store.find? s.queues key with
  | none => s
  | some q => if q.error then s.abortRecords key q.records else s

/-- Appends n records. -/
def State.appendRecords (s : State) (key : Nat) : Nat → State
  | 0 => s
  | n + 1 => State.appendRecords ((s.appendRecord key).abortError key) key n

/-- The queue of a number of the running context, where it is configured for it (R147, R148, R258). -/
def State.ownQueue (s : State) (n : Nat) : Option Queue :=
  (Store.find? s.queues (queueKey s.who.tenant n)).bind (fun q => if q.ctx = s.who.ctx then some q else none)

/-- The ring is full: as many records as it holds are not complete at its head (R260). -/
def Queue.full (q : Queue) : Bool := decide (2 ^ q.ringLog ≤ (q.tail - q.head).toNat)

/-- LAUNCH (R147): checks and reads the record, then copies it into the ring and advances the tail. For a queue that is in
ERROR and full the answer is 3, and a translation fault of the write into the ring is ctl's own, at the LAUNCH (DESIGN
CHOICE, log 43). -/
def execLaunch (d a h : BitVec 5) (s : State) : Host.Outcome State Fault Refusal :=
  finish s (do
    need (wfGroup a 2) 0x02
    s.only [.ctl]
    s.scalars [d.toNat, a.toNat, a.toNat + 1]
    let hv ← s.handleReg h.toNat
    let n ← s.src a.toNat
    let (off, t) ← s.offset (a.toNat + 1) 0
    let (s1, ls) ← s.reach hv rightR off 256 256 .read
    s.after (n.2 ||| t)
    let bs ← s1.readNow ls
    let s1 := s1.saw ls
    let k := bitsOf n.1.toNat 5 0
    let answer := fun (s : State) (v : Nat) => .ok (((s.pop [a.toNat, a.toNat + 1]).put d.toNat (BitVec.ofNat 64 v) 0).retire 2)
    match s1.ownQueue k with
    | none => answer s1 (2 ^ 63 + 2)
    | some q =>
      if q.error then answer s1 (2 ^ 63 + 3)
      else if q.full then answer s1 (2 ^ 63 + 1)
      else
        let ring := q.tail.toNat
        let (s2, rs) ← s1.locateRange s1.who false .write false (s1.cur.mapping s1.curSq) 2 (q.ringBase + 256 * (ring % 2 ^ q.ringLog)) 256
        s2.writable rs
        answer ((s2.writeNow (rs.zip bs)).appendRecord (queueKey s.who.tenant k)) ring)

/-- The word of Table 7-10. PENDING has 16 bits: 65,536 records of a full ring of that size show as 0 (DESIGN CHOICE, log 43). -/
def Queue.word (q : Queue) : Nat :=
  q.head.toNat * 2 ^ 32 + (q.records.countP (fun r => r.phase != .complete)) % 2 ^ 16 * 2 ^ 16 + q.stateCode

/-- QSTAT (R148). -/
def execQstat (d a : BitVec 5) (s : State) : Host.Outcome State Fault Refusal :=
  finish s (do
    s.only [.ctl]
    s.scalars [d.toNat, a.toNat]
    let n ← s.src a.toNat
    State.report (s.pop [a.toNat]) d.toNat (BitVec.ofNat 64 ((s.ownQueue (bitsOf n.1.toNat 5 0)).elim 0 Queue.word)))

end Sys2Proof.Machine
end

