-- ==== Sys2Proof/Machine/Tasks.lean ====
section
/-!
DEFINITION. Tasks: what they cost (R272), how outstanding accesses drain, the end of a task (R29, R33, R137, R265,
R267), and the scrub of a core (R319).
-/
namespace Sys2Proof.Machine

/-- Cores that run a task, with the task. -/
def State.running (s : State) : List (Nat × Task) :=
  s.cores.filterMap (fun (p : Nat × Core) => p.2.task.map (fun t => (p.1, t)))

/-- The task of a core, or the hard-stopped task that a number past the last core stands for (log 36). -/
def State.taskAt (s : State) (n : Nat) : Option Task :=
  if n < Config.numCores then (s.core n).task else (Store.find? s.parked n).map Parked.task

/-- Every cycle each balance falls by the number of the tenant's tasks that run in the partition (R272), and the energy of a
running task is charged to its queue (R277). -/
def State.charge (s : State) (n : Nat) : State :=
  if n = 0 then s
  else { s with
    queues := s.queues.map (fun (q : Nat × Queue) =>
      if s.running.any (fun r => queueKey r.2.tenant r.2.queue == q.1) then (q.1, { q.2 with energy := q.2.energy + Config.energy s.draws q.1 }) else q),
    parts := s.parts.map (fun (p : Nat × Partition) => (p.1, { p.2 with
    accounts := p.2.accounts.map (fun (a : Nat × Account) =>
      let k := s.running.countP (fun r => r.2.part == p.1 && r.2.tenant == a.1)
      (a.1, { a.2 with balance := a.2.balance - n * k })) })) }

/-- One pass over what a core has outstanding: every load and store that may perform does (R289, step 2). -/
def State.drainPass (s : State) (n : Nat) : State :=
  let c := s.core n
  let s1 := c.stores.foldl (fun (t : State) x => t.performStore n x.id) s
  c.loads.foldl (fun (t : State) l => (t.settleLoad n l.id).deliverLoad n l.id) s1

/-- Performs what a core has outstanding, pass by pass. -/
def State.drainCore (s : State) (n : Nat) : Nat → State
  | 0 => s
  | k + 1 => if (s.core n).loads.isEmpty ∧ (s.core n).stores.isEmpty then s else State.drainCore (s.drainPass n) n k

/-- Performs everything that a core has outstanding, as far as it may. -/
def State.drained (s : State) (n : Nat) : State := s.drainCore n ((s.core n).loads.length + (s.core n).stores.length)

/-- A core has no access outstanding. -/
def Core.still (c : Core) : Bool := c.loads.isEmpty && c.stores.isEmpty

/-- A party leaves a barrier for good: its task has ended (R33). What it has arrived with the phase has received. A barrier
left without members returns to phase 0, and its pending joiners become its members. -/
def Barrier.without (core : Nat) (b : Barrier) : Barrier :=
  let stay := fun (l : List Party) => l.filter (fun p => p.core != core)
  let members := stay b.members
  let joins := stay b.joins
  if members.isEmpty then { phase := 0, members := joins, joins := [], leaves := [], arrived := [] }
  else { b with members := members, joins := joins, leaves := stay b.leaves }

/-- A sequencer counts as stuck for the watchdog of R39. -/
def SeqState.stuck (x : SeqState) : Bool :=
  x.run == .ended || (x.run == .waiting && (match x.waitOn with
    | some .token => true | some .rill => true | some .receive => true | some .barrier => true | _ => false))

/-- A core meets the condition of R39: every sequencer stuck, no engine operation outstanding, no access unperformed. -/
def Core.stuck (c : Core) : Bool :=
  c.seqs.toList.all SeqState.stuck && c.still && c.copies.isEmpty && c.me.active.isNone && c.me.pendingOp.isNone
    && c.colls.all (fun (p : Nat × Coll) => p.2.ended.isSome)

/-- Since when the task of a core, which is at its end, has been stuck (R39): not at all, if it still runs or is parked. -/
def State.stuckSince (s : State) (n : Nat) : Nat :=
  if n < Config.numCores ∧ (s.core n).stuck then (s.core n).lastActive else s.cycle

/-- A core leaves its gang, whose barriers go on without it (R33). The cycles of the watchdog count from when the core too was
stuck (R39). -/
def State.leaveGang (s : State) (g core since : Nat) : State :=
  match Store.find? s.gangs g with
  | none => s
  | some x =>
    let cs := x.cores.filter (· != core)
    if cs.isEmpty then { s with gangs := Store.erase g s.gangs }
    else
      let s1 := { s with gangs := Store.put g { x.mapBarriers (Barrier.without core) with cores := cs } s.gangs }
      (cs.filter (fun m => decide (m < Config.numCores))).foldl (fun (t : State) m =>
        t.modCore m (fun c => { c with lastActive := Nat.max c.lastActive since })) s1

/-- A core leaves a superstep launch: it has nothing more to arrive with. -/
def State.leaveLaunch (s : State) (core : Nat) : Option Nat → State
  | none => s
  | some n =>
    match Store.find? s.launches n with
    | none => s
    | some l =>
      let cs := l.cores.filter (· != core)
      if cs.isEmpty then { s with launches := Store.erase n s.launches }
      else
        let l' : Launch := { l with cores := cs, arrived := l.arrived.filter (fun p => p.core != core) }
        State.settleLaunch { s with launches := Store.put n l' s.launches } n

/-- The core as its task leaves it: idle, with nothing of it outstanding. Registers and scratchpad keep their bits
until the next task (R7, R319). -/
def Core.vacate (c : Core) : Core :=
  let idle := fun (x : SeqState) =>
    { x with run := .idle, waitOn := none, mark := none, late := none, rep := none, pb := none, granules := [], rq := [], pending := Vector.replicate 32 none }
  { c with
    seqs := ⟨idle c.seqs.ld, idle c.seqs.ex, idle c.seqs.st, idle c.seqs.ctl⟩,
    task := none, lastTenant := (c.task.map Task.tenant) <|> c.lastTenant,
    copies := [], loads := [], stores := [], tags := [], mints := [], colls := [], me := Me.reset }

/-- Leaves a context only the reduction slots that `keep` names: the others are freed with what they hold, and the slots
that stay are numbered anew in their order, for the collectives that use them too (R342). A slot that a started collective uses
is freed all the same, and the collective goes on without it: R342 frees it, R350 says that the collective's slots do not change
(DESIGN CHOICE, log 33). -/
def State.keepSlots (s : State) (ctx : Nat) (keep : Nat → Nat × Bool × Nat → Bool) : State :=
  match Store.find? s.ctxs ctx with
  | none => s
  | some c =>
    let stay := fun (i : Nat) => ((c.slots[i]?).map (keep i)).getD false
    let words := s.aperture.filterMap (fun (p : Nat × ApWord) =>
      let slot := p.1 / 8192 % 64
      if p.1 / 8192 / 64 ≠ ctx then some p
      else if stay slot then some ((ctx * 64 + (List.range slot).countP stay) * 8192 + p.1 % 8192, p.2) else none)
    let recount := fun (k : Coll) => { k with slot := k.slot.bind (fun i => if stay i then some ((List.range i).countP stay) else none) }
    let cores := s.cores.map (fun (p : Nat × Core) =>
      if p.2.task.map Task.ctx = some ctx then (p.1, { p.2 with colls := p.2.colls.map (fun (q : Nat × Coll) => (q.1, recount q.2)) }) else p)
    { s with ctxs := Store.put ctx { c with slots := (c.slots.zipIdx.filter (fun p => keep p.2 p.1)).map Prod.fst } s.ctxs,
             aperture := words, cores := cores }

/-- Frees the reduction slots that a core's task reserved for its context, and forgets the core's part in the words of
the others (R342, R344). -/
def State.freeSlots (s : State) (ctx core : Nat) : State :=
  let s1 := s.keepSlots ctx (fun _ x => x.2.2 != core)
  { s1 with aperture := s1.aperture.map (fun (p : Nat × ApWord) => if p.1 / 8192 / 64 ≠ ctx then p
      else (p.1, { p.2 with loads := Store.erase core p.2.loads, writers := p.2.writers.filter (· != core) })) }

/-- No SAVE of a core waits for a commit any more (R334). -/
def Commit.leave (n : Nat) (k : Commit) : Commit := if k.core = some n then { k with core := none } else k

/-- The task of a core is gone from it: its gang, launch, slots, faults and the invalidation it held up go on. A commit
that its SAVE waits for goes on too, and no task receives its result (R149, R334). -/
def State.vacate (s : State) (n : Nat) : State :=
  match s.taskAt n with
  | none => s
  | some t =>
    let s0 := if n < Config.numCores then s.modCore n Core.vacate else { s with parked := Store.erase n s.parked }
    let s1 := s0.freeSlots t.ctx n
    let s2 := { s1 with
      faults := s1.faults.filter (fun f => f.unit.core != some n), commits := s1.commits.map (Commit.leave n) }
    ((s2.leaveGang t.gang n (s.stuckSince n)).leaveLaunch n t.launch).settleInval n

/-- The status word with which a POD record completes: the first other than done in rank order (R269). -/
def podStatus (rs : List (Nat × BitVec 64)) (size : Nat) : BitVec 64 :=
  (((List.range size).filterMap (fun r => (rs.find? (fun p => p.1 == r)).map Prod.snd)).find? (fun w => w != 2)).getD 2

/-- A replica of a POD record has completed with a status word; the record completes when every replica has (R269). -/
def State.replicaDone (s : State) (key ring rank : Nat) (w : BitVec 64) : State :=
  match (Store.find? s.queues key).bind (fun q => q.record ring) with
  | none => s
  | some r =>
    if r.replicas.any (fun p => p.1 == rank) then s
    else
      let rs := r.replicas ++ [(rank, w)]
      let s1 := s.modQueue key (fun q => q.modRecord ring (fun r => { r with replicas := rs }))
      if rs.length < r.group.size then s1
      else
        let v := podStatus rs r.group.size
        s1.completeRecord key ring (v.extractLsb' 0 8).toNat (v.extractLsb' 8 8) (v.extractLsb' 32 32)

/-- What this module has to do for a record is done, with a status: a POD record waits for its replicas (R265, R269). -/
def State.localDone (s : State) (key ring status : Nat) (cause : Cause) (task : BitVec 32) : State :=
  match (Store.find? s.queues key).bind (fun q => q.record ring) with
  | none => s
  | some r =>
    if recFlag r.bits 3 then s.replicaDone key ring r.group.rank (BitVec.ofNat 64 (statusWord status cause task))
    else s.completeRecord key ring status cause task

/-- The record dispatches nothing further (R267). -/
def Record.stopped (r : Record) : Bool := r.faulted.isSome || r.revoked

/-- Completes a running record whose tasks have all ended and that has none to dispatch, or one at its start barrier whose own
handle is revoked (R265, R267). -/
def State.settleRecord (s : State) (key ring : Nat) : State :=
  match (Store.find? s.queues key).bind (fun q => q.record ring) with
  | none => s
  | some r =>
    if !(r.phase == .running || (r.phase == .startBarrier && r.revoked)) || r.live != 0 || !(r.stopped || decide (r.endTask ≤ r.nextTask)) then s
    else if r.revoked then
      let f := r.faulted.getD (0x74, 0)
      s.localDone key ring 0x12 f.1 f.2
    else match r.faulted with
      | some (c, t) => s.localDone key ring 0x13 c t
      | none => s.localDone key ring 2 0 0

/-- One task of a core ends, normally or with a fault. Its stores perform (R29), and its writes are ordered before what
follows the completion of its record (R256); what its engines still have in hand is abandoned where it stands (log 21). -/
def State.endOne (s : State) (n : Nat) (fault : Option Cause) : State :=
  match s.taskAt n with
  | none => s
  | some t =>
    let key := queueKey t.tenant t.queue
    let s1 := ((s.drained n).coverTask n).vacate n
    let s2 := s1.modQueue key (fun q => q.modRecord t.ring (fun r =>
      { r with live := r.live - 1, faulted := if r.faulted.isSome then r.faulted else fault.map (fun c => (c, t.number)) }))
    s2.settleRecord key t.ring

/-- Ends several tasks with one cause. -/
def State.endAll (s : State) (cause : Cause) : List Nat → State
  | [] => s
  | n :: ns => State.endAll (s.endOne n (some cause)) cause ns

/-- THE END OF A TASK (R29). With a fault every other task of its superstep launch ends with the same cause (R137). -/
def State.endTask (s : State) (n : Nat) (fault : Option Cause) : State :=
  let others := match (s.core n).task.bind (fun t => if t.unread then none else t.launch) with
    | none => []
    | some l => ((Store.find? s.launches l).map (fun (x : Launch) => x.cores.filter (· != n))).getD []
  match fault with
  | none => s.endOne n none
  | some c => ((s.countCheck c).endOne n (some c)).endAll c others

/-- The task of an engine operation, of a unit that no retry will help, ends with FAULT (R282, R285). -/
def State.failTask (s : State) (n : Nat) (c : Cause) : State := s.endTask n (some c)

/-- A restartable fault of an engine is recorded and delivered, and the fault's id given to `mark`; one that is not
restartable ends the task (R282 to R284). -/
def State.engineFault (s : State) (n : Nat) (u : FaultUnit) (i : FaultInfo) (mark : Nat → Core → Core) : State :=
  let tdi := ((s.core n).task.map Task.tdi).getD 0
  if s.restartable tdi i then (s.modCore n (mark s.nextFault)).addFault u tdi i
  else s.failTask n i.cause

/-- Zeroes the registers of a core and re-keys its banks, whose old contents are gone; the zero walk starts at row 0
(R319). -/
def Core.scrub (tenant : Nat) (c : Core) : Core :=
  { Core.reset with lastTenant := some tenant, claim := c.claim, invals := c.invals, mapped := c.mapped, nextId := c.nextId, moved := c.moved }

/-- Scrubs a core for a tenant (R319); its keys are those of the newest generation (R312, step 4). -/
def State.scrubCore (s : State) (n tenant : Nat) : State :=
  let s1 := (s.modCore n (Core.scrub tenant)).forget (fun l => match l with | .win c _ => c == n | _ => false)
  { s1 with badRows := s1.badRows.filter (fun r => r / 16384 != n), lostRows := s1.lostRows.filter (fun r => r / 16384 != n) }

/-- The cores of a cluster (R5). -/
def clusterCores (k : Nat) : List Nat := (List.range Config.clusterCores).map (fun i => Config.clusterCores * k + i)

/-- A core of a cluster runs a task or is claimed (R22). -/
def State.clusterBusy (s : State) (k : Nat) : Bool :=
  (clusterCores k).any (fun n => (s.core n).task.isSome || (s.core n).claim.isSome)

/-- The cluster can take a tenant (R22). -/
def State.clusterTakes (s : State) (k tenant : Nat) : Bool :=
  !s.clusterBusy k || Store.find? s.clusterTenant k == some tenant

/-- A tenant comes to a cluster: where it was not the current tenant, every member is scrubbed (R22). -/
def State.enterCluster (s : State) (k tenant : Nat) : State :=
  if Store.find? s.clusterTenant k = some tenant then s
  else (clusterCores k).foldl (fun (t : State) n => t.scrubCore n tenant) { s with clusterTenant := Store.put k tenant s.clusterTenant }

/-- A sequencer at the start of a task: its preloaded registers, at its entry (R28). -/
def SeqState.start (entry : Nat) (regs : Vector Word 32) : SeqState :=
  { SeqState.reset with regs := regs, pc := entry, run := .running }

/-- Starts a task on a core: everything but the scratchpad is zero (R7), registers and handles are preloaded (R28). What was
written before the task is ordered before its accesses (R256). -/
def Core.startTask (c : Core) (t : Task) (entries : Quad Nat) (scalars : List Word) (cycle writes : Nat) : Core :=
  let idx := fun (l : Nat) => (t.indices.getD l 0).zeroExtend 64
  let at' := fun (i : Nat) => if i = 0 ∨ 13 < i then (0 : Word)
    else if i ≤ 6 then idx (i - 1)
    else if i = 7 then t.number.zeroExtend 64
    else if i = 8 then BitVec.ofNat 64 t.member
    else scalars.getD (i - 9) 0
  let regs := Vector.ofFn (fun (i : Fin 32) => at' i.val)
  let hs := Vector.ofFn (fun (i : Fin 32) => if i.val = 0 then t.code else if i.val ≤ 3 then t.args.getD (i.val - 1) 0 else 0)
  { Core.reset with
    scratch := c.scratch, watermark := c.watermark, scrubbed := c.scrubbed, bankMark := c.bankMark,
    invals := c.invals, mapped := c.mapped, lastTenant := some t.tenant, nextId := c.nextId,
    seqs := ⟨SeqState.start entries.ld regs, SeqState.start entries.ex regs, SeqState.start entries.st regs,
      SeqState.start entries.ctl regs⟩,
    handles := hs, was := { Was.reset with handles := hs }, task := some t, lastActive := cycle, moved := c.moved,
    floor := writes, handed := writes }

/-- TASK_END (R29): all four sequencers have ended and every operation and store of the task is done; or a sequencer
has met a fault that is not restartable, and the task's accesses have performed. A cause raised in a sequencer after
its END ends the task with FAULT (R15). -/
def execTaskEnd (core : Nat) (s : State) : Host.Outcome State Fault Refusal :=
  .next (
    let c := s.core core
    let seqs := [c.seqs.ld, c.seqs.ex, c.seqs.st, c.seqs.ctl]
    let held := fun (q : Sq) => s.faults.any (fun f => f.unit == .seq core q)
    let dead := [Sq.ld, Sq.ex, Sq.st, Sq.ctl].find? (fun q => (c.seqs.get q).run == .halted && !held q)
    if c.task.isNone then s
    else match dead with
      | some q => if c.still then s.endTask core (some (c.seqs.get q).cause) else s
      | none =>
        if seqs.all (fun x => x.run == .ended) && c.still && c.copies.isEmpty && c.me.active.isNone && c.me.pendingOp.isNone
            && c.colls.all (fun (p : Nat × Coll) => p.2.ended.isSome)
        then s.endTask core ((seqs.findSome? (fun x => x.late)))
        else s)

end Sys2Proof.Machine
end

