-- ==== Sys2Proof/Machine/Copies.lean ====
section
/-!
DEFINITION. Shape slots, copies and their completion (R172 to R186), and the transfer of their elements.
-/
namespace Sys2Proof.Machine

/-- Dimensions in use, element size and format codes of a shape (Table 9-3). -/
def Shape.ndim (y : Shape) : Nat := bitsOf y.ctl.toNat 3 0
def Shape.esz (y : Shape) : Nat := 2 ^ bitsOf y.ctl.toNat 7 4
def Shape.sfmt (y : Shape) : Nat := bitsOf y.ctl.toNat 13 8
def Shape.dfmt (y : Shape) : Nat := bitsOf y.ctl.toNat 19 14

/-- The dimensions below NDIM. -/
def Shape.used (y : Shape) : List Dim := y.dims.toList.take y.ndim
def Shape.extents (y : Shape) : List Nat := y.used.map (fun d => d.extent.toNat)
def Shape.sstrides (y : Shape) : List Int := y.used.map (fun d => d.sstride.toInt)
def Shape.dstrides (y : Shape) : List Int := y.used.map (fun d => d.dstride.toInt)

/-- Product of extents. -/
def product (es : List Nat) : Nat := es.foldl (· * ·) 1

/-- A control word that may be written (R173); a reserved bit that is set is refused (log 22). -/
def goodControl (v : Word) : Bool :=
  decide (v.toNat < 2 ^ 20) && decide (1 ≤ bitsOf v.toNat 3 0) && decide (bitsOf v.toNat 3 0 ≤ 10)
    && decide (bitsOf v.toNat 7 4 ≤ 4) && decide (bitsOf v.toNat 13 8 ≤ 10) && decide (bitsOf v.toNat 19 14 ≤ 10)

/-- CESH (R173). -/
def execCesh (a : BitVec 5) (f : BitVec 2) (i y : BitVec 4) (s : State) : Host.Outcome State Fault Refusal :=
  finish s (do
    need (wfShapeItem i f) 0x02
    s.only [.ld, .st]
    s.scalars [a.toNat]
    let x ← s.src a.toNat
    let v := x.1
    let write := fun (g : Shape → Shape) => .ok (((s.pop [a.toNat]).modCur (fun c => { c with shapes := modAt c.shapes y.toNat g })).retire 2)
    if i = 15 then do
      need (goodControl v) 0x02
      write (fun p => { p with ctl := v })
    else do
      need (if f = 0 then decide (1 ≤ v.toNat) && decide (v.toNat < 2 ^ 32) else v == (v.extractLsb' 0 48).signExtend 64) 0x02
      write (fun p => { p with dims := modAt p.dims i.toNat (fun d =>
        if f = 0 then { d with extent := v } else if f = 1 then { d with sstride := v } else { d with dstride := v }) }))

/-- KIND, ID and COUNT of a completion literal (Table 5-7). -/
def litKind (l : BitVec 32) : Nat := bitsOf l.toNat 31 28
def litId (l : BitVec 32) : Nat := bitsOf l.toNat 27 24
def litCount (l : BitVec 32) : Nat := bitsOf l.toNat 23 0

/-- A completion literal that is not 0x02 for a sequencer (R87, R183). -/
def goodLiteral (q : Sq) (l : BitVec 32) : Bool :=
  match litKind l with
  | 0 => litId l == 0 && litCount l == 0
  | 1 => decide (1 ≤ litCount l) && decide (litCount l ≤ 256)
  | 2 => decide (litId l ≤ 3) && litId l != q.num && decide (1 ≤ litCount l) && decide (litCount l ≤ 65535)
  | 3 => litId l == 0
  | 4 => litId l == 0 && decide (1 ≤ litCount l)
  | _ => false

/-- The checks of the completion object at issue (R183). -/
def State.completionCause (s : State) (l : BitVec 32) : Option Cause :=
  match litKind l with
  | 1 =>
    if s.cur.decl.rills ≤ litId l then some 0x24
    else match s.cur.rills[litId l]?.getD none with
      | none => some 0x28
      | some r => if r.count < litCount l then some 0xA2 else none
  | 3 => areaCause ((s.cur.task.map Task.area).getD 0) (litCount l)
  | _ => none

/-- The format of an IEEE code of Table 9-4. -/
def fpOf (c : Nat) : Option FloatFmt := match c with | 5 => some fp16 | 6 => some bf16 | 7 => some fp32 | _ => none
/-- Bits of an integer code of Table 9-4. -/
def intOf (c : Nat) : Option Nat := match c with | 1 => some 8 | 2 => some 16 | 3 => some 32 | 4 => some 64 | _ => none
/-- The KBF format of a code of Table 9-4. -/
def kbfOf (c : Nat) : Option Nat := match c with | 8 => some 0 | 9 => some 1 | 10 => some 2 | _ => none

/-- Element bytes of a code of Table 9-4; block bytes for KBF; one byte where it has none. -/
def codeBytes (c : Nat) : Nat :=
  match c with
  | 2 => 2 | 3 => 4 | 4 => 8 | 5 => 2 | 6 => 2 | 7 => 4 | 8 => 16 | 9 => 32 | 10 => 64 | _ => 1

/-- The pairs of CPYCV (R178). -/
def goodPair (a b : Nat) : Bool :=
  let fp := fun c => (fpOf c).isSome
  let int := fun c => c == 1 || c == 2 || c == 3
  let kbf := fun c => (kbfOf c).isSome
  a != b && ((fp a && (fp b || int b || kbf b)) || (int a && (fp b || (int b && (a == 2 || b == 2)))) || (kbf a && fp b))

/-- One element converted by CPYCV between codes that are no KBF (R178, Table 3-6). -/
def convertCode (a b v : Nat) : Nat :=
  match fpOf a, fpOf b, intOf a, intOf b with
  | some f, some g, _, _ => (convertFp f g .rne v).1
  | some f, none, _, some n => (convertToInt f n .rne v).1
  | none, some g, some n, _ => (convertFromInt n g .rne v).1
  | none, none, some n, some k => convertInt n k v
  | _, _, _, _ => v

/-- One side of a copy: its handle, its offset, its strides, its code and its element bytes; `kbf` where it is a KBF
side, and then the blocks of its tensor (R51). -/
structure Side where
  h : BitVec 256
  off : Int
  strides : List Int
  code : Nat
  esz : Nat
  kbf : Option Nat
  /-- the offsets come from the index array (R180) -/
  indexed : Bool
  /-- a sealed record of so many bytes (R179) -/
  sealed : Option Nat

/-- Blocks of the KBF tensor of a handle (R51). -/
def Side.blocks (x : Side) : Nat := hLen x.h / (x.esz + 2)

/-- The lowest and the highest byte offset of a side's box (R175, R178). -/
def Side.box (x : Side) (es : List Nat) : Int × Int :=
  match x.sealed with
  | some n => (x.off, x.off + n - 1)
  | none =>
    let (es, st, e) := match x.kbf with
      | some _ => (es.drop 1, x.strides.drop 1, es.headD 0 / 32 * x.esz)
      | none => (es, x.strides, x.esz)
    let terms := (es.zip st).map (fun p => ((p.1 : Int) - 1) * p.2)
    (x.off + (terms.map (min 0)).foldl (· + ·) 0, x.off + (terms.map (max 0)).foldl (· + ·) 0 + e - 1)

/-- The mode reads a source. -/
def CopyMode.reads : CopyMode → Bool
  | .cpyz => false
  | _ => true

/-- The effective codes of a CPYCV: code 0 takes the handle's default format (R178). -/
def copyCodes (mode : CopyMode) (y : Shape) (dst src : BitVec 256) : Nat × Nat :=
  if mode = .cpycv then
    (if y.sfmt = 0 then hFmt src else y.sfmt, if y.dfmt = 0 then hFmt dst else y.dfmt)
  else (0, 0)

/-- The two sides of a copy (Table 9-5). -/
def copySides (mode : CopyMode) (y : Shape) (dst src : BitVec 256) (soff doff : Int) : Side × Side :=
  let (a, b) := copyCodes mode y dst src
  let cv := mode == .cpycv
  let rec' := product y.extents * y.esz + 32
  (⟨src, soff, y.sstrides, a, if cv then codeBytes a else y.esz, kbfOf a, mode == .gather, if mode = .cpyin then some rec' else none⟩,
   ⟨dst, doff, y.dstrides, b, if cv then codeBytes b else y.esz, kbfOf b, mode == .scatter, if mode = .cpyout then some rec' else none⟩)

/-- The alignment of a side (R51, R154, R178); of a sealed record, which has no strides, its offset alone (log 26). -/
def Side.aligned (x : Side) (es : List Nat) : Bool :=
  if x.sealed.isSome then x.off % x.esz == 0
  else
    let offs := if x.indexed then [] else [x.off]
    match x.kbf with
    | some _ => hLen x.h % (x.esz + 2) == 0 && es.headD 0 % 32 == 0 && (offs ++ x.strides.drop 1).all (fun v => v % x.esz == 0)
    | none => (offs ++ x.strides).all (fun v => v % x.esz == 0)

/-- The bounds of a side (R51, R175); the indexed side is checked row by row (R180). -/
def Side.inBounds (x : Side) (es : List Nat) : Bool :=
  x.indexed ||
    (let (lo, hi) := x.box es
     decide (0 ≤ lo) && decide (hi < (if x.kbf.isSome then x.blocks * x.esz else hLen x.h : Nat)))

/-- The checks of every window between two byte offsets of a handle (R19, R21). -/
def State.windowsCause (s : State) (w : Who) (h : BitVec 256) (lo hi : Int) : Option Cause :=
  let a := hBase h + lo.toNat
  let b := hBase h + hi.toNat
  firstCause (s.windowCause w h) (a :: b :: (List.range (b / 0x200000 - a / 0x200000)).map (fun i => (a / 0x200000 + i + 1) * 0x200000))

/-- The last checks of a side that names windows or a peer: R19, R21 and R340, after bounds. The windows of the indexed side are
checked row by row (R180). -/
def State.sideCause (s : State) (x : Side) (es : List Nat) : Option Cause :=
  if hOnchip x.h then
    if x.indexed then none else s.windowsCause s.who x.h (x.box es).1 (x.box es).2
  else if hPeer x.h then
    let g := s.cur.task.map Task.group
    if (hBase x.h).testBit 56 ∨ (g.map Group.size).getD 1 ≤ hBase x.h / 2 ^ 50 % 64 then some 0x73 else none
  else none

/-- A handle flagged host or peer. -/
def offModule (h : BitVec 256) : Bool := hHost h || hPeer h

/-- CPYIN and CPYOUT keep plaintext from host, peer and other cores' windows: 0x41 (Table 9-1). -/
def plainCause (core : Nat) (x : Side) (es : List Nat) : Option Cause :=
  let (lo, hi) := x.box es
  if offModule x.h ∨ needM core x.h lo.toNat (hi - lo + 1).toNat then some 0x41 else none

/-- The handle checks of one side (R142, Table 9-1, R174): the cause that traps, and whether a revoked serial was the first
failure, past which the checks go on; where it was that of the other side, a revoked serial here traps. `plain` names the side
that may hold no plaintext outside the core. Which windows the indexed side reaches is known only row by row. -/
def State.copyHandle (s : State) (x : Side) (es : List Nat) (right : BitVec 8) (plain revoked : Bool) : Except Stop Bool := do
  let (lo, hi) := x.box es
  let right := if !x.indexed && needM s.curCore x.h lo.toNat (hi - lo + 1).toNat then right ||| rightM else right
  let r ← (match s.handleCause s.who.tenant x.h right with
    | none => .ok revoked
    | some c =>
      if c = 0x74 ∧ !revoked then (if hRights x.h &&& right = right then .ok true else .error (.trap 0x72))
      else .error (.trap c))
  match (if plain then plainCause s.curCore x es else none) with
  | some c => .error (.trap c)
  | none => .ok r

/-- The sequencers that execute a copy (Table 9-5). -/
def CopyMode.sequencers : CopyMode → List Sq
  | .cpyin => [.ld]
  | .cpyout => [.st]
  | .gather => [.ld]
  | .scatter => [.st]
  | _ => [.ld, .st]

/-- The rights of each side (Table 9-1): GATHER writes its destination and SCATTER reads its source as CPY does. -/
def copyRights (mode : CopyMode) (dst src : BitVec 256) : BitVec 8 × BitVec 8 :=
  match mode with
  | .cpyin => (rightR, rightW ||| rightI)
  | .cpyout => (rightR ||| rightE, rightW)
  | .cpyz => (0, rightW)
  | _ => (rightR ||| (if offModule dst then rightE else 0), rightW ||| (if offModule src then rightI else 0))

/-- The body of every copy (R174): the checks in order, then the copy is in the CE. What R174's list does not place, a format code
other than 0 outside CPYCV, an element size other than 1 in it, a pair that it does not accept, and NDIM other than 2 in a
GATHER or SCATTER, is 0x02 with step 2 (DESIGN CHOICE, log 43). The index array's declaration (0x26) is checked before step 1, as
Table 5-10 has it, so s[a] with a bit of [63:41] set is 0x26 in a GATHER or SCATTER, and 0x73 elsewhere (DESIGN CHOICE, log 26).
The issue numbers of a sequencer count from 0 (DESIGN CHOICE, log 43). -/
def State.copy (s : State) (mode : CopyMode) (hd hs : BitVec 5) (y : BitVec 4) (a : BitVec 5) (lit : BitVec 32) :
    Except Stop State := do
  need (wfGroup a 1) 0x02
  s.only mode.sequencers
  let rs := [a.toNat, a.toNat + 1]
  s.scalars rs
  let dst ← s.handleReg hd.toNat
  let src ← (if mode.reads then s.handleReg hs.toNat else .ok 0)
  let v0 ← s.src a.toNat
  let v1 ← s.src (a.toNat + 1)
  let sh := s.cur.shapes[y.toNat]?.getD Shape.unset
  let es := sh.extents
  let indexed := mode == .gather || mode == .scatter
  need (!indexed || decide (v0.1.toNat + 4 * es.getD 1 0 ≤ s.cur.decl.scratch)) 0x26
  -- step 1
  need (goodLiteral s.curSq lit) 0x02
  -- step 2
  need (sh.ndim != 0 && es.all (· != 0) && (!indexed || sh.ndim == 2)) 0x02
  need (if mode = .cpycv then sh.esz == 1 else sh.sfmt == 0 && sh.dfmt == 0) 0x02
  let (ca, cb) := copyCodes mode sh dst src
  need (mode != .cpycv || goodPair ca cb) 0x02
  let reg0 := if mode = .cpyz ∨ indexed then 0 else v0.1.toNat
  let reg1 := if mode = .cpyout then v1.1.toNat % 2 ^ 48 else v1.1.toNat
  let soff : Nat := if mode = .gather then 0 else if mode = .scatter then reg1 else reg0
  let doff : Nat := if mode = .scatter then 0 else reg1
  let (sx, dx) := copySides mode sh dst src soff doff
  let (rightS', rightD) := copyRights mode dst src
  -- step 3
  let r1 ← (if mode.reads then s.copyHandle sx es rightS' (mode == .cpyout) false else .ok false)
  let r2 ← s.copyHandle dx es rightD (mode == .cpyin) r1
  -- step 4
  need ((!mode.reads || sx.aligned es) && dx.aligned es) 0x43
  -- step 5
  need (decide (reg0 < 2 ^ 41) && decide (reg1 < 2 ^ 41)) 0x73
  need ((!mode.reads || sx.inBounds es) && dx.inBounds es) 0x73
  match (if mode.reads then s.sideCause sx es else none), s.sideCause dx es with
  | some c, _ => .error (.trap c)
  | none, some c => .error (.trap c)
  | none, none => .ok ()
  need (decide (product es ≤ 2 ^ 40) && (mode != .cpyin && mode != .cpyout || decide (product es * sh.esz ≤ 2 ^ 24))) 0x02
  -- step 6
  match s.completionCause lit with
  | some c => .error (.trap c)
  | none => .ok ()
  if Config.maxCopies ≤ s.cur.copies.length then .error (.wait .engine) else .ok ()
  let c := s.cur
  let mine := fun (l : LoadReq) => l.sq == s.curSq && !l.performed
  let k : Copy := {
    id := c.nextId, sq := s.curSq, issue := s.seq.issued, mode := mode,
    word := 0, lit := lit, dst := dst, src := src, soff := soff, doff := doff,
    extra := if indexed then v0.1 else if mode = .cpyout then v1.1 >>> 48 else 0,
    shape := sh, next := 0, status := if r2 then 0x74 else 0,
    loadDeps := c.loadsOf (v0.2 ||| v1.2 ||| s.seq.ctlTaint) ++ (c.loads.filter mine).map LoadReq.id,
    storeDeps := (c.stores.filter (fun x => x.sq == s.curSq)).map StoreReq.id,
    touched := false, unverified := [], staged := [], patched := [], landed := false, fault := none, oldMap := false, mapTime := s.writes }
  let w := wordOf mode hd hs y a
  .ok (((((s.fork s.curCore s.curSq).pop rs).modCur (fun c => { c with copies := c.copies ++ [{ k with word := w }], nextId := c.nextId + 1 })).modSeq
    (fun x => { x with issued := x.issued + 1 })).retire 4)
where
  /-- The LC word of a copy, which its record in an image holds (R328, Table 5-6). -/
  wordOf (mode : CopyMode) (hd hs : BitVec 5) (y : BitVec 4) (a : BitVec 5) : BitVec 32 :=
    let (major, m) := match mode with
      | .cpy => (0x1A, 0) | .cpyin => (0x1A, 1) | .cpyout => (0x1A, 2) | .cpyz => (0x1A, 3) | .cpycv => (0x1A, 4)
      | .gather => (0x1B, 0) | .scatter => (0x1B, 1)
    BitVec.ofNat 32 (0xC0000000 + major * 2 ^ 24 + hd.toNat * 2 ^ 19 + hs.toNat * 2 ^ 14 + y.toNat * 2 ^ 10 + a.toNat * 2 ^ 5 + m * 2)

/-- CPY (R176). -/
def execCpy (hd hs : BitVec 5) (y : BitVec 4) (a : BitVec 5) (lit : BitVec 32) (s : State) : Host.Outcome State Fault Refusal :=
  finish s (s.copy .cpy hd hs y a lit)
/-- CPYIN (R181). -/
def execCpyin (hd hs : BitVec 5) (y : BitVec 4) (a : BitVec 5) (lit : BitVec 32) (s : State) : Host.Outcome State Fault Refusal :=
  finish s (s.copy .cpyin hd hs y a lit)
/-- CPYOUT (R182). -/
def execCpyout (hd hs : BitVec 5) (y : BitVec 4) (a : BitVec 5) (lit : BitVec 32) (s : State) : Host.Outcome State Fault Refusal :=
  finish s (s.copy .cpyout hd hs y a lit)
/-- CPYZ (R176). -/
def execCpyz (hd : BitVec 5) (y : BitVec 4) (a : BitVec 5) (lit : BitVec 32) (s : State) : Host.Outcome State Fault Refusal :=
  finish s (s.copy .cpyz hd 0 y a lit)
/-- CPYCV (R178). -/
def execCpycv (hd hs : BitVec 5) (y : BitVec 4) (a : BitVec 5) (lit : BitVec 32) (s : State) : Host.Outcome State Fault Refusal :=
  finish s (s.copy .cpycv hd hs y a lit)
/-- GATHER (R180). -/
def execGather (hd hs : BitVec 5) (y : BitVec 4) (a : BitVec 5) (lit : BitVec 32) (s : State) : Host.Outcome State Fault Refusal :=
  finish s (s.copy .gather hd hs y a lit)
/-- SCATTER (R180). -/
def execScatter (hd hs : BitVec 5) (y : BitVec 4) (a : BitVec 5) (lit : BitVec 32) (s : State) : Host.Outcome State Fault Refusal :=
  finish s (s.copy .scatter hd hs y a lit)

/-- CWAIT: waits for the core completion counter, and joins what it has counted (R186, R248). -/
def execCwait (a : BitVec 5) (n : BitVec 10) (s : State) : Host.Outcome State Fault Refusal :=
  finish s (do
    s.scalars [a.toNat]
    let x ← s.src a.toNat
    let goal : BitVec 32 := BitVec.ofNat 32 (x.1.toNat + n.toNat)
    if (s.cur.ccnt - goal).toNat < 2 ^ 31 then .ok (((s.pop [a.toNat]).joinObject 64).retire 2)
    else if s.cur.copies.any (fun k => litKind k.lit == 4)
        || s.cur.colls.any (fun (p : Nat × Coll) => p.2.ended.isNone && litKind p.2.lit == 4) then .error (.wait .other)
    else .error (.trap 0x27))

/-- CCNT (R186). -/
def execCcnt (d : BitVec 5) (s : State) : Host.Outcome State Fault Refusal :=
  finish s (s.report d.toNat (s.cur.ccnt.zeroExtend 64))

/-- The copy status of a sequencer (Table 9-6). -/
def SeqState.copyStatus (x : SeqState) : Nat := x.abnormal * 2 ^ 48 + x.firstSeq.toNat * 2 ^ 16 + x.firstStatus.toNat

/-- CSTAT: the copy status, which it clears (R186). -/
def execCstat (d : BitVec 5) (s : State) : Host.Outcome State Fault Refusal :=
  finish s (do
    let v := s.seq.copyStatus
    State.report (s.modSeq (fun x => { x with abnormal := 0, firstSeq := 0, firstStatus := 0 })) d.toNat (BitVec.ofNat 64 v))

/-- CSTAT with imm10[0] = 1: the copies issued (R186). -/
def execCstatIssued (d : BitVec 5) (s : State) : Host.Outcome State Fault Refusal :=
  finish s (s.report d.toNat (s.seq.issued.zeroExtend 64))

/-- The places of a range of a copy's or the ME's captured handle: its handle checks were made at issue (R174). -/
def State.engineLocate (s : State) (n : Nat) (h : BitVec 256) (off len : Nat) (acc : Acc) (asEngine : Bool) (m : Mapping) :
    Except Stop (State × List Loc) :=
  if hOnchip h then
    let ls := (List.range len).map (fun i => onchipLoc (hBase h + off + i))
    match (if acc.writes then firstCause (fun l => match l with | .win _ o => winWriteCause o | _ => none) ls else none) with
    | some c => .error (.trap c)
    | none => .ok (s, ls)
  else s.locate ((s.core n).who n) h off len acc asEngine m

/-- Reads bytes for an engine; a row not yet verified, or a page being copied, stalls it (R181, R295). -/
def State.engineRead (s : State) (ls : List Loc) : Except Stop (List Byte) :=
  if ls.any s.unverified then .error .stall
  else match firstCause s.readCause ls with
    | some c => .error (.trap c)
    | none => .ok (s.readLocs ls)

/-- Places may be written by an engine now. -/
def State.engineMay (s : State) (ls : List Loc) : Except Stop Unit :=
  if ls.any s.unverified || s.copying ls then .error .stall else .ok ()

/-- The mapping a copy uses (R252). -/
def State.copyMapping (s : State) (n : Nat) (k : Copy) : Mapping :=
  if k.oldMap then .old k.mapTime else if !(s.core n).invals.isEmpty then .fresh else .held

/-- The index tuple of a linear index, dimension 0 fastest (R176). -/
def coords : List Nat → Nat → List Nat
  | [], _ => []
  | e :: es, n => n % e :: coords es (n / e)

/-- Σ of coordinates times strides. -/
def strideSum (cs : List Nat) (st : List Int) : Int := (cs.zip st).foldl (fun (v : Int) p => v + p.1 * p.2) 0

/-- Elements that a copy transfers at a time: a block where its destination is KBF, which is encoded whole (R66, R178). -/
def Copy.grain (k : Copy) : Nat := if (kbfOf (copyCodes k.mode k.shape k.dst k.src).2).isSome then 32 else 1

/-- Elements of a copy. -/
def Copy.units (k : Copy) : Nat := product k.shape.extents

/-- The sides of a copy in flight. -/
def Copy.sides (k : Copy) : Side × Side := copySides k.mode k.shape k.dst k.src k.soff k.doff

/-- The byte offset of an element on a side (R176, R178, R180); `row` is the index read for it. -/
def Side.at' (x : Side) (cs : List Nat) (row : Nat) : Int :=
  if x.indexed then (row : Int) * x.strides.getD 1 0 + (cs.headD 0 : Nat) * x.strides.headD 0
  else match x.kbf with
    | some _ => x.off + (cs.headD 0 / 32 * x.esz : Nat) + strideSum (cs.drop 1) (x.strides.drop 1)
    | none => x.off + strideSum cs x.strides

/-- The lowest and the highest offset of a row of the indexed side (R180). -/
def Side.rowBox (x : Side) (es : List Nat) (row : Nat) : Int × Int :=
  ({ x with indexed := false, off := (row : Int) * x.strides.getD 1 0, strides := x.strides.take 1 } : Side).box (es.take 1)

/-- A row of the indexed side lies within its bounds (R180). -/
def Side.rowFits (x : Side) (es : List Nat) (row : Nat) : Bool :=
  decide (0 ≤ (x.rowBox es row).1) && decide ((x.rowBox es row).2 < (hLen x.h : Int))

/-- The window checks of a row of the indexed side, made as its index is read: the right M, then R19 and R21 (Table 9-1; DEDUCED,
log 26). -/
def State.rowCause (s : State) (n : Nat) (x : Side) (es : List Nat) (row : Nat) : Option Cause :=
  let (lo, hi) := x.rowBox es row
  if !x.indexed || !hOnchip x.h then none
  else if needM n x.h lo.toNat (hi - lo + 1).toNat && hRights x.h &&& rightM != rightM then some 0x72
  else s.windowsCause ((s.core n).who n) x.h lo hi

/-- The place of the index of a row (R180). -/
def Copy.indexLocs (n : Nat) (k : Copy) (row : Nat) : List Loc := (List.range 4).map (fun i => .win n (k.extra.toNat + 4 * row + i))

/-- The index that an element's row now has; 0 where neither side is indexed. -/
def State.rowOf (s : State) (n : Nat) (k : Copy) (cs : List Nat) : Nat :=
  if k.mode = .gather ∨ k.mode = .scatter then numOf (s.readLocs (Copy.indexLocs n k (cs.getD 1 0))) else 0

/-- The runs of bytes of an element at an offset of a side: the element, or its block and the header of the block (R51). -/
def Side.runs (x : Side) (o : Int) : List (Nat × Nat) :=
  if x.kbf.isSome then [(o.toNat, x.esz), (x.blocks * x.esz + 2 * (o.toNat / x.esz), 2)] else [(o.toNat, x.esz)]

/-- The runs of bytes that element i of a block at an offset of a side is read from: of a block, the bytes that hold the element,
and the header (R51, R66). -/
def Side.reads (x : Side) (o : Int) (i : Nat) : List (Nat × Nat) :=
  if x.kbf.isSome then [(o.toNat + i * x.esz / 32, Nat.max 1 (x.esz / 32)), (x.blocks * x.esz + 2 * (o.toNat / x.esz), 2)] else [(o.toNat, x.esz)]

/-- The places of runs of bytes on a side, in order, each with its address in the object's own space. -/
def State.sideLocs (s : State) (n : Nat) (x : Side) (acc : Acc) (m : Mapping) : List (Nat × Nat) →
    Except Stop (State × List (Int × Loc))
  | [] => .ok (s, [])
  | (o, len) :: rs => do
    let (s1, ls) ← s.engineLocate n x.h o len acc true m
    let (s2, rest) ← State.sideLocs s1 n x acc m rs
    .ok (s2, ls.zipIdx.map (fun p => (((hBase x.h + o + p.2 : Nat) : Int), p.1)) ++ rest)

/-- What one transfer writes, from the bytes it read, for an element at a place of its block (R176, R178). -/
def copyBytes (mode : CopyMode) (sx dx : Side) (i : Nat) (bs : List Byte) : List Byte :=
  match mode, sx.kbf, dx.kbf with
  | .cpyz, _, _ => List.replicate dx.esz 0
  | .cpycv, some k, _ =>
    let n := Nat.max 1 (sx.esz / 32)
    let b := kbfBlock k (List.replicate (i * sx.esz / 32) 0 ++ bs.take n) (bs.getD n 0).toNat (bs.getD (n + 1) 0).toNat
    bytesOf dx.esz (kbfDecode k b i ((fpOf dx.code).getD fp32) .rne).1
  | .cpycv, none, some k =>
    let vs := (Crypto.pieces sx.esz bs.length bs).map numOf
    let b := (kbfEncode k ((fpOf sx.code).getD fp32) vs).1
    kbfPack k b.elems ++ [BitVec.ofNat 8 b.e0, BitVec.ofNat 8 b.e1]
  | .cpycv, none, none => bytesOf dx.esz (convertCode sx.code dx.code (numOf bs))
  | _, _, _ => bs

/-- The 32-byte granules of the destination that an element writes (R250). -/
def State.elementGranules (s : State) (n : Nat) (k : Copy) (i : Nat) : List Int :=
  let dx := k.sides.2
  let cs := coords k.shape.extents i
  (dx.runs (dx.at' cs (s.rowOf n k cs))).flatMap (fun r =>
    let a : Nat := hBase dx.h + r.1
    (List.range ((a + r.2 - 1) / 32 + 1 - a / 32)).map (fun j => ((a / 32 + j : Nat) : Int)))

/-- The granules that the elements from the next on still write (R250). -/
def State.laterGranules (s : State) (n : Nat) (k : Copy) : List Int :=
  ((List.range (k.units - k.next)).flatMap (fun i => s.elementGranules n k (k.next + i))).eraseDups

/-- Bytes read, with those that earlier elements of the copy have written and that are not yet visible in their places (R176). -/
def Copy.readsOwn (k : Copy) (ls : List Loc) (bs : List Byte) : List Byte :=
  (ls.zip bs).map (fun p => ((k.staged.reverse.find? (fun b => b.2.1 == p.1)).map (fun b => b.2.2)).getD p.2)

/-- One transfer of a copy: the element, or the block, at which it stands. Where an earlier element has written its source, it
takes either those bytes or the older ones (R176). The bytes are staged, and become visible granule by
granule. The index of a row is read again for each of its elements (DESIGN CHOICE, log 43). Answers the copy as it is after
it. -/
def State.transferUnit (s : State) (n : Nat) (k : Copy) : Except Stop (State × Copy) := do
  let es := k.shape.extents
  let (sx, dx) := k.sides
  let g := k.grain
  let m := s.copyMapping n k
  let first := k.next
  let cs := coords es first
  let row ← (if sx.indexed ∨ dx.indexed then do
      let bs ← s.engineRead (Copy.indexLocs n k (cs.getD 1 0))
      .ok (numOf bs)
    else .ok 0)
  if (sx.indexed && !sx.rowFits es row) || (dx.indexed && !dx.rowFits es row) then .ok (s, { k with status := 0x73, next := k.units, touched := true })
  else match s.rowCause n sx es row, s.rowCause n dx es row with
    | some c, _ => .error (.trap c)
    | none, some c => .error (.trap c)
    | none, none => do
      let runs := (List.range g).flatMap (fun i => sx.reads (sx.at' (coords es (first + i)) row) ((cs.headD 0 + i) % 32))
      let (s1, rl) ← (if k.mode.reads then s.sideLocs n sx .read m runs else .ok (s, []))
      let bs0 ← s1.engineRead (rl.map Prod.snd)
      let s1 := s1.observed s1.writes (rl.map Prod.snd)
      let newer := rl.any (fun p => k.staged.any (fun b => b.2.1 == p.2))
      let bs := if newer && (Config.pick s1.draws).testBit 0 then k.readsOwn (rl.map Prod.snd) bs0 else bs0
      let s1 := if newer then s1.draw else s1
      let (s2, wl) ← s1.sideLocs n dx .write m (dx.runs (dx.at' cs row))
      s2.engineMay (wl.map Prod.snd)
      let out := (wl.zip (copyBytes k.mode sx dx (cs.headD 0 % 32) bs)).map (fun p => (p.1.1 / 32, p.1.2, p.2))
      .ok (s2, { k with next := k.next + g, touched := true, staged := k.staged ++ out })

/-- Replaces a copy of a core. -/
def Core.setCopy (c : Core) (k : Copy) : Core := { c with copies := c.copies.map (fun x => if x.id = k.id then k else x) }

/-- A copy of a core. -/
def Core.copy? (c : Core) (id : Nat) : Option Copy := c.copies.find? (fun k => k.id == id)

/-- The accesses that order a copy have performed (R174), and no SAVE holds it (R149). -/
def Core.copyReady (c : Core) (k : Copy) : Bool :=
  !c.saving && !c.blocked k.loadDeps && !c.stores.any (fun x => k.storeDeps.contains x.id)

/-- A granule of a copy lies in a page that is being copied: what is staged for it waits (R295). -/
def State.granuleHeld (s : State) (k : Copy) (g : Int) : Bool := s.copying ((k.staged.filter (fun b => b.1 == g)).map (fun b => b.2.1))

/-- Makes the staged bytes visible that `f` chooses by their granule, in element order (R176), but those of a page that is being
copied (R295). -/
def State.flush (s : State) (n id : Nat) (f : Int → Bool) : State :=
  match (s.core n).copy? id with
  | none => s
  | some k =>
    let now := fun (g : Int) => f g && !s.granuleHeld k g
    let out := (k.staged.filter (fun b => now b.1)).map Prod.snd
    if out.isEmpty then s
    else
      let patched := k.patched ++ s.flawed (out.map Prod.fst)
      ((s.writeEngine n (.flight id) out).mend patched).modCore n (fun c => c.setCopy { k with staged := k.staged.filter (fun b => !now b.1), patched := patched })

/-- A copy's staged bytes wait for a page that is being copied (R295). -/
def State.copyHeld (s : State) (k : Copy) : Bool := s.copying (k.staged.map (fun b => b.2.1))

/-- Makes everything visible that a copy has done: it stops, or it has ended (R66, R183, R184). -/
def State.flushAll (s : State) (n id : Nat) : State := s.flush n id (fun _ => true)

/-- Makes visible what the CE chooses of the granules that the copy has done with: any of them, in any order (R176, R250). -/
def State.flushSome (s : State) (n id : Nat) : State :=
  match (s.core n).copy? id with
  | none => s
  | some k =>
    let later := s.laterGranules n k
    let ready := ((k.staged.map Prod.fst).eraseDups).filter (fun g => !later.contains g)
    let chosen := (ready.zipIdx.filter (fun p => (Config.pick s.draws).testBit p.2)).map Prod.fst
    let ls := (k.staged.filter (fun b => chosen.contains b.1)).map (fun b => b.2.1)
    match s.engineMay ls with
    | .ok () => s.draw.flush n id chosen.contains
    | .error _ => s

/-- Makes the granules visible that a copy has done with; one that it still writes to stays as it was (R250). -/
def State.flushDone (s : State) (n id : Nat) : State :=
  match (s.core n).copy? id with
  | none => s
  | some k =>
    let later := s.laterGranules n k
    s.flush n id (fun g => !later.contains g)

/-- A copy stops at what one of its accesses has met: a translation fault halts it at its element, where the granules that it has
done with are written; an integrity failure or a refused write ends its task (R184, R250, R282, R283), once what it has done can
be written (R295). `places` are those that an import has reached. -/
def State.copyStop (s : State) (n id : Nat) (places : List Loc) : Stop → State
  | .fault i => (s.flushDone n id).engineFault n (.copy n id) i (fun f c => match c.copy? id with
    | some k => c.setCopy { k with fault := some f, touched := true, unverified := places }
    | none => c)
  | .trap c => if ((s.core n).copy? id).any s.copyHeld then s else (s.flushAll n id).failTask n c
  | _ => s

/-- Transfers up to f further elements of a copy; whether it has come to its end. -/
def State.runCopy (s : State) (n id : Nat) : Nat → State
  | 0 => s
  | f + 1 =>
    match (s.core n).copy? id with
    | none => s
    | some k =>
      if k.units ≤ k.next then s
      else match s.transferUnit n k with
        | .error e => s.copyStop n id [] e
        | .ok (t, k') => State.runCopy (t.modCore n (fun c => { c.setCopy k' with lastActive := s.cycle })) n id f

/-- A copy may move: it is no import, not halted, not ended, and what orders it has performed. -/
def Core.copyMoves (c : Core) (k : Copy) : Bool := k.mode != .cpyin && k.fault.isNone && k.status == 0 && c.copyReady k

/-- An abnormal end is recorded for CSTAT (R184, R186). -/
def SeqState.noteAbnormal (x : SeqState) (k : Copy) : SeqState :=
  if k.status = 0 then x
  else { x with abnormal := Nat.min 0xFFFF (x.abnormal + 1),
                firstSeq := if x.abnormal = 0 then k.issue.extractLsb' 0 16 else x.firstSeq,
                firstStatus := if x.abnormal = 0 then k.status else x.firstStatus }

/-- A fill, a token or a counter increment of a completion object (R183); one that overruns is raised late (R15, R123). -/
def Core.complete (c : Core) (sq : Sq) (lit : BitVec 32) : Core :=
  match litKind lit with
  | 1 =>
    match c.rills[litId lit]?.getD none with
    | none => c
    | some r =>
      match r.produce (litCount lit) with
      | none => c.raiseLate sq 0xA2
      | some r' => { c with rills := c.rills.setIfInBounds (litId lit) (some r') }
  | 2 =>
    let q := queueOf sq.num (litId lit)
    if 65535 < c.tokenCount q + litCount lit then c.raiseLate sq 0x27 else c.setTokens q (c.tokenCount q + litCount lit)
  | 4 => { c with ccnt := c.ccnt + BitVec.ofNat 32 (litCount lit) }
  | _ => c

/-- What joins the writes of an engine operation of a sequencer: its rill, its token queue, its signal, the counter; nothing
where its literal names no object (Table 13-5). -/
def objectCode (q : Sq) (lit : BitVec 32) : Nat :=
  match litKind lit with
  | 1 => 16 + litId lit
  | 2 => 32 + queueOf q.num (litId lit)
  | 3 => 48
  | 4 => 64
  | _ => 0

/-- What joins the writes of a copy. -/
def Copy.object (k : Copy) : Nat := objectCode k.sq k.lit

/-- Delivers the completion object of a copy that has ended, but the decrement of a signal, and forgets the copy (R183, R186). -/
def State.deliverCopy (s : State) (n : Nat) (k : Copy) : State :=
  ((s.landWrites n k.id k.object).modCore n (fun c =>
    { (c.modSeq k.sq (fun x => x.noteAbnormal k)).complete k.sq k.lit with
      copies := c.copies.filter (fun x => x.id != k.id), lastActive := s.cycle })).meetWaiting n k.sq

/-- A copy that has ended is delivered. Kind 3 only at a normal end, its decrement made by the core (R227); one that fails ends the
task (R183, R184; log 23). -/
def State.joinCopy (s : State) (n : Nat) (k : Copy) : State :=
  let s2 := s.deliverCopy n k
  let s3 := if litKind k.lit = 3 ∧ k.status = 0 then
      match (s2.core n).task with
      | none => s2
      | some t => match s2.decrementBy n t.sigHandle (litCount k.lit) with
        | .ok u => u
        | .error c => s2.failTask n c
    else s2
  let s4 := s3.settleInval n
  match (s4.core n).task.bind Task.launch with
  | none => s4
  | some l => s4.settleLaunch l

/-- Delivers the fills of a rill whose copies have landed, in issue order (R15). -/
def State.settleFills (s : State) (n w : Nat) : Nat → State
  | 0 => s
  | f + 1 =>
    match (s.core n).copies.find? (fun k => fillsRill k.lit w) with
    | none => s
    | some k => if k.landed then State.settleFills (s.joinCopy n k) n w f else s

/-- What a copy has done is written, and a fault of it is stale (R183, R185). -/
def State.copyWritten (s : State) (n id : Nat) : State :=
  let t := s.flushAll n id
  { t with faults := t.faults.filter (fun f => f.unit != FaultUnit.copy n id) }

/-- A copy has ended: what it has done is written and its completion object is delivered, a fill once the earlier fills of its
rill have advanced (R15, R183). -/
def State.endCopy (s0 : State) (n : Nat) (k0 : Copy) : State :=
  let k := { k0 with staged := [] }
  let s := s0.copyWritten n k.id
  if litKind k.lit = 1 then
    (s.modCore n (fun c => c.setCopy { k with landed := true, unverified := [], fault := none })).settleFills n (litId k.lit) ((s.core n).copies.length)
  else s.joinCopy n k

/-- A copy that has come to its end ends, once its writes can be made (R295). -/
def State.finishCopy (s : State) (n : Nat) (k : Copy) : State :=
  if s.copyHeld k then s.modCore n (fun c => c.setCopy k) else s.endCopy n k

/-- A copy ends where it stands, with a status: what it has written stays written, a fault of it is stale (R185). What waits for a
page that is being copied is written when it can be (R295). Its completion object is delivered in its turn (R16, R183). -/
def State.abandonCopy (s : State) (n id : Nat) (status : BitVec 8) : State :=
  let t := s.copyWritten n id
  match (t.core n).copy? id with
  | none => t
  | some k => t.modCore n (fun c =>
      { c.setCopy { k with status := status, fault := none, unverified := [] } with lastActive := t.cycle })

/-- The places of all elements of the plaintext side of a sealed copy, from element i on; on a stop, those found so far. -/
def State.plainLocs (s : State) (n : Nat) (k : Copy) (x : Side) (acc : Acc) : Nat → Nat → List Loc → State × List Loc × Option Stop
  | 0, _, ls => (s, ls, none)
  | f + 1, i, ls =>
    match s.engineLocate n x.h (x.at' (coords k.shape.extents i) 0).toNat x.esz acc true (s.copyMapping n k) with
    | .error e => (s, ls, some e)
    | .ok (t, l) => State.plainLocs t n k x acc f (i + 1) (ls ++ l)

/-- The stream that the header of a CPYIN's record names now, where the header can be read (R179). -/
def State.importStream (s : State) (n : Nat) (k : Copy) : Option Nat :=
  match s.engineLocate n k.src k.soff 4 .read true (s.copyMapping n k) with
  | .ok (t, ls) => (t.engineRead ls).toOption.map numOf
  | .error _ => none

/-- A CPYIN of the core that has not verified was issued before a copy and has its stream, or may have it: its header cannot be
read yet (R181). -/
def State.importBefore (s : State) (n : Nat) (k : Copy) : Bool :=
  ((s.core n).copies.takeWhile (fun x => x.id != k.id)).any (fun x =>
    x.mode == .cpyin && x.status == 0 && x.next == 0 && (s.importStream n x).all (fun i => s.importStream n k == some i))

/-- The key of an open stream of a tenant and direction (R181, R182). -/
def State.stream (s : State) (id tenant : Nat) (outward : Bool) : Option Stream :=
  (Store.find? s.streams id).bind (fun x => if x.tenant = tenant ∧ x.outward = outward then some x else none)

/-- The bytes of the scratchpad row or HBM line that a place lies in (R181); other places stand for themselves. -/
def Loc.rowBytes : Loc → List Loc
  | .hbm a => (List.range 64).map (fun i => .hbm (a / 64 * 64 + i))
  | .win c o => if o < 0x100000 then (List.range 64).map (fun i => .win c (o / 64 * 64 + i)) else [.win c o]
  | l => [l]

/-- CPYIN_VERIFY (R181): the record is decrypted into the destination rows and its tag verified. Rows that a
faulting import has reached stay unverified; no plaintext of a failed import is ever written (log 24). -/
def execCpyinVerify (core id : Nat) (s : State) : Host.Outcome State Fault Refusal :=
  .next (
    let c := s.core core
    match c.copy? id with
    | none => s
    | some k =>
      if k.mode != .cpyin || k.next != 0 || k.status != 0 || k.fault.isSome || !c.copyReady k || s.importBefore core k then s
      else
        let (sx, dx) := k.sides
        let bytes := product k.shape.extents * k.shape.esz
        let m := s.copyMapping core k
        let done := fun (s : State) (st : BitVec 8) => s.modCore core (fun c =>
          { c.setCopy { k with status := st, next := k.units, touched := true, unverified := [] } with lastActive := s.cycle })
        match s.engineLocate core sx.h sx.off.toNat 16 .read true m with
        | .error e => s.copyStop core id [] e
        | .ok (s0, hls) =>
          match s0.engineRead hls with
          | .error e => s0.copyStop core id [] e
          | .ok head =>
            let id' := numOf (head.take 4)
            match (if 65536 ≤ id' then none else s0.stream id' ((c.task.map Task.tenant).getD 1024) false) with
            | none => done s0 0x96
            | some st =>
              if numOf (head.drop 12) ≠ bytes then done s0 0x92
              else
                let (s1, dls, stop) := s0.plainLocs core k dx .write k.units 0 []
                let halt := fun (s : State) (e : Stop) => s.copyStop core id dls e
                match stop with
                | some e => halt s1 e
                | none =>
                  match s1.engineLocate core sx.h sx.off.toNat (bytes + 32) .read true m with
                  | .error e => halt s1 e
                  | .ok (s2, sls) =>
                    match s2.engineRead sls, s2.engineMay (dls.filter (fun l => !k.unverified.contains l)) with
                    | .error e, _ => halt s2 e
                    | _, .error e => halt s2 e
                    | .ok bs, .ok () =>
                      let s2 := s2.observed s2.writes sls
                      let ct := (bs.drop 16).take bytes
                      let count := numOf ((head.drop 4).take 8)
                      if Crypto.gcmTag st.key (head.take 12) head ct = bs.drop (16 + bytes) ∧ st.last < count then
                        let s3 := s2.writeEngine core (.flight id) (dls.zip (Crypto.gcmCrypt st.key (head.take 12) ct))
                        done { s3 with streams := Store.put id' { st with last := count } s3.streams } 0
                      else done (s2.writeEngine core (.flight id) ((dls.flatMap Loc.rowBytes).map (fun l => (l, 0)))) 0x92)

/-- CPYOUT seals its record, whose bytes become visible in any order (R182). -/
def State.exportCopy (s : State) (n : Nat) (k : Copy) : State × Option Copy :=
  let (sx, dx) := k.sides
  let bytes := product k.shape.extents * k.shape.esz
  match s.stream k.extra.toNat (((s.core n).task.map Task.tenant).getD 1024) true with
  | none => (s, some { k with status := 0x96, next := k.units })
  | some st =>
    if st.last = 2 ^ 64 - 1 then (s, some { k with status := 0x96, next := k.units })
    else
      let (s1, sls, stop) := s.plainLocs n k sx .read k.units 0 []
      match stop with
      | some e => (s1.copyStop n k.id [] e, none)
      | none =>
        match s1.engineLocate n dx.h dx.off.toNat (bytes + 32) .write true (s1.copyMapping n k) with
        | .error e => (s1.copyStop n k.id [] e, none)
        | .ok (s2, dls) =>
          match s2.engineRead sls, s2.engineMay dls with
          | .error e, _ => (s2.copyStop n k.id [] e, none)
          | _, .error e => (s2.copyStop n k.id [] e, none)
          | .ok bs, .ok () =>
            let s2 := s2.observed s2.writes sls
            let count := st.last + 1
            let head := bytesOf 4 k.extra.toNat ++ bytesOf 8 count ++ bytesOf 4 bytes
            let ct := Crypto.gcmCrypt st.key (head.take 12) bs
            let out := (dls.zipIdx.zip (head ++ ct ++ Crypto.gcmTag st.key (head.take 12) head ct)).map (fun p =>
              ((((hBase dx.h + dx.off.toNat + p.1.2 : Nat) : Int) / 32), p.1.1, p.2))
            ({ s2 with streams := Store.put k.extra.toNat { st with last := count } s2.streams },
              some { k with next := k.units, touched := true, staged := out })

/-- A running copy gets further by up to f elements, and some of what it has done becomes visible (R176). -/
def State.copyProgress (s : State) (n id f : Nat) : State :=
  match (s.core n).copy? id with
  | none => s
  | some k =>
    if !(s.core n).copyMoves k then s
    else if k.mode = .cpyout then
      if k.units ≤ k.next then s.flushSome n id
      else match s.exportCopy n k with
        | (t, none) => t
        | (t, some k') => t.modCore n (fun c => { c.setCopy k' with lastActive := s.cycle })
    else (s.runCopy n id f).flushSome n id

/-- COPY_COMPLETION (R183): what is left of the copy is transferred, and its completion object is delivered. -/
def execCopyCompletion (core id : Nat) (s : State) : Host.Outcome State Fault Refusal :=
  .next (
    let c := s.core core
    match c.copy? id with
    | none => s
    | some k =>
      if k.fault.isSome || k.landed || c.saving then s
      else if k.status != 0 then s.finishCopy core k
      else if !c.copyReady k then s
      else match k.mode with
        | .cpyin => if k.next = 0 then s else s.finishCopy core k
        | .cpyout => if k.units ≤ k.next then s.finishCopy core k else
          match s.exportCopy core k with
          | (t, none) => t
          | (t, some k') => (t.modCore core (fun c => c.setCopy k')).finishCopy core k'
        | _ =>
          let t := s.runCopy core id (k.units - k.next)
          match (t.core core).copy? id with
          | none => t
          | some k' => if k'.units ≤ k'.next ∧ k'.fault.isNone then t.finishCopy core k' else t)

end Sys2Proof.Machine
end

