-- ==== Sys2Proof/Machine/Vector.lean ====
section
/-!
DEFINITION. The vector unit (R190 to R194, R212 to R220, R222 to R224): lanes of a row, masked writes with their flags
and taint sets, and the accumulator instructions.
-/
namespace Sys2Proof.Machine

/-- Bits of a lane (Table 11-1). -/
def TileType.bits : TileType → Nat
  | .fp32 => 32 | .int32 => 32 | .bf16 => 16 | .fp16 => 16 | .int8 => 8

/-- Lanes of a row (Table 11-1). -/
def TileType.lanes (y : TileType) : Nat := 2048 / y.bits

/-- The format of a floating-point tile. -/
def TileType.fmt : TileType → FloatFmt
  | .bf16 => Sys2Proof.Machine.bf16 | .fp16 => Sys2Proof.Machine.fp16 | _ => Sys2Proof.Machine.fp32

/-- The tile type of a code (Table 11-1). -/
def TileType.ofCode (n : Nat) : TileType :=
  match n with
  | 0 => .fp32 | 1 => .int32 | 2 => .bf16 | 3 => .fp16 | _ => .int8

def floatTypes : List TileType := [.fp32, .bf16, .fp16]
def intTypes : List TileType := [.int32, .int8]
def allTypes : List TileType := [.fp32, .int32, .bf16, .fp16, .int8]
def treeTypes : List TileType := [.fp32, .bf16, .fp16, .int32]

/-- The lanes of a row, w bits each (R190). -/
def lanesOf (w : Nat) (r : BitVec 2048) : List Nat := (List.range (2048 / w)).map (fun i => r.toNat / 2 ^ (w * i) % 2 ^ w)

/-- A row from its lanes, w bits each. -/
def packLanes (w : Nat) : List Nat → Nat
  | [] => 0
  | x :: xs => x % 2 ^ w + 2 ^ w * packLanes w xs

/-- Lane i is taken from the new lanes where bit i of the mask is set, else from the old (R192). -/
def mergeLanes (m : BitVec 256) (old new : List Nat) : List Nat :=
  (old.zip new).zipIdx.map (fun p => if m.getLsbD p.2 then p.1.2 else p.1.1)

/-- An outstanding operation of the matrix engine names tile t as its C tile (R195, R204). -/
def Core.tileBusy (c : Core) (t : Nat) : Bool :=
  [c.me.active, c.me.pendingOp].any (fun o => o.any (fun m => (m.regs[0x1C]?.getD 0).toNat == t))

/-- What a row held before each row-step that the active operation has committed to it, oldest first (R204). -/
def Core.rowHistory (c : Core) (r : Nat) : List (BitVec 2048) := (c.me.active.map (fun o => Store.getD o.earlier r [])).getD []

/-- The row-steps that each element of a row shows to a read of ex, chosen by the k-th free number: no fewer than ex has found
before (R204, R230, R236). -/
def State.rowSteps (s : State) (r k : Nat) : List Nat :=
  let n := (s.cur.rowHistory r).length + 1
  let least := (s.cur.me.active.map (fun o => Store.getD o.found r [])).getD []
  (List.range 64).map (fun i => least.getD i 0 + Config.pick (s.draws + k) / n ^ i % (n - least.getD i 0))

/-- What an instruction that reads a row finds (R204): where an outstanding operation has committed row-steps to it, each
element as it stood after some number of them, chosen by the k-th free number; otherwise the row. -/
def State.readRow (s : State) (r k : Nat) : BitVec 2048 :=
  match s.cur.rowHistory r with
  | [] => s.cur.row r
  | vs =>
    let all := (vs ++ [s.cur.row r]).map (lanesOf 32)
    BitVec.ofNat 2048 (packLanes 32 ((s.rowSteps r k).zipIdx.map (fun p => (all.getD p.1 []).getD p.2 0)))

/-- ex has found at least so many row-steps in each element of a row. -/
def MeOp.note (o : MeOp) (r : Nat) (steps : List Nat) : MeOp :=
  { o with found := Store.put r (steps.zipIdx.map (fun p => Nat.max p.1 ((Store.getD o.found r []).getD p.2 0))) o.found }

/-- ex has read rows of a tile: the free numbers that chose what it found are drawn, what it found it finds again, and the reads
follow what it has joined (R236, R248). -/
def State.drewRows (s : State) (t : Nat) (rows : List Nat) : State :=
  let u := s.carry s.curCore s.curSq
  if s.cur.tileBusy t then
    (u.modCur (fun c => { c with me := { c.me with active := c.me.active.map (fun o =>
      rows.zipIdx.foldl (fun (o : MeOp) p => if (s.cur.rowHistory p.1).isEmpty then o else o.note p.1 (s.rowSteps p.1 p.2)) o) } })).draw.draw
  else u

/-- ex has read bytes of rows through the window, as they stand: later it finds no fewer of their row-steps (R204, R230, R236). -/
def State.sawRows (s : State) (ls : List Loc) : State :=
  let read := fun (r i : Nat) => ls.any (fun l => match l with
    | .win k o => k == s.curCore && o / 4 == 0x40000 + 64 * r + i
    | _ => false)
  s.modCur (fun c => { c with me := { c.me with active := c.me.active.map (fun o =>
    o.earlier.foldl (fun (o : MeOp) (p : Nat × List (BitVec 2048)) =>
      o.note p.1 ((List.range 64).map (fun i => if read p.1 i then p.2.length else 0))) o) } })

/-- A store of ex to a tile's window bytes has not performed: what reads or writes its rows waits for it (R230, R236). -/
def Core.tileStored (c : Core) (n t : Nat) : Bool :=
  c.stores.any (fun x => x.sq == .ex && x.locs.any (fun l => match l with
    | .win k o => k == n && decide (0x100000 + 0x4000 * t ≤ o) && decide (o < 0x104000 + 0x4000 * t)
    | _ => false))

/-- The rows of a tile are as ex's earlier stores have left them, or the instruction stalls (R230, R236). -/
def State.tileQuiet (s : State) (t : Nat) : Except Stop Unit := if s.cur.tileStored s.curCore t then .error .stall else .ok ()

/-- The level at which the partition of a core issues on its die (R276, R370). -/
def State.issueLevel (s : State) (n : Nat) : Nat :=
  let part := ((s.core n).task.map Task.part).or (s.clusterPart (n / Config.clusterCores))
  Nat.max ((s.dies[dieOf n]?.map Die.qt).getD 0) ((part.bind (Store.find? s.parts)).elim 0 Partition.level)

/-- Vector issue and row-step starts of a core are held back in this cycle: past the share of the window that its level leaves
(R276, R370), or while a droop gates its die (R368). -/
def State.gated (s : State) (n : Nat) : Bool :=
  decide (64 - s.issueLevel n ≤ s.cycle % 64) || decide (s.cycle < (s.dies[dieOf n]?.map Die.droopUntil).getD 0)

/-- The type of a tile. -/
def Core.tile (c : Core) (t : Nat) : TileType := c.tileType[t]?.getD .fp32

/-- What every vector instruction checks (R191): ex issues it, its scalars and its tile are declared, and the type is
admitted; it follows ex's own stores to the tile (R230). -/
def State.vector (s : State) (t : Nat) (types : List TileType) (scal : List Nat) : Except Stop Unit := do
  s.only [.ex]
  s.scalars scal
  need (decide (t < s.cur.decl.tiles)) 0x22
  need (types.contains (s.cur.tile t)) 0x02
  s.tileQuiet t

/-- A write to a tile waits while an outstanding operation names it (R204). -/
def State.tileFree (s : State) (t : Nat) : Except Stop Unit := if s.cur.tileBusy t then .error (.wait .engine) else .ok ()

/-- A row of a tile (R101). -/
def rowNum (t : BitVec 2) (r : BitVec 6) : Nat := 64 * t.toNat + r.toNat

/-- Writes a row: the bits, and the set that is the union of the sets named and its own (R193). The access follows what ex has
joined (R236, R248). -/
def State.putRow (s : State) (r : Nat) (v : Nat) (t : Taint) : State :=
  (s.carry s.curCore s.curSq).modCur (fun c => (c.setRow r (BitVec.ofNat 2048 v)).setRowSet r (c.rowSet r ||| t))

/-- Raises flags (R46). -/
def State.raiseFlags (s : State) (f : FpFlags) : State := s.modCur (fun c => { c with fpflags := c.fpflags ||| f })

/-- The rounding direction of FPMODE. -/
def State.rounding (s : State) : Rounding := Rounding.ofMode s.cur.fpmode

/-- The union of the sets of rows. -/
def State.rowSets (s : State) (rs : List Nat) : Taint := rs.foldl (fun (m : Taint) r => m ||| s.cur.rowSet r) 0

/-- The flags of the active lanes (R46). -/
def activeFlags (m : BitVec 256) (xs : List (Nat × FpFlags)) : FpFlags :=
  xs.zipIdx.foldl (fun (f : FpFlags) p => if m.getLsbD p.2 then f ||| p.1.2 else f) 0

/-- A scalar as the operand of every lane (R212). -/
def scalarLane (y : TileType) (v : Word) : Nat := v.toNat % 2 ^ y.bits

/-- THE BODY OF EVERY LANE-WISE INSTRUCTION: row d gets f of the lanes of the rows named, and of the scalar named, in
the lanes of the mask; the flags of those lanes are raised (R191 to R193, R212, R213, R215). -/
def State.lanewise (s : State) (types : List TileType) (t : BitVec 2) (d : BitVec 6) (rows : List (BitVec 6))
    (scal : List Nat) (mask : BitVec 256) (f : TileType → List Nat → Nat × FpFlags) : Except Stop State := do
  s.vector t.toNat types scal
  s.tileFree t.toNat
  let y := s.cur.tile t.toNat
  let sv ← (match scal with
    | [] => .ok ([], (0 : Taint))
    | r :: _ => do
      let v ← s.src r
      .ok ([scalarLane y v.1], v.2))
  let srcs := rows.map (rowNum t)
  let ls := srcs.map (fun r => lanesOf y.bits (s.cur.row r))
  let out := (List.range y.lanes).map (fun i => f y (ls.map (fun l => l.getD i 0) ++ sv.1))
  let old := lanesOf y.bits (s.cur.row (rowNum t d))
  let v := packLanes y.bits (mergeLanes mask old (out.map Prod.fst))
  .ok ((((s.pop scal).putRow (rowNum t d) v (s.rowSets srcs ||| sv.2)).raiseFlags (activeFlags mask out)).retire 2)

/-- Operand i of a lane. -/
def arg (xs : List Nat) (i : Nat) : Nat := xs.getD i 0

/-- VADD (R212). -/
def execVadd (t : BitVec 2) (d a b : BitVec 6) (s : State) : Host.Outcome State Fault Refusal :=
  finish s (s.lanewise floatTypes t d [a, b] [] s.cur.vm (fun y x => y.fmt.add s.rounding (arg x 0) (arg x 1)))
/-- VSUB (R212). -/
def execVsub (t : BitVec 2) (d a b : BitVec 6) (s : State) : Host.Outcome State Fault Refusal :=
  finish s (s.lanewise floatTypes t d [a, b] [] s.cur.vm (fun y x => y.fmt.sub s.rounding (arg x 0) (arg x 1)))
/-- VMUL (R212). -/
def execVmul (t : BitVec 2) (d a b : BitVec 6) (s : State) : Host.Outcome State Fault Refusal :=
  finish s (s.lanewise floatTypes t d [a, b] [] s.cur.vm (fun y x => y.fmt.mul s.rounding (arg x 0) (arg x 1)))
/-- VFMA (R212). -/
def execVfma (t : BitVec 2) (d a b : BitVec 6) (s : State) : Host.Outcome State Fault Refusal :=
  finish s (s.lanewise floatTypes t d [a, b, d] [] s.cur.vm (fun y x => y.fmt.fma s.rounding (arg x 0) (arg x 1) (arg x 2)))
/-- VFMS (R212). -/
def execVfms (t : BitVec 2) (d a b : BitVec 6) (s : State) : Host.Outcome State Fault Refusal :=
  finish s (s.lanewise floatTypes t d [a, b, d] [] s.cur.vm (fun y x => y.fmt.fms s.rounding (arg x 0) (arg x 1) (arg x 2)))
/-- VMIN (R212, R47). -/
def execVmin (t : BitVec 2) (d a b : BitVec 6) (s : State) : Host.Outcome State Fault Refusal :=
  finish s (s.lanewise floatTypes t d [a, b] [] s.cur.vm (fun y x => y.fmt.minMax false (arg x 0) (arg x 1)))
/-- VMAX (R212, R47). -/
def execVmax (t : BitVec 2) (d a b : BitVec 6) (s : State) : Host.Outcome State Fault Refusal :=
  finish s (s.lanewise floatTypes t d [a, b] [] s.cur.vm (fun y x => y.fmt.minMax true (arg x 0) (arg x 1)))

/-- The magnitude bits of a with the sign bit of b (R212). -/
def copySign (w a b : Nat) : Nat := a % 2 ^ (w - 1) + b / 2 ^ (w - 1) % 2 * 2 ^ (w - 1)

/-- VCPYS (R212). -/
def execVcpys (t : BitVec 2) (d a b : BitVec 6) (s : State) : Host.Outcome State Fault Refusal :=
  finish s (s.lanewise floatTypes t d [a, b] [] s.cur.vm (fun y x => (copySign y.bits (arg x 0) (arg x 1), 0)))
/-- VADDS (R212). -/
def execVadds (t : BitVec 2) (d a : BitVec 6) (b : BitVec 5) (s : State) : Host.Outcome State Fault Refusal :=
  finish s (s.lanewise floatTypes t d [a] [b.toNat] s.cur.vm (fun y x => y.fmt.add s.rounding (arg x 0) (arg x 1)))
/-- VMULS (R212). -/
def execVmuls (t : BitVec 2) (d a : BitVec 6) (b : BitVec 5) (s : State) : Host.Outcome State Fault Refusal :=
  finish s (s.lanewise floatTypes t d [a] [b.toNat] s.cur.vm (fun y x => y.fmt.mul s.rounding (arg x 0) (arg x 1)))
/-- VFMAS (R212). -/
def execVfmas (t : BitVec 2) (d a : BitVec 6) (b : BitVec 5) (s : State) : Host.Outcome State Fault Refusal :=
  finish s (s.lanewise floatTypes t d [a, d] [b.toNat] s.cur.vm (fun y x => y.fmt.fma s.rounding (arg x 0) (arg x 2) (arg x 1)))
/-- VMAXS (R212). -/
def execVmaxs (t : BitVec 2) (d a : BitVec 6) (b : BitVec 5) (s : State) : Host.Outcome State Fault Refusal :=
  finish s (s.lanewise floatTypes t d [a] [b.toNat] s.cur.vm (fun y x => y.fmt.minMax true (arg x 0) (arg x 1)))
/-- VMINS (R212). -/
def execVmins (t : BitVec 2) (d a : BitVec 6) (b : BitVec 5) (s : State) : Host.Outcome State Fault Refusal :=
  finish s (s.lanewise floatTypes t d [a] [b.toNat] s.cur.vm (fun y x => y.fmt.minMax false (arg x 0) (arg x 1)))
/-- VSUBS (R212). -/
def execVsubs (t : BitVec 2) (d a : BitVec 6) (b : BitVec 5) (s : State) : Host.Outcome State Fault Refusal :=
  finish s (s.lanewise floatTypes t d [a] [b.toNat] s.cur.vm (fun y x => y.fmt.sub s.rounding (arg x 0) (arg x 1)))

/-- An integer result of w bits, with no flag (R41, R213). -/
def wrapLane (w : Nat) (v : Int) : Nat × FpFlags := ((v % ((2 ^ w : Nat) : Int)).toNat, 0)

/-- VIADD (R213). -/
def execViadd (t : BitVec 2) (d a b : BitVec 6) (s : State) : Host.Outcome State Fault Refusal :=
  finish s (s.lanewise intTypes t d [a, b] [] s.cur.vm (fun y x => wrapLane y.bits (arg x 0 + arg x 1)))
/-- VISUB (R213). -/
def execVisub (t : BitVec 2) (d a b : BitVec 6) (s : State) : Host.Outcome State Fault Refusal :=
  finish s (s.lanewise intTypes t d [a, b] [] s.cur.vm (fun y x => wrapLane y.bits ((arg x 0 : Int) - arg x 1)))
/-- VIMUL (R213). -/
def execVimul (t : BitVec 2) (d a b : BitVec 6) (s : State) : Host.Outcome State Fault Refusal :=
  finish s (s.lanewise intTypes t d [a, b] [] s.cur.vm (fun y x => wrapLane y.bits (arg x 0 * arg x 1)))
/-- VIMAC (R213). -/
def execVimac (t : BitVec 2) (d a b : BitVec 6) (s : State) : Host.Outcome State Fault Refusal :=
  finish s (s.lanewise intTypes t d [a, b, d] [] s.cur.vm (fun y x => wrapLane y.bits (arg x 2 + arg x 0 * arg x 1)))
/-- VAND (R213). -/
def execVand (t : BitVec 2) (d a b : BitVec 6) (s : State) : Host.Outcome State Fault Refusal :=
  finish s (s.lanewise allTypes t d [a, b] [] s.cur.vm (fun _ x => (arg x 0 &&& arg x 1, 0)))
/-- VOR (R213). -/
def execVor (t : BitVec 2) (d a b : BitVec 6) (s : State) : Host.Outcome State Fault Refusal :=
  finish s (s.lanewise allTypes t d [a, b] [] s.cur.vm (fun _ x => (arg x 0 ||| arg x 1, 0)))
/-- VXOR (R213). -/
def execVxor (t : BitVec 2) (d a b : BitVec 6) (s : State) : Host.Outcome State Fault Refusal :=
  finish s (s.lanewise allTypes t d [a, b] [] s.cur.vm (fun _ x => (arg x 0 ^^^ arg x 1, 0)))
/-- VSHL (R213). -/
def execVshl (t : BitVec 2) (d a b : BitVec 6) (s : State) : Host.Outcome State Fault Refusal :=
  finish s (s.lanewise intTypes t d [a, b] [] s.cur.vm (fun y x => (arg x 0 * 2 ^ (arg x 1 % y.bits) % 2 ^ y.bits, 0)))
/-- VSHR (R213). -/
def execVshr (t : BitVec 2) (d a b : BitVec 6) (s : State) : Host.Outcome State Fault Refusal :=
  finish s (s.lanewise intTypes t d [a, b] [] s.cur.vm (fun y x => (arg x 0 / 2 ^ (arg x 1 % y.bits), 0)))
/-- VSAR (R213). -/
def execVsar (t : BitVec 2) (d a b : BitVec 6) (s : State) : Host.Outcome State Fault Refusal :=
  finish s (s.lanewise intTypes t d [a, b] [] s.cur.vm
    (fun y x => wrapLane y.bits (signedOf y.bits (arg x 0) / ((2 ^ (arg x 1 % y.bits) : Nat) : Int))))
/-- VIMIN (R213). -/
def execVimin (t : BitVec 2) (d a b : BitVec 6) (s : State) : Host.Outcome State Fault Refusal :=
  finish s (s.lanewise intTypes t d [a, b] [] s.cur.vm
    (fun y x => (if signedOf y.bits (arg x 1) < signedOf y.bits (arg x 0) then arg x 1 else arg x 0, 0)))
/-- VIMAX (R213). -/
def execVimax (t : BitVec 2) (d a b : BitVec 6) (s : State) : Host.Outcome State Fault Refusal :=
  finish s (s.lanewise intTypes t d [a, b] [] s.cur.vm
    (fun y x => (if signedOf y.bits (arg x 0) < signedOf y.bits (arg x 1) then arg x 1 else arg x 0, 0)))

/-- One lane of a compare: 0 equal, 1 unequal, 2 less, 3 less or equal (R214). -/
def compareLane (y : TileType) (fn a b : Nat) : Bool × FpFlags :=
  if intTypes.contains y then
    let u := signedOf y.bits a
    let v := signedOf y.bits b
    (match fn with
     | 0 => decide (u = v)
     | 1 => decide (u ≠ v)
     | 2 => decide (u < v)
     | _ => decide (u ≤ v), 0)
  else y.fmt.compare fn a b

/-- A mask from its bits. -/
def maskOf (bs : List Bool) : BitVec 256 := BitVec.ofNat 256 (packLanes 1 (bs.map Bool.toNat))

/-- The mask of the lanes below n. -/
def lowLanes (n : Nat) : BitVec 256 := BitVec.ofNat 256 (2 ^ n - 1)

/-- The body of the compares (R214): mode 0 replaces vm, 1 ands, 2 ors. -/
def State.vectorCompare (s : State) (t m : BitVec 2) (a b : BitVec 6) (fn : Nat) : Except Stop State := do
  need (wfCompareMode m) 0x02
  s.vector t.toNat allTypes []
  let y := s.cur.tile t.toNat
  let xs := lanesOf y.bits (s.readRow (rowNum t a) 0)
  let zs := lanesOf y.bits (s.readRow (rowNum t b) 1)
  let rs := (xs.zip zs).map (fun p => compareLane y fn p.1 p.2)
  let c := maskOf (rs.map Prod.fst)
  let v := s.cur.vm
  let vm := if m = 0 then c else if m = 1 then v &&& (c ||| ~~~lowLanes y.lanes) else v ||| c
  .ok ((((s.modCur (fun k => { k with vm := vm })).raiseFlags (rs.foldl (fun (f : FpFlags) r => f ||| r.2) 0)).drewRows t.toNat [rowNum t a, rowNum t b]).retire 2)

/-- VCEQ (R214). -/
def execVceq (t m : BitVec 2) (a b : BitVec 6) (s : State) : Host.Outcome State Fault Refusal := finish s (s.vectorCompare t m a b 0)
/-- VCNE (R214). -/
def execVcne (t m : BitVec 2) (a b : BitVec 6) (s : State) : Host.Outcome State Fault Refusal := finish s (s.vectorCompare t m a b 1)
/-- VCLT (R214). -/
def execVclt (t m : BitVec 2) (a b : BitVec 6) (s : State) : Host.Outcome State Fault Refusal := finish s (s.vectorCompare t m a b 2)
/-- VCLE (R214). -/
def execVcle (t m : BitVec 2) (a b : BitVec 6) (s : State) : Host.Outcome State Fault Refusal := finish s (s.vectorCompare t m a b 3)

/-- VSEL: every lane, from a where vm is set, else from b (R214). -/
def execVsel (t : BitVec 2) (d a b : BitVec 6) (s : State) : Host.Outcome State Fault Refusal :=
  finish s (do
    s.vector t.toNat allTypes []
    s.tileFree t.toNat
    let y := s.cur.tile t.toNat
    let ra := rowNum t a
    let rb := rowNum t b
    let v := mergeLanes s.cur.vm (lanesOf y.bits (s.cur.row rb)) (lanesOf y.bits (s.cur.row ra))
    .ok ((s.putRow (rowNum t d) (packLanes y.bits v) (s.rowSets [ra, rb])).retire 2))

/-- VMNOT (R214). It names no tile. -/
def execVmnot (s : State) : Host.Outcome State Fault Refusal :=
  finish s (do
    s.only [.ex]
    .ok ((s.modCur (fun c => { c with vm := ~~~c.vm })).retire 2))

/-- VMPOP (R214). -/
def execVmpop (t : BitVec 2) (d : BitVec 5) (s : State) : Host.Outcome State Fault Refusal :=
  finish s (do
    s.vector t.toNat allTypes [d.toNat]
    let n := (List.range (s.cur.tile t.toNat).lanes).countP (fun i => s.cur.vm.getLsbD i)
    .ok ((s.put d.toNat (BitVec.ofNat 64 n) 0).retire 2))

/-- Widens a value exactly to FP32 (R215); a NaN keeps its payload and whether it is signalling. -/
def widen (f : FloatFmt) (v : Nat) : Nat :=
  match f.read v with
  | .nan s fr => fp32.signed s (fp32.infBits + fr * 2 ^ (23 - f.fbits))
  | _ => (convertFp f fp32 .rne v).1

/-- The result of a special function on a tile (R215): a narrow one is rounded to nearest even, with its flags. -/
def narrow (y : TileType) (r : Nat × FpFlags) : Nat × FpFlags :=
  if y = .fp32 then r
  else
    let v := convertFp fp32 y.fmt .rne r.1
    (v.1, r.2 ||| v.2)

/-- The body of the special functions (R215). -/
def State.special (s : State) (t : BitVec 2) (d : BitVec 6) (rows : List (BitVec 6)) (f : TileType → List Nat → Nat × FpFlags) :
    Except Stop State :=
  s.lanewise floatTypes t d rows [] s.cur.vm (fun y x => f y (if y = .fp32 then x else x.map (widen y.fmt)))

/-- VEXP2 (R216). -/
def execVexp2 (t : BitVec 2) (d a : BitVec 6) (s : State) : Host.Outcome State Fault Refusal :=
  finish s (s.special t d [a] (fun y x => narrow y (exp2Approx (arg x 0))))
/-- VLOG2 (R216). -/
def execVlog2 (t : BitVec 2) (d a : BitVec 6) (s : State) : Host.Outcome State Fault Refusal :=
  finish s (s.special t d [a] (fun y x => narrow y (log2Approx (arg x 0))))
/-- VRCPA (R61). -/
def execVrcpa (t : BitVec 2) (d a : BitVec 6) (s : State) : Host.Outcome State Fault Refusal :=
  finish s (s.special t d [a] (fun y x => narrow y (rcpApprox (arg x 0))))
/-- VRSQA (R61). -/
def execVrsqa (t : BitVec 2) (d a : BitVec 6) (s : State) : Host.Outcome State Fault Refusal :=
  finish s (s.special t d [a] (fun y x => narrow y (rsqApprox (arg x 0))))
/-- VRCPR (R62). -/
def execVrcpr (t : BitVec 2) (d a b : BitVec 6) (s : State) : Host.Outcome State Fault Refusal :=
  finish s (s.special t d [a, b] (fun y x => narrow y (refine false (arg x 0) (arg x 1))))
/-- VRSQR (R62). -/
def execVrsqr (t : BitVec 2) (d a b : BitVec 6) (s : State) : Host.Outcome State Fault Refusal :=
  finish s (s.special t d [a, b] (fun y x => narrow y (refine true (arg x 0) (arg x 1))))
/-- VFLR: the largest integral value not above a (R217). -/
def execVflr (t : BitVec 2) (d a : BitVec 6) (s : State) : Host.Outcome State Fault Refusal :=
  finish s (s.special t d [a] (fun y x => narrow y (roundIntegral .rdn (arg x 0))))
/-- VRND: in the FPMODE direction (R217). -/
def execVrnd (t : BitVec 2) (d a : BitVec 6) (s : State) : Host.Outcome State Fault Refusal :=
  finish s (s.special t d [a] (fun y x => narrow y (roundIntegral s.rounding (arg x 0))))

/-- A fraction of the tile type that rounds to 1.0 is the largest value below (R217). -/
def belowOne (y : TileType) (r : Nat × FpFlags) : Nat × FpFlags := if r.1 = y.fmt.one then (r.1 - 1, r.2) else r

/-- VFRC (R217). -/
def execVfrc (t : BitVec 2) (d a : BitVec 6) (s : State) : Host.Outcome State Fault Refusal :=
  finish s (s.special t d [a] (fun y x => belowOne y (narrow y (fraction s.rounding (arg x 0)))))

/-- One level of a reduction tree: node j combines nodes 2j and 2j + 1; one present child passes through (R218). -/
def treeLevel {α : Type} (f : α → α → α × FpFlags) : List (Option α) → List (Option α) × FpFlags
  | some x :: some y :: r =>
    let (z, g) := f x y
    let (zs, h) := treeLevel f r
    (some z :: zs, g ||| h)
  | some x :: none :: r =>
    let (zs, h) := treeLevel f r
    (some x :: zs, h)
  | none :: y :: r =>
    let (zs, h) := treeLevel f r
    (y :: zs, h)
  | [x] => ([x], 0)
  | [] => ([], 0)

/-- A tree of k levels, with the flags of all its nodes. -/
def tree {α : Type} (f : α → α → α × FpFlags) : Nat → List (Option α) → Option α × FpFlags
  | 0, xs => ((xs.head?).bind id, 0)
  | k + 1, xs =>
    let (ys, g) := treeLevel f xs
    let (r, h) := tree f k ys
    (r, g ||| h)

/-- Levels of a tree over the lanes of a type. -/
def TileType.levels (y : TileType) : Nat := Nat.log2 y.lanes

/-- The body of the reductions (R218): lane 0 of d gets the root; with no active lane d is unchanged. -/
def State.reduceRow (s : State) (t : BitVec 2) (d a : BitVec 6) (f : TileType → Nat → Nat → Nat × FpFlags) : Except Stop State := do
  s.vector t.toNat treeTypes []
  s.tileFree t.toNat
  let y := s.cur.tile t.toNat
  let leaves := (lanesOf y.bits (s.cur.row (rowNum t a))).zipIdx.map (fun p => if s.cur.vm.getLsbD p.2 then some p.1 else none)
  match tree (f y) y.levels leaves with
  | (none, _) => .ok (s.retire 2)
  | (some v, g) =>
    let r := rowNum t d
    let x := mergeLanes 1 (lanesOf y.bits (s.cur.row r)) (v :: List.replicate (y.lanes - 1) 0)
    .ok (((s.putRow r (packLanes y.bits x) (s.rowSets [rowNum t a])).raiseFlags g).retire 2)

/-- VRSUM (R218). -/
def execVrsum (t : BitVec 2) (d a : BitVec 6) (s : State) : Host.Outcome State Fault Refusal :=
  finish s (s.reduceRow t d a (fun y u v => if y = .int32 then wrapLane 32 (u + v) else y.fmt.add s.rounding u v))
/-- VRMAX (R218). -/
def execVrmax (t : BitVec 2) (d a : BitVec 6) (s : State) : Host.Outcome State Fault Refusal :=
  finish s (s.reduceRow t d a (fun y u v =>
    if y = .int32 then (if signedOf 32 u < signedOf 32 v then v else u, 0) else y.fmt.minMax true u v))
/-- VRMIN (R218). -/
def execVrmin (t : BitVec 2) (d a : BitVec 6) (s : State) : Host.Outcome State Fault Refusal :=
  finish s (s.reduceRow t d a (fun y u v =>
    if y = .int32 then (if signedOf 32 v < signedOf 32 u then v else u, 0) else y.fmt.minMax false u v))

/-- The triple in lanes 0 to 2 of a row (R63). -/
def tripleOf (ls : List Nat) : Triple := ⟨ls.getD 0 0, ls.getD 1 0, ls.getD 2 0⟩

/-- Writes a triple to lanes 0 to 2 of row d, not masked (R63, R64). -/
def State.putTriple (s : State) (t : BitVec 2) (d a : BitVec 6) (x : Triple × FpFlags) : State :=
  let r := rowNum t d
  let old := lanesOf 32 (s.cur.row r)
  ((s.putRow r (packLanes 32 ([x.1.n, x.1.mean, x.1.m2] ++ old.drop 3)) (s.rowSets [rowNum t a])).raiseFlags x.2).retire 2

/-- VWELF (R64). -/
def execVwelf (t : BitVec 2) (d a : BitVec 6) (s : State) : Host.Outcome State Fault Refusal :=
  finish s (do
    s.vector t.toNat [.fp32] []
    s.tileFree t.toNat
    let leaves := (lanesOf 32 (s.cur.row (rowNum t a))).zipIdx.map (fun p =>
      some (if s.cur.vm.getLsbD p.2 then (⟨fp32.one, p.1, 0⟩ : Triple) else ⟨0, 0, 0⟩))
    let (root, f) := tree Triple.merge 6 leaves
    let (x, g) := (tripleOf (lanesOf 32 (s.cur.row (rowNum t d)))).merge (root.getD ⟨0, 0, 0⟩)
    .ok (s.putTriple t d a (x, f ||| g)))
/-- VWMRG (R63). -/
def execVwmrg (t : BitVec 2) (d a : BitVec 6) (s : State) : Host.Outcome State Fault Refusal :=
  finish s (do
    s.vector t.toNat [.fp32] []
    s.tileFree t.toNat
    .ok (s.putTriple t d a ((tripleOf (lanesOf 32 (s.cur.row (rowNum t d)))).merge (tripleOf (lanesOf 32 (s.cur.row (rowNum t a)))))))

/-- The body of the permutations: lane i of d gets lane `pick i` of a, raw (R218). -/
def State.permute (s : State) (t : BitVec 2) (d a : BitVec 6) (rows : List (BitVec 6)) (scal : List Nat)
    (pick : List (List Nat) → Nat → Nat → Nat) : Except Stop State := do
  s.vector t.toNat allTypes scal
  s.tileFree t.toNat
  let y := s.cur.tile t.toNat
  let sv ← (match scal with
    | [] => .ok ((0 : Word), (0 : Taint))
    | r :: _ => s.src r)
  let xs := lanesOf y.bits (s.cur.row (rowNum t a))
  let others := rows.map (fun r => lanesOf y.bits (s.cur.row (rowNum t r)))
  let out := (List.range y.lanes).map (fun i => xs.getD (pick others sv.1.toNat i % y.lanes) 0)
  let v := packLanes y.bits (mergeLanes s.cur.vm (lanesOf y.bits (s.cur.row (rowNum t d))) out)
  .ok (((s.pop scal).putRow (rowNum t d) v (s.rowSets ((a :: rows).map (rowNum t)) ||| sv.2)).retire 2)

/-- VSHF (R218). -/
def execVshf (t : BitVec 2) (d a b : BitVec 6) (s : State) : Host.Outcome State Fault Refusal :=
  finish s (s.permute t d a [b] [] (fun ls _ i => (ls.headD []).getD i 0))
/-- VROT (R218). -/
def execVrot (t : BitVec 2) (d a : BitVec 6) (b : BitVec 5) (s : State) : Host.Outcome State Fault Refusal :=
  finish s (s.permute t d a [] [b.toNat] (fun _ v i => i + v))
/-- VBCST (R218). -/
def execVbcst (t : BitVec 2) (d a : BitVec 6) (b : BitVec 5) (s : State) : Host.Outcome State Fault Refusal :=
  finish s (s.permute t d a [] [b.toNat] (fun _ v _ => v))

/-- One lane converted between tile types (R219, Table 3-6). -/
def convertLane (rm : Rounding) (x y : TileType) (v : Nat) : Nat × FpFlags :=
  match floatTypes.contains x, floatTypes.contains y with
  | true, true => convertFp x.fmt y.fmt rm v
  | true, false => convertToInt x.fmt y.bits rm v
  | false, true => convertFromInt x.bits y.fmt rm v
  | false, false => (convertInt x.bits y.bits v, 0)

/-- VCVT (R219). -/
def execVcvt (t : BitVec 2) (d a : BitVec 6) (p : BitVec 2) (k : BitVec 3) (s : State) : Host.Outcome State Fault Refusal :=
  finish s (do
    need (wfVcvtType k) 0x02
    s.vector t.toNat allTypes []
    let y := s.cur.tile t.toNat
    let x := TileType.ofCode k.toNat
    let m := x.lanes
    let n := y.lanes
    need (x != y && decide (p.toNat < max (m / n) (n / m))) 0x02
    s.tileFree t.toNat
    let src := lanesOf x.bits (s.cur.row (rowNum t a))
    let vm := s.cur.vm
    let conv := fun (i : Nat) => convertLane s.rounding x y (src.getD i 0)
    -- the source lane of a destination lane, where it has one
    let from' := fun (i : Nat) => if n ≤ m then some (i + p.toNat * n)
      else if p.toNat * m ≤ i ∧ i < (p.toNat + 1) * m then some (i - p.toNat * m) else none
    let old := lanesOf y.bits (s.cur.row (rowNum t d))
    let out := old.zipIdx.map (fun q => match from' q.2 with
      | some j => if vm.getLsbD q.2 then conv j else (q.1, 0)
      | none => (q.1, 0))
    .ok (((s.putRow (rowNum t d) (packLanes y.bits (out.map Prod.fst)) (s.rowSets [rowNum t a])).raiseFlags
      (out.foldl (fun (f : FpFlags) r => f ||| r.2) 0)).retire 2))

/-- What VKENC and VKDEC check beyond the tile: half 0 on an FP32 tile (R220). -/
def State.packedChecks (s : State) (t f : BitVec 2) (h : BitVec 1) : Except Stop Unit := do
  need (wfKbfSel f) 0x02
  s.vector t.toNat floatTypes []
  need (h == 0 || s.cur.tile t.toNat != .fp32) 0x02
  s.tileFree t.toNat

/-- VKENC (R220). -/
def execVkenc (t : BitVec 2) (d a : BitVec 6) (h : BitVec 1) (f : BitVec 2) (s : State) : Host.Outcome State Fault Refusal :=
  finish s (do
    s.packedChecks t f h
    let y := s.cur.tile t.toNat
    let k := f.toNat
    let xs := (lanesOf y.bits (s.cur.row (rowNum t a))).drop (64 * h.toNat)
    let (b0, f0) := kbfEncode k y.fmt (xs.take 32)
    let (b1, f1) := kbfEncode k y.fmt ((xs.drop 32).take 32)
    let bytes := kbfPack k b0.elems ++ kbfPack k b1.elems ++ [b0.e0, b0.e1, b1.e0, b1.e1].map (BitVec.ofNat 8)
    let r := rowNum t d
    let n := bytes.length
    let v := (s.cur.row r).toNat / 2 ^ (8 * n) * 2 ^ (8 * n) + numOf bytes
    .ok (((s.putRow r v (s.rowSets [rowNum t a])).raiseFlags (f0 ||| f1)).retire 2))
/-- VKDEC (R220). -/
def execVkdec (t : BitVec 2) (d a : BitVec 6) (h : BitVec 1) (f : BitVec 2) (s : State) : Host.Outcome State Fault Refusal :=
  finish s (do
    s.packedChecks t f h
    let y := s.cur.tile t.toNat
    let k := f.toNat
    let bytes := bytesOf 256 (s.cur.row (rowNum t a)).toNat
    let n := kbfBytes k
    let at' := fun (i : Nat) => (bytes.getD i 0).toNat
    let b0 := kbfBlock k (bytes.take n) (at' (2 * n)) (at' (2 * n + 1))
    let b1 := kbfBlock k ((bytes.drop n).take n) (at' (2 * n + 2)) (at' (2 * n + 3))
    let old := lanesOf y.bits (s.cur.row (rowNum t d))
    let out := old.zipIdx.map (fun q =>
      let j := q.2 - 64 * h.toNat
      if 64 * h.toNat ≤ q.2 ∧ j < 64 ∧ s.cur.vm.getLsbD q.2 then
        kbfDecode k (if j < 32 then b0 else b1) (j % 32) y.fmt s.rounding
      else (q.1, 0))
    .ok (((s.putRow (rowNum t d) (packLanes y.bits (out.map Prod.fst)) (s.rowSets [rowNum t a])).raiseFlags
      (out.foldl (fun (f : FpFlags) r => f ||| r.2) 0)).retire 2))

/-- The active lanes of a tile type with the element of memory that each takes (Table 11-13): lane i takes element i, or
the j-th active lane element j where they are compact. -/
def activeLanes (y : TileType) (vm : BitVec 256) (compact : Bool) : List (Nat × Nat) :=
  let ls := (List.range y.lanes).filter (fun i => vm.getLsbD i)
  if compact then ls.zipIdx else ls.map (fun i => (i, i))

/-- The checks and places of VMEM (R222): the bounds and the translation are over the bytes touched, and with no active
lane only the handle and the offset are checked. Gives the places of each active lane. -/
def State.vectorReach (s : State) (hv : BitVec 256) (right : BitVec 8) (off z : Nat) (ls : List (Nat × Nat)) (acc : Acc) :
    Except Stop (State × List (Nat × List Loc)) :=
  match ls.map Prod.snd with
  | [] =>
    match s.handleCause s.who.tenant hv right with
    | some c => .error (.trap c)
    | none => do
      need (off % z == 0) 0x43
      need (decide (off < 2 ^ 41)) 0x73
      .ok (s, [])
  | e :: es => do
    let lo := e * z
    let hi := (es.getLastD e + 1) * z
    let (s1, locs) ← s.reach hv right (off + lo) (hi - lo) z acc
    .ok (s1, ls.map (fun p => (p.1, (locs.drop (p.2 * z - lo)).take z)))

/-- The body of VLD and VLDC (R222, R223): the row is read before ex goes on, after its own earlier stores to the same
bytes, with an empty taint set. -/
def State.vectorLoad (s : State) (t : BitVec 2) (d : BitVec 6) (h r : BitVec 5) (compact : Bool) : Except Stop State := do
  s.vector t.toNat allTypes [r.toNat]
  let hv ← s.handleReg h.toNat
  s.tileFree t.toNat
  let (off, ot) ← s.offset r.toNat 0
  let y := s.cur.tile t.toNat
  let z := y.bits / 8
  let (s1, ls) ← s.vectorReach hv rightR off z (activeLanes y s.cur.vm compact) .read
  let all := ls.flatMap Prod.snd
  s.after ot
  if s.cur.stores.any (fun x => x.sq == s.curSq && overlap x.locs all) then .error .stall else .ok ()
  let _ ← s1.readNow all
  let old := lanesOf y.bits (s1.cur.row (rowNum t d))
  let out := old.zipIdx.map (fun q => match ls.find? (fun p => p.1 == q.2) with
    | some p => numOf (s1.readLocs p.2)
    | none => q.1)
  let s2 := (((s1.saw all).sawRows all).pop [r.toNat]).modCur (fun c =>
    (c.setRow (rowNum t d) (BitVec.ofNat 2048 (packLanes y.bits out))).setRowSet (rowNum t d) 0)
  .ok (s2.retire 2)

/-- The body of VST and VSTC (R222, R223): a plain store in the order of ex, after the loads named in the sets of the
offset, the row and the control taint. -/
def State.vectorStore (s : State) (t : BitVec 2) (d : BitVec 6) (h r : BitVec 5) (compact : Bool) : Except Stop State := do
  s.vector t.toNat allTypes [r.toNat]
  let hv ← s.handleReg h.toNat
  let (off, ot) ← s.offset r.toNat 0
  let y := s.cur.tile t.toNat
  let z := y.bits / 8
  let (s1, ls) ← s.vectorReach hv rightW off z (activeLanes y s.cur.vm compact) .write
  let xs := lanesOf y.bits (s.readRow (rowNum t d) 0)
  let data := ls.flatMap (fun p => bytesOf z (xs.getD p.1 0))
  let s2 ← (if ls.isEmpty then .ok s1 else
    s1.issueStore (ls.flatMap Prod.snd) (.plain data) (s.cur.loadsOf (ot ||| s.cur.rowSet (rowNum t d) ||| s.seq.ctlTaint)))
  .ok (((s2.pop [r.toNat]).drewRows t.toNat [rowNum t d]).retire 2)

/-- VLD (R222). -/
def execVld (t : BitVec 2) (d : BitVec 6) (h r : BitVec 5) (s : State) : Host.Outcome State Fault Refusal := finish s (s.vectorLoad t d h r false)
/-- VST (R222). -/
def execVst (t : BitVec 2) (d : BitVec 6) (h r : BitVec 5) (s : State) : Host.Outcome State Fault Refusal := finish s (s.vectorStore t d h r false)
/-- VLDC (R222). -/
def execVldc (t : BitVec 2) (d : BitVec 6) (h r : BitVec 5) (s : State) : Host.Outcome State Fault Refusal := finish s (s.vectorLoad t d h r true)
/-- VSTC (R222). -/
def execVstc (t : BitVec 2) (d : BitVec 6) (h r : BitVec 5) (s : State) : Host.Outcome State Fault Refusal := finish s (s.vectorStore t d h r true)

/-- ACLR (R224): rows d to d + c are zero, with empty sets. -/
def execAclr (t : BitVec 2) (d c : BitVec 6) (s : State) : Host.Outcome State Fault Refusal :=
  finish s (do
    need (wfClearRows d c) 0x02
    s.vector t.toNat allTypes []
    s.tileFree t.toNat
    let rows := (List.range (c.toNat + 1)).map (fun i => rowNum t d + i)
    .ok (((s.carry s.curCore s.curSq).modCur (fun k => rows.foldl (fun (k : Core) r => (k.setRow r 0).setRowSet r 0) k)).retire 2))
/-- AFMT (R224, R190): the bits stay. -/
def execAfmt (t : BitVec 2) (y : BitVec 6) (s : State) : Host.Outcome State Fault Refusal :=
  finish s (do
    need (wfTileType y) 0x02
    s.vector t.toNat allTypes []
    s.tileFree t.toNat
    .ok ((s.modCur (fun c => { c with tileType := c.tileType.setIfInBounds t.toNat (TileType.ofCode y.toNat) })).retire 2))
/-- AMOV (R224): a row of any tile, with its set. -/
def execAmov (t : BitVec 2) (d a : BitVec 6) (u : BitVec 2) (s : State) : Host.Outcome State Fault Refusal :=
  finish s (do
    s.vector t.toNat allTypes []
    need (decide (u.toNat < s.cur.decl.tiles)) 0x22
    s.tileQuiet u.toNat
    s.tileFree t.toNat
    let r := rowNum u a
    let v := s.readRow r 0
    .ok (((s.modCur (fun c => (c.setRow (rowNum t d) v).setRowSet (rowNum t d) (c.rowSet r))).drewRows u.toNat [r]).retire 2))
/-- AXPOSE (R224). -/
def execAxpose (t : BitVec 2) (s : State) : Host.Outcome State Fault Refusal :=
  finish s (do
    s.vector t.toNat [.fp32, .int32] []
    s.tileFree t.toNat
    let rows := (List.range 64).map (fun i => 64 * t.toNat + i)
    let m := rows.map (fun r => lanesOf 32 (s.cur.row r))
    let u := s.rowSets rows
    .ok (((s.carry s.curCore s.curSq).modCur (fun c => rows.zipIdx.foldl (fun (k : Core) p =>
      (k.setRow p.1 (BitVec.ofNat 2048 (packLanes 32 (m.map (fun l => l.getD p.2 0))))).setRowSet p.1 u) c)).retire 2))
/-- AWAIT (R224): the join of the operations that name the tile. -/
def execAwait (t : BitVec 2) (s : State) : Host.Outcome State Fault Refusal :=
  finish s (do
    s.vector t.toNat allTypes []
    if s.cur.tileBusy t.toNat then .error (.wait .engine) else .ok (s.retire 2))

end Sys2Proof.Machine
end

