-- ==== Sys2Proof/Machine/Matrix.lean ====
section
/-!
DEFINITION. The matrix engine (R195 to R211): its registers, the checks of MXGO and WLD, weight blocks, row-steps,
broadcast rendezvous, and the mask registers.
-/
namespace Sys2Proof.Machine

/-- The registers of Table 11-2. -/
abbrev MxRegs := Vector Word 36

/-- A register of Table 11-2. -/
def mxReg (r : MxRegs) (i : Nat) : Word := r[i]?.getD 0

/-- The iteration counts, level 0 first; 0 reads as 1. -/
def mxCounts (r : MxRegs) : List Nat := (List.range 6).map (fun l => let c := (mxReg r (4 * l)).toNat % 2 ^ 32; if c = 0 then 1 else c)

/-- The strides of an operand: 1 A, 2 B, 3 C. -/
def mxStrides (r : MxRegs) (k : Nat) : List Int := (List.range 6).map (fun l => (mxReg r (4 * l + k)).toInt)

/-- Row-steps of the nest. -/
def mxTotal (r : MxRegs) : Nat := product (mxCounts r)

/-- The value at row-step j of a base that moves with the strides of an operand (R198). -/
def mxAt (r : MxRegs) (base k j : Nat) : Int := ((mxReg r base).toNat : Int) + strideSum (coords (mxCounts r) j) (mxStrides r k)

/-- Row of C, offset of the A row and offset of the weight block at row-step j (R198). -/
def mxRow (r : MxRegs) (j : Nat) : Int := mxAt r 0x1D 3 j
def mxAoff (r : MxRegs) (j : Nat) : Int := mxAt r 0x19 1 j
def mxBoff (r : MxRegs) (j : Nat) : Int := mxAt r 0x1B 2 j

/-- No reserved bit of a register is set, and the nest has at most 2^40 row-steps (R200, step 1). -/
def mxRegsGood (r : MxRegs) : Bool :=
  let below := fun (i n : Nat) => decide ((mxReg r i).toNat < 2 ^ n)
  let ext := fun (i n : Nat) => (mxReg r i) == ((mxReg r i).setWidth n).signExtend 64
  (List.range 6).all (fun l => below (4 * l) 32 && ext (4 * l + 1) 48 && ext (4 * l + 2) 48 && ext (4 * l + 3) 16)
    && below 0x18 5 && below 0x19 41 && below 0x1A 5 && below 0x1B 41 && below 0x1C 2 && below 0x1D 6 && below 0x1E 6
    && below 0x1F 6 && below 0x20 4 && below 0x21 4 && below 0x22 1 && below 0x23 16 && decide (mxTotal r ≤ 2 ^ 40)

/-- K of a format pair (Table 11-3). -/
def mxK (a b : Nat) : Option Nat :=
  match a, b with
  | 6, 6 => some 64 | 5, 5 => some 64 | 6, 9 => some 64 | 9, 9 => some 256 | 1, 1 => some 256 | 9, 8 => some 256
  | 8, 8 => some 512 | _, _ => none

/-- The A format that a WLD takes for a B format whose pair with FMTA is none of Table 11-3. -/
def mxPartner (b : Nat) : Option Nat :=
  match b with
  | 6 => some 6 | 5 => some 5 | 9 => some 6 | 1 => some 1 | 8 => some 9 | _ => none

/-- Bits of an element of a format of Table 11-3. -/
def mxBits (c : Nat) : Nat := match c with | 5 => 16 | 6 => 16 | 8 => 4 | _ => 8

/-- Bytes of k elements of a format. -/
def mxBytes (c k : Nat) : Nat := k * mxBits c / 8

/-- An operand as the side of a copy, whose elements are rows or weight blocks of n bytes (R200, step 8). -/
def mxSide (r : MxRegs) (h : BitVec 256) (base k code n : Nat) : Side :=
  ⟨h, (mxReg r base).toNat, mxStrides r k, code, n, none, false, none⟩

/-- The handle check of an operand (R200, step 6). -/
def State.mxHandle (s : State) (r : MxRegs) (x : Side) : Option Cause :=
  let (lo, hi) := x.box (mxCounts r)
  s.handleCause s.who.tenant x.h (if needM s.curCore x.h lo.toNat (hi - lo + 1).toNat then rightR ||| rightM else rightR)

/-- The alignment of an operand (R200, step 7; R51). -/
def Side.mxAligned (x : Side) : Option Cause :=
  let unit := if (kbfOf x.code).isSome then codeBytes x.code else mxBits x.code / 8
  if ((kbfOf x.code).isNone || hLen x.h % (codeBytes x.code + 2) == 0) && (x.off :: x.strides).all (fun v => v % unit == 0)
  then none else some 0x43

/-- The bounds of an operand: where its elements lie within, so do its headers (R200, step 8; R51). -/
def Side.mxBounds (r : MxRegs) (x : Side) : Option Cause :=
  let (lo, hi) := x.box (mxCounts r)
  let limit := if (kbfOf x.code).isSome then hLen x.h / (codeBytes x.code + 2) * codeBytes x.code else hLen x.h
  if 0 ≤ lo ∧ hi < (limit : Int) then none else some 0x73

/-- Steps 6 to 8 of R200 for operands. -/
def State.mxOperands (s : State) (r : MxRegs) (xs : List Side) : Except Stop Unit :=
  match firstCause (s.mxHandle r) xs, firstCause Side.mxAligned xs, firstCause (Side.mxBounds r) xs,
      firstCause (fun (x : Side) => s.sideCause x (mxCounts r)) xs with
  | some c, _, _, _ => .error (.trap c)
  | none, some c, _, _ => .error (.trap c)
  | none, none, some c, _ => .error (.trap c)
  | none, none, none, some c => .error (.trap c)
  | none, none, none, none => .ok ()

/-- A mask that a register of Table 11-2 enables. -/
def Core.mxMask (c : Core) (v : Word) : Option Word := if v.getLsbD 3 then some (c.kmask[v.toNat % 8]?.getD 0) else none

/-- A member set that is valid for a member of a gang (R202). -/
def goodMembers (b member size : Nat) : Bool :=
  b.testBit member && decide (2 ≤ (List.range 16).countP (fun i => b.testBit i)) && decide (b < 2 ^ size)

/-- Every row of C that the nest can reach lies in the tile (R200, step 4). -/
def mxRowsFit (r : MxRegs) : Bool :=
  let (lo, hi) := (⟨0, (mxReg r 0x1D).toNat, mxStrides r 3, 0, 1, none, false, none⟩ : Side).box (mxCounts r)
  decide (0 ≤ lo) && decide (hi ≤ 63)

/-- The formats after codes 0 are taken from the handles. -/
def mxFormats (r : MxRegs) (ah bh : BitVec 256) : Nat × Nat :=
  let pick := fun (i : Nat) (h : BitVec 256) => if mxReg r i = 0 then hFmt h else (mxReg r i).toNat
  (pick 0x1E ah, pick 0x1F bh)

/-- A row of C is active at row-step j (R198). -/
def MeOp.rowActive (o : MeOp) (j : Nat) : Bool :=
  match o.rowMask with
  | none => true
  | some m => m.getLsbD (mxRow o.regs j).toNat

/-- The first active row-step from j on, among n, whose weight block has a property, with the block's offset. -/
def MeOp.scan (o : MeOp) (p : Int → Bool) : Nat → Nat → Option (Nat × Int)
  | 0, _ => none
  | n + 1, j => if o.rowActive j && p (mxBoff o.regs j) then some (j, mxBoff o.regs j) else MeOp.scan o p n (j + 1)

/-- K of an operation. -/
def MeOp.k (o : MeOp) : Nat := (mxK o.fmtA o.fmtB).getD 64

/-- The offset of an operation's first weight block (R210). -/
def MeOp.firstBlock (o : MeOp) : Int := ((o.scan (fun _ => true) (mxTotal o.regs) 0).map Prod.snd).getD ((mxReg o.regs 0x1B).toNat)

/-- The weight block is one that an operation uses (R198, R199). -/
def WeightBlock.fits (w : WeightBlock) (o : MeOp) (off : Int) : Bool :=
  w.offset == off && hSerial w.handle == hSerial o.bh && w.fmt == o.fmtB && w.colBytes == mxBytes o.fmtB o.k

/-- The loads that the recorded sets of the shadow registers name (R203). -/
def Me.shadowSets (m : Me) : Taint := m.shadowTaint.toList.foldl (fun (a : Taint) t => a ||| t) 0

/-- MXGO (R195, R200): with the pending set empty, the checks in order; then the operation is pending. -/
def execMxgo (s : State) : Host.Outcome State Fault Refusal :=
  finish s (do
    s.only [.ex]
    let c := s.cur
    let r := c.me.shadow
    if c.me.pendingOp.isSome then .error (.wait .engine) else .ok ()
    need (mxRegsGood r) 0x02
    let ct := (mxReg r 0x1C).toNat
    need (decide (ct < c.decl.tiles)) 0x22
    let ah ← s.handleReg (mxReg r 0x18).toNat
    let bh ← s.handleReg (mxReg r 0x1A).toNat
    let (fa, fb) := mxFormats r ah bh
    match mxK fa fb with
    | none => .error (.trap 0x02)
    | some k => do
      need (c.tile ct == (if fa = 1 then TileType.int32 else TileType.fp32)) 0x02
      need (mxRowsFit r) 0x02
      let b := (mxReg r 0x23).toNat
      need (b == 0 || goodMembers b ((c.task.map Task.member).getD 0) ((c.task.map Task.gangSize).getD 1)) 0x02
      s.mxOperands r [mxSide r ah 0x19 1 fa (mxBytes fa k), mxSide r bh 0x1B 2 fb (64 * mxBytes fb k)]
      let n := Store.getD c.me.bcasts b 0
      let o : MeOp := {
        regs := r, rowMask := c.mxMask (mxReg r 0x20), colMask := c.mxMask (mxReg r 0x21), ah := ah, bh := bh, fmtA := fa, fmtB := fb,
        prog := 0, written := [], earlier := [], found := [], loadDeps := c.loadsOf (c.me.shadowSets ||| s.seq.ctlTaint),
        storeDeps := (c.stores.filter (fun x => x.sq == s.curSq)).map StoreReq.id,
        bcast := if b = 0 then none else some n, met := false, again := false, fault := none }
      let keep := if b = 0 then c.me.preloads.find? (fun w => w.fits o o.firstBlock) else none
      let bs := if b = 0 then c.me.bcasts else Store.put b (n + 1) c.me.bcasts
      .ok (((s.fork s.curCore s.curSq).modCur (fun c => { c with me := { c.me with pendingOp := some o, preloads := [], taken := keep, bcasts := bs } })).retire 2))

/-- The active operation uses no weight block but the one it has latched (R199). -/
def Me.lastLatched (m : Me) (o : MeOp) : Bool :=
  match m.latched with
  | none => (o.scan (fun _ => true) (mxTotal o.regs - o.prog) o.prog).isNone
  | some w => (o.scan (fun b => !w.fits o b) (mxTotal o.regs - o.prog) o.prog).isNone

/-- The preloads that hold a weight buffer: those of a later MXGO, and the one that the pending operation has taken (R199). -/
def Me.preloaded (m : Me) : Nat := m.preloads.length + m.taken.toList.length

/-- A weight buffer is free for a preload (R199, R210): of the two, preloads hold some, and a running operation holds the one that
serves it, and the other too until it has latched its last block. -/
def Me.bufferFree (m : Me) : Bool :=
  match m.active with
  | none => decide (m.preloaded < 2)
  | some o => m.lastLatched o && (o.bcast.isNone || o.met) && decide (m.preloaded < 1)

/-- WLD (R210): the checks that concern B, then it takes the free buffer; the block is read from then on, after what an MXGO's
reads would follow (R203, R231). -/
def execWld (s : State) : Host.Outcome State Fault Refusal :=
  finish s (do
    s.only [.ex]
    let c := s.cur
    let r := c.me.shadow
    if mxReg r 0x23 != 0 then .ok (s.retire 2)
    else do
      need (mxRegsGood r) 0x02
      let bh ← s.handleReg (mxReg r 0x1A).toNat
      let ah := c.handles[(mxReg r 0x18).toNat]?.getD 0
      let (fa0, fb) := mxFormats r ah bh
      match mxPartner fb with
      | none => .error (.trap 0x02)
      | some p => do
        let fa := if (mxK fa0 fb).isSome then fa0 else p
        let n := mxBytes fb ((mxK fa fb).getD 64)
        s.mxOperands r [mxSide r bh 0x1B 2 fb (64 * n)]
        if !c.me.bufferFree then .error (.wait .engine) else .ok ()
        let o : MeOp := {
          regs := r, rowMask := c.mxMask (mxReg r 0x20), colMask := none, ah := ah, bh := bh, fmtA := fa, fmtB := fb,
          prog := 0, written := [], earlier := [], found := [], loadDeps := [], storeDeps := [], bcast := none, met := false, again := false, fault := none }
        let w : WeightBlock := ⟨bh, o.firstBlock, fb, n, [], [], c.loadsOf (c.me.shadowSets ||| s.seq.ctlTaint),
          (c.stores.filter (fun x => x.sq == s.curSq)).map StoreReq.id⟩
        .ok (((s.fork s.curCore s.curSq).modCur (fun c => { c with me := { c.me with preloads := c.me.preloads ++ [w] } })).retire 2))

/-- MXSET (R208). -/
def execMxset (a : BitVec 5) (r : BitVec 11) (s : State) : Host.Outcome State Fault Refusal :=
  finish s (do
    need (wfMxSet r) 0x02
    s.only [.ex]
    s.scalars [a.toNat]
    let x ← s.src a.toNat
    .ok (((s.pop [a.toNat]).modCur (fun c => { c with me := { c.me with
      shadow := c.me.shadow.setIfInBounds r.toNat x.1, shadowTaint := c.me.shadowTaint.setIfInBounds r.toNat x.2 } })).retire 2))

/-- MXGET (R208). -/
def execMxget (a : BitVec 5) (r : BitVec 11) (s : State) : Host.Outcome State Fault Refusal :=
  finish s (do
    need (wfMxGet r) 0x02
    s.only [.ex]
    s.report a.toNat (if r = 0x024 then BitVec.ofNat 64 (s.cur.me.active.elim 0 MeOp.prog) else mxReg s.cur.me.shadow r.toNat))

/-- MXWAIT (R208): the join of every operation issued before it. -/
def execMxwait (s : State) : Host.Outcome State Fault Refusal :=
  finish s (do
    s.only [.ex]
    if s.cur.me.active.isSome || s.cur.me.pendingOp.isSome then .error (.wait .engine) else .ok (s.retire 2))

/-- An operation waits at a broadcast rendezvous (R201). -/
def MeOp.meeting (o : MeOp) : Bool := o.bcast.isSome && !o.met

/-- The status word of Table 11-6. -/
def Me.status (m : Me) : Nat :=
  let low := (if m.pendingOp.isSome then 2 ^ 40 else 0)
  match m.active with
  | none => low
  | some o => low + o.prog % 2 ^ 40 + (match o.fault with
      | some (_, c) => c.toNat * 2 ^ 56 + 2 * 2 ^ 52
      | none => (if o.meeting then 3 else 1) * 2 ^ 52)

/-- A cycle ends: the core keeps what instructions of the next read as it now stands (R8, R124, R128, R208). -/
def Core.tick (c : Core) : Core := { c with was := ⟨c.tokens, c.rills, c.handles, BitVec.ofNat 64 c.me.status⟩, freed := [] }

/-- MXPROG: the word as at the end of the previous cycle (R208). -/
def execMxprog (a : BitVec 5) (s : State) : Host.Outcome State Fault Refusal :=
  finish s (do
    s.only [.ex]
    s.report a.toNat s.cur.was.mx)

/-- The member set and number of an operation that waits at a rendezvous. -/
def MeOp.place (o : MeOp) : Option (Nat × Nat) := if o.met then none else o.bcast.map (fun n => ((mxReg o.regs 0x23).toNat, n))

/-- Changes the matrix engine of a core. -/
def State.modMe (s : State) (n : Nat) (f : Me → Me) : State := s.modCore n (fun c => { c with me := f c.me })

/-- Something of a core has come about: the watchdog counts from here (R39). -/
def State.progress (s : State) (n : Nat) : State := s.modCore n (fun c => { c with lastActive := s.cycle })

/-- A core's operation of a broken rendezvous completes at once, and its ex traps with 0x02 at its next boundary
(R202). -/
def State.breakOp (s : State) (n : Nat) (place : Nat × Nat) : State :=
  let m := (s.core n).me
  let hit := fun (o : Option MeOp) => o.bind MeOp.place == some place
  if hit m.active || hit m.pendingOp then
    ((s.modMe n (fun m => { m with active := if hit m.active then none else m.active,
                                   pendingOp := if hit m.pendingOp then none else m.pendingOp })).progress n).raiseLate n .ex 0x02
  else s

/-- Operations have left the rendezvous at which they waited: it is broken for the other members (R209). -/
def State.breakMeeting (s : State) (g : Nat) : List (Nat × Nat) → State
  | [] => s
  | p :: ps =>
    match Store.find? s.gangs g with
    | none => s
    | some x =>
      let s1 := { s with gangs := Store.put g { x with broken := p :: x.broken } s.gangs }
      State.breakMeeting (x.cores.foldl (fun (t : State) n => t.breakOp n p) s1) g ps

/-- Every operation of a core's engine is aborted at a row-step boundary (R209): committed row-steps stay, a fault that
halted it is gone, and a rendezvous it waited at is broken. -/
def State.abortMe (s : State) (n : Nat) (which : MeOp → Bool) : State :=
  let c := s.core n
  let out := fun (o : Option MeOp) => o.bind (fun x => if which x then some x else none)
  let gone := ((out c.me.active).toList ++ (out c.me.pendingOp).toList)
  let stay := fun (o : Option MeOp) => o.bind (fun x => if which x then none else some x)
  let s1 := (s.modMe n (fun m => { m with active := stay m.active, pendingOp := stay m.pendingOp,
                                          taken := if (out m.pendingOp).isSome then none else m.taken })).progress n
  let s2 := if (out c.me.active).isSome then { s1 with faults := s1.faults.filter (fun f => f.unit != FaultUnit.me n) } else s1
  s2.breakMeeting ((c.task.map Task.gang).getD 0) (gone.filterMap MeOp.place)

/-- MXABORT (R209). -/
def execMxabort (s : State) : Host.Outcome State Fault Refusal :=
  finish s (do
    s.only [.ex]
    .ok ((s.abortMe s.curCore (fun _ => true)).retire 2))

/-- KSET (R211). -/
def execKset (k : BitVec 3) (a : BitVec 5) (s : State) : Host.Outcome State Fault Refusal :=
  finish s (do
    s.only [.ex]
    s.scalars [a.toNat]
    let x ← s.src a.toNat
    .ok (((s.pop [a.toNat]).modCur (fun c => { c with kmask := c.kmask.setIfInBounds k.toNat x.1 })).retire 2))
/-- KGEN (R211). -/
def execKgen (k : BitVec 3) (a : BitVec 5) (n : BitVec 10) (s : State) : Host.Outcome State Fault Refusal :=
  finish s (do
    s.only [.ex]
    s.scalars [a.toNat]
    let c ← s.count a.toNat n
    let v : Word := if c < 64 then BitVec.ofNat 64 (2 ^ c - 1) else BitVec.allOnes 64
    .ok (((s.pop [a.toNat]).modCur (fun c => { c with kmask := c.kmask.setIfInBounds k.toNat v })).retire 2))

/-- ME_OPERATION_START (R195): the pending operation becomes active. A block is reused only where a WLD preloaded it;
any other is read anew, since the operation's reads follow its MXGO (R203). The engine stands still while a SAVE waits (R149). -/
def execMeOperationStart (core : Nat) (s : State) : Host.Outcome State Fault Refusal :=
  .next (
    let m := (s.core core).me
    match m.active, m.pendingOp with
    | none, some o =>
      if (s.core core).saving then s
      else s.modMe core (fun m => { m with active := some o, pendingOp := none, latched := m.taken, ahead := none, taken := none })
    | _, _ => s)

/-- The members of a set in a gang, as cores (R201). -/
def State.memberCores (s : State) (g set : Nat) : List Nat :=
  ((Store.find? s.gangs g).elim [] Gang.cores).filter (fun n => set.testBit (((s.core n).task.map Task.member).getD 16))

/-- What the members of a rendezvous compare (R202): FMTB as it is written, a count of 0 as 1 (DESIGN CHOICE, log 43). -/
def MeOp.agrees (a b : MeOp) : Bool :=
  mxReg a.regs 0x1F == mxReg b.regs 0x1F && mxCounts a.regs == mxCounts b.regs && mxStrides a.regs 2 == mxStrides b.regs 2
    && mxReg a.regs 0x1B == mxReg b.regs 0x1B && hSerial a.bh == hSerial b.bh

/-- ME_BROADCAST_RENDEZVOUS (R201, R202): once every member has issued its operation, they run if they agree with the
leader's, and otherwise complete at once. Of a rendezvous that had met before its gang was sealed, the operations still
outstanding form it again once no member is parked (R206). -/
def execMeBroadcastRendezvous (core : Nat) (s : State) : Host.Outcome State Fault Refusal :=
  .next (
    let c := s.core core
    let g := (c.task.map Task.gang).getD 0
    let x := Store.getD s.gangs g ⟨[], [], [], []⟩
    match c.me.active.bind MeOp.place with
    | none => s
    | some p =>
      if x.broken.contains p then s.breakOp core p
      else
        let ns := s.memberCores g p.1
        let ops := ns.filterMap (fun n => ([(s.core n).me.active, (s.core n).me.pendingOp].filterMap id).find? (fun o => o.place == some p))
        let want := (List.range 16).countP (fun i => p.1.testBit i)
        let all := decide (want ≤ ops.length) || (ops.any MeOp.again && x.cores.all (fun n => (Store.find? s.parked n).isNone))
        match ops with
        | [] => s
        | leader :: _ =>
          if !all || ns.any (fun n => (s.core n).saving) then s
          else if ops.all (fun o => leader.agrees o) then
            let mark := fun (o : Option MeOp) => o.map (fun x => if x.place == some p then { x with met := true } else x)
            ns.foldl (fun (t : State) n => t.modMe n (fun m => { m with active := mark m.active, pendingOp := mark m.pendingOp })) s
          else s.breakMeeting g [p])

/-- The places of elements and, for a KBF format, of their headers (R197, R51). The ME reports a fault of either stage directly
(R279). -/
def State.mxLocs (s : State) (n : Nat) (h : BitVec 256) (code : Nat) (off : Int) (len elems : Nat) :
    Except Stop (State × List Loc × List Loc) := do
  let m := (s.core n).mapping .ex
  let (s1, ls) ← s.engineLocate n h off.toNat len .read false m
  match kbfOf code with
  | none => .ok (s1, ls, [])
  | some _ => do
    let b := codeBytes code
    let (s2, hs) ← s1.engineLocate n h (hLen h / (b + 2) * b + 2 * (off.toNat / b)) (2 * (elems / 32)) .read false m
    .ok (s2, ls, hs)

/-- Reads a weight block whole (R199). -/
def State.readBlock (s : State) (n : Nat) (w : WeightBlock) : Except Stop (State × WeightBlock) := do
  let len := 64 * w.colBytes
  let (s1, ls, hs) ← s.mxLocs n w.handle w.fmt w.offset len (len * 8 / mxBits w.fmt)
  let bs ← s1.engineRead ls
  let hb ← s1.engineRead hs
  .ok (s1.observed s1.writes (ls ++ hs), { w with bytes := bs, headers := hb })

/-- The loads and stores that an engine's reads follow have performed. -/
def Core.settled (c : Core) (loads stores : List Nat) : Bool := !c.blocked loads && !c.stores.any (fun x => stores.contains x.id)

/-- The operation's accesses may take place: what they follow has performed, it has met its rendezvous, and no fault
halts it. -/
def Core.opMoves (c : Core) (o : MeOp) : Bool := !c.saving && c.settled o.loadDeps o.storeDeps && !o.meeting && o.fault.isNone

/-- A buffer holds a block of an operation at an offset, read. -/
def holds (b : Option WeightBlock) (o : MeOp) (off : Int) : Bool := b.any (fun w => w.fits o off && !w.bytes.isEmpty)

/-- The next row-step of an operation that needs a block neither buffer holds, with the block's offset (R199). -/
def Me.wanted (m : Me) (o : MeOp) : Option (Nat × Int) :=
  o.scan (fun b => !holds m.latched o b && !holds m.ahead o b) (mxTotal o.regs - o.prog) o.prog

/-- A buffer's block is needed by a row-step before j. -/
def usedBefore (b : Option WeightBlock) (o : MeOp) (j : Nat) : Bool :=
  (o.scan (fun off => holds b o off) (j - o.prog) o.prog).isSome

/-- Puts a block in the buffer that no earlier row-step needs. -/
def Me.take (m : Me) (o : MeOp) (j : Nat) (w : WeightBlock) : Me :=
  if usedBefore m.latched o j then { m with ahead := some w } else { m with latched := some w }

/-- A buffer is free for the block of row-step j (R199): one that holds a preload is not. -/
def Me.canTake (m : Me) (o : MeOp) (j : Nat) : Bool := !(usedBefore m.latched o j && (usedBefore m.ahead o j || decide (0 < m.preloaded)))

/-- An engine stops at what an access of the active operation has met (R205): a translation fault halts it, and its blocks are
read again when it goes on; any other failure ends the task. -/
def State.meStop (s : State) (n : Nat) : Stop → State
  | .fault i => s.engineFault n (.me n) i (fun f c => { c with me := { c.me with
      active := c.me.active.map (fun o => { o with fault := some (f, i.cause) }), latched := none, ahead := none } })
  | .trap c => s.failTask n c
  | _ => s

/-- A preload whose block is still to be read may be read: it follows nothing more. -/
def Core.fillable (c : Core) (w : WeightBlock) : Bool := w.bytes.isEmpty && c.settled w.loadDeps w.storeDeps

/-- Reads the preload that the pending operation has taken, or the oldest other, where it has not been read and follows nothing
more (R210); not while a SAVE waits (R149). -/
def State.fillPreload (s : State) (n : Nat) : State :=
  let c := s.core n
  if c.saving then s
  else match c.me.taken.filter c.fillable, c.me.preloads.zipIdx.find? (fun w => c.fillable w.1) with
    | some w, _ => match s.readBlock n w with
      | .ok (t, w') => t.modMe n (fun m => { m with taken := some w' })
      | .error _ => s
    | none, some (w, i) => match s.readBlock n w with
      | .ok (t, w') => t.modMe n (fun m => { m with preloads := m.preloads.set i w' })
      | .error _ => s
    | none, none => s

/-- The next row-step of an operation that is not masked needs this one's block. -/
def MeOp.needsNow (o : MeOp) (j : Nat) : Bool := (o.scan (fun _ => true) (mxTotal o.regs - o.prog) o.prog).map Prod.fst == some j

/-- A member of a set that an operation of the set keeps the bus waiting for (R31): its matching operation is pending, is
halted or may not read yet. One that has completed its operation takes no further part. -/
def Core.stallsBus (c : Core) (o : MeOp) : Bool :=
  let same := fun (p : MeOp) => p.bcast == o.bcast && mxReg p.regs 0x23 == mxReg o.regs 0x23
  c.me.pendingOp.any same || c.me.active.any (fun p => same p && !c.opMoves p)

/-- WEIGHT_BLOCK_FILL (R199, R201): the next block in nest order is read, by the leader's ME alone, and goes to every member of
the set that needs it next; a member that cannot take part holds the bus up (R31). A fault halts an operation whose next
row-step needs the block, and is otherwise left until one does (R205): the leader's, where it needs the block. -/
def execWeightBlockFill (core : Nat) (s : State) : Host.Outcome State Fault Refusal :=
  .next (
    let c := s.core core
    match c.me.active with
    | none => s.fillPreload core
    | some o =>
      let set := if o.bcast.isSome then s.memberCores ((c.task.map Task.gang).getD 0) (mxReg o.regs 0x23).toNat else [core]
      let parts := set.filterMap (fun n => (s.core n).me.active.bind (fun p =>
        if p.bcast = o.bcast ∧ mxReg p.regs 0x23 = mxReg o.regs 0x23 ∧ (s.core n).opMoves p then
          ((s.core n).me.wanted p).map (fun w => (n, p, w.1, w.2)) else none))
      match parts with
      | [] => s.fillPreload core
      | p :: ps =>
        let first := ps.foldl (fun (a : Nat × MeOp × Nat × Int) b => if b.2.2.1 < a.2.2.1 then b else a) p
        let takers := parts.filter (fun q => q.2.2.2 == first.2.2.2)
        if set.any (fun n => o.bcast.isSome && (s.core n).stallsBus o) || takers.any (fun q => !(s.core q.1).me.canTake q.2.1 q.2.2.1) then s
        else
          let op := first.2.1
          let leader := set.headD core
          match s.readBlock leader ⟨op.bh, first.2.2.2, op.fmtB, mxBytes op.fmtB op.k, [], [], [], []⟩ with
          | .ok (t, w) => takers.foldl (fun (u : State) q => u.modMe q.1 (fun m => m.take q.2.1 q.2.2.1 w)) t
          | .error e =>
            let at' := (takers.find? (fun q => q.1 == leader)).getD first
            if at'.2.1.needsNow at'.2.2.1 then s.meStop at'.1 e else s)

/-- Elements of a format as values (R57). -/
def mxValues (code : Nat) (bytes headers : List Byte) : List FpVal :=
  match fpOf code, kbfOf code with
  | some f, _ => (Crypto.pieces 2 bytes.length bytes).map (fun p => f.read (numOf p))
  | none, some k =>
    let n := kbfBytes k
    (Crypto.pieces n bytes.length bytes).zipIdx.flatMap (fun p =>
      let at' := fun (i : Nat) => (headers.getD (2 * p.2 + i) 0).toNat
      let b := kbfBlock k p.1 (at' 0) (at' 1)
      (List.range 32).map (kbfValue k b))
  | none, none => []

/-- One row of C after a K-step (R56 to R58, R198): the columns that the mask leaves active take their new values
together. -/
def mxStep (o : MeOp) (row : BitVec 2048) (a ah : List Byte) (w : WeightBlock) (overwrite : Bool) : BitVec 2048 :=
  let old := lanesOf 32 row
  let hc := w.headers.length / 64
  let av := mxValues o.fmtA a ah
  BitVec.ofNat 2048 (packLanes 32 (old.zipIdx.map (fun p =>
    if (o.colMask.map (fun m => m.getLsbD p.2)).getD true then
      let acc : Nat := if overwrite then 0 else p.1
      let col := (w.bytes.drop (p.2 * w.colBytes)).take w.colBytes
      if o.fmtA = 1 then
        (((acc : Int) + (a.zip col).foldl (fun (v : Int) q => v + q.1.toInt * q.2.toInt) 0) % ((2 ^ 32 : Nat) : Int)).toNat
      else kStep acc ((av.zip (mxValues o.fmtB col ((w.headers.drop (p.2 * hc)).take hc))).map (fun q => termOf q.1 q.2))
    else p.1)))

/-- The operation after a row-step; it completes with its last (R198). -/
def State.meAdvance (s : State) (n : Nat) (o : MeOp) : State :=
  s.modCore n (fun c => { c with
    lastActive := s.cycle,
    me := { c.me with active := if mxTotal o.regs ≤ o.prog + 1 then none else some { o with prog := o.prog + 1 } } })

/-- ME_ROW_STEP (R198, R205): one row-step of the active operation commits whole, once a buffer holds its block and its issue
is not held back (R276, R368). -/
def execMeRowStep (core : Nat) (s : State) : Host.Outcome State Fault Refusal :=
  .next (
    let c := s.core core
    match c.me.active with
    | none => s
    | some o =>
      if !c.opMoves o || s.gated core then s
      else if !o.rowActive o.prog then s.meAdvance core o
      else
        let boff := mxBoff o.regs o.prog
        let hit := if holds c.me.latched o boff then c.me.latched else if holds c.me.ahead o boff then c.me.ahead else none
        match hit with
        | none => s
        | some w =>
          match s.mxLocs core o.ah o.fmtA (mxAoff o.regs o.prog) (mxBytes o.fmtA o.k) o.k with
          | .error e => s.meStop core e
          | .ok (s1, ls, hs) =>
            match s1.engineRead ls, s1.engineRead hs with
            | .error e, _ => s.meStop core e
            | _, .error e => s.meStop core e
            | .ok a, .ok ah =>
              let s1 := s1.observed s1.writes (ls ++ hs)
              let crow := (mxRow o.regs o.prog).toNat
              let r := 64 * (mxReg o.regs 0x1C).toNat + crow
              let fresh := mxReg o.regs 0x22 == 1 && !o.written.contains crow
              let s2 := s1.modCore core (fun c => c.setRow r (mxStep o (c.row r) a ah w fresh))
              let s3 := s2.modMe core (fun m => if holds m.latched o boff then m else { m with latched := m.ahead, ahead := m.latched })
              s3.meAdvance core { o with
                written := if o.written.contains crow then o.written else crow :: o.written,
                earlier := Store.put r (Store.getD o.earlier r [] ++ [c.row r]) o.earlier })

end Sys2Proof.Machine
end

