-- ==== Sys2Proof/Machine/Fabric.lean ====
section
/-!
DEFINITION. Fabric and collectives (R339 to R363): reduction slots, the reduction aperture, layouts and the steps they
derive, collectives, the louvre transport, and the instructions that use them. What the other modules contribute
comes with the events.
-/
namespace Sys2Proof.Machine

/-- The process group of the task of a core (Table 7-11). -/
def Core.group (c : Core) : Group := (c.task.map Task.group).getD ⟨0, 1, 0, [1, 1, 1, 1], []⟩

/-- A partition. -/
def State.partition (s : State) (n : Nat) : Option Partition := Store.find? s.parts n

/-- Changes a collective of a core. -/
def Core.modColl (c : Core) (id : Nat) (f : Coll → Coll) : Core :=
  match Store.find? c.colls id with
  | none => c
  | some k => { c with colls := Store.put id (f k) c.colls }

/-- Delivers a completion object other than a fill (R183, R353): kind 3 only at a normal end; a decrement that fails
ends the task (log 23). -/
def State.deliverObject (s : State) (n : Nat) (sq : Sq) (lit : BitVec 32) (normal : Bool) : State :=
  let s1 := (s.modCore n (fun c => c.complete sq lit)).meetWaiting n sq
  if litKind lit = 3 ∧ normal then
    match (s1.core n).task with
    | none => s1
    | some t => match s1.decrementBy n t.sigHandle (litCount lit) with
      | .ok u => u
      | .error c => s1.failTask n c
  else s1

/-- A collective ends at this member with a status word: its drawn slot is freed, its chunks leave the cistern, its writes may be
joined and its object is delivered (R350, R353). Where this member has cancelled it CANCELLED is set, whatever else ends it
(R352). -/
def State.endColl (s : State) (n id : Nat) (how : BitVec 9) : State :=
  match Store.find? (s.core n).colls id with
  | none => s
  | some k =>
    let status := if k.cancelling then how ||| 0x100 else how
    if k.ended.isSome then s
    else
      let s1 := (s.landColl n k.order (objectCode .ctl k.lit) (status == 0)).modCore n (fun c => { c.modColl id (fun k =>
        { k with ended := some status, drawn := none, slot := none, fault := none, chunks := [] }) with lastActive := s.cycle })
      let s2 := { s1 with faults := s1.faults.filter (fun f => f.unit != FaultUnit.coll n id) }
      s2.deliverObject n .ctl k.lit (status == 0)

/-- The module answers a request. -/
def State.reply (s : State) (r : Reply) : State := { s with replies := s.replies ++ [r] }

/-- The IV of a message of an SPDM session: the direction, 1 for what the TC sends, then the number of the message in it
(DESIGN CHOICE, log 39). -/
def sessionIv (sent : Bool) (n : Nat) : List Byte := bytesOf 4 sent.toNat ++ bytesOf 8 n

/-- A secured message of a session carries a text: its tag is good under the session's key, and it opens to the text (R299, R323). -/
def Session.opens (x : Session) (cipher tag text : List Byte) : Bool :=
  Crypto.gcmTag x.key (sessionIv false x.heard) [] cipher == tag && Crypto.gcmCrypt x.key (sessionIv false x.heard) cipher == text

/-- An answer leaves over an SPDM session in a secured message, where the session still stands (R299, R323). -/
def State.sealTo (s : State) (id : Option Nat) (r : Reply) : State :=
  match id.bind (fun i => (Store.find? s.sessions i).map (fun x => (i, x))) with
  | none => s
  | some (i, x) =>
    let ct := Crypto.gcmCrypt x.key (sessionIv true x.sent) (Config.replyText r)
    { s with
      sessions := Store.put i { x with sent := x.sent + 1 } s.sessions,
      messages := s.messages ++ [(i, ct, Crypto.gcmTag x.key (sessionIv true x.sent) [] ct)] }

/-- The header of a frame (R337), which its tag covers. -/
def frameHeader (f : Frame) : List Byte := bytesOf 4 (f.part % 16) ++ bytesOf 4 f.gen ++ bytesOf 8 f.seq

/-- The IV of a frame (R337): port and direction, 1 for what a module receives (log 39), then the sequence number. -/
def frameIv (port : Nat) (inward : Bool) (seq : Nat) : List Byte := bytesOf 4 (port % 32 + (if inward then 32 else 0)) ++ bytesOf 8 seq

/-- The size of a frame's payload (R337). -/
def goodPayload (payload : List Byte) : Bool := decide (16 ≤ payload.length) && decide (payload.length ≤ 4096)

/-- The link-key generation under which a port sends: the newer from its link's update on (R361). -/
def Partition.sendGen (p : Partition) (port : Nat) : Nat := if p.linkOlder && !p.linkUpdated.contains port then p.linkGen - 1 else p.linkGen

/-- A link-key generation is held (R361). -/
def Partition.holdsGen (p : Partition) (gen : Nat) : Bool := gen == p.linkGen || (p.linkOlder && gen + 1 == p.linkGen)

/-- The key of a link and generation (Table 17-5). -/
def Partition.linkKey (p : Partition) (gen port : Nat) : BitVec 256 := Store.getD p.linkKeys (gen * 16 + port) 0

/-- The frame in which a port sends a payload (R337): sealed under the sender's generation, with the next sequence number, which
no other frame of the port has. -/
def State.sealFrame (s : State) (part port : Nat) (payload : List Byte) : Option (State × Frame × List Byte) :=
  match Store.find? s.parts part, s.links[port]? with
  | some p, some l =>
    if l.peer.isNone || !p.ports.contains port || !goodPayload payload then none
    else
      let gen := p.sendGen port
      let f : Frame := ⟨part, gen, l.sent, payload⟩
      let ct := Crypto.gcmCrypt (p.linkKey gen port) (frameIv port false f.seq) payload
      some ({ s with links := modAt s.links port (fun l => { l with sent := l.sent + 1 }) },
        { f with payload := ct }, Crypto.gcmTag (p.linkKey gen port) (frameIv port false f.seq) (frameHeader f) ct)
  | _, _ => none

/-- Slots that a partition has drawn on every plane that it owns, from its quota or from the pool (R342, R350). -/
def State.slotsDrawn (s : State) (part : Nat) (fromQuota : Bool) : Nat :=
  let held := (s.ctxs.map (fun (p : Nat × Context) =>
    if p.2.part = part then p.2.slots.countP (fun x => x.2.1 == fromQuota) else 0)).foldl (· + ·) 0
  let colls := (s.cores.map (fun (p : Nat × Core) =>
    if (p.2.task.map Task.part) = some part then p.2.colls.countP (fun x => x.2.drawn == some fromQuota) else 0)).foldl (· + ·) 0
  held + colls

/-- Slots of a plane that the partitions of this module have drawn, from their quotas or from the pool. -/
def State.planeDrawn (s : State) (plane : Nat) (fromQuota : Bool) : Nat :=
  (s.parts.map (fun (p : Nat × Partition) => if p.2.ports.contains plane then s.slotsDrawn p.1 fromQuota else 0)).foldl (· + ·) 0

/-- Slots of a plane that a partition's quota keeps out of the pool: the quota, or what it has drawn under an earlier, larger quota
and still holds (R380; log 33). -/
def State.quotaTakes (s : State) (plane part : Nat) : Nat :=
  let drawn := if (s.partition part).any (fun p => p.ports.contains plane) then s.slotsDrawn part true else 0
  Nat.max (Store.getD s.quotas part 0) drawn

/-- Slots left in the shared pool of a plane (R380): what the partitions of other modules alone have drawn counts too. -/
def State.poolFree (s : State) (plane : Nat) : Nat :=
  let numbers := ((s.quotas.map Prod.fst) ++ (s.parts.map Prod.fst)).eraseDups
  Config.planeSlots - (numbers.map (s.quotaTakes plane)).foldl (· + ·) 0 - s.planeDrawn plane false - (s.poolDrawn[plane]?.getD 0)

/-- Slots of a plane that nobody holds: a quota that is raised over slots in use gives no more (R380). The quotas of partitions of
other modules alone count whole, since what they have drawn of them is not seen here. -/
def State.planeFree (s : State) (plane : Nat) : Nat :=
  let others := ((s.quotas.filter (fun p => (s.partition p.1).isNone)).map Prod.snd).foldl (· + ·) 0
  Config.planeSlots - others - s.planeDrawn plane true - s.planeDrawn plane false - (s.poolDrawn[plane]?.getD 0)

/-- n slots for a partition on every plane that it owns: how many come from the quota; none where they cannot be
supplied whole (R342, R380). -/
def State.drawSlots (s : State) (part n : Nat) : Option Nat :=
  match s.partition part with
  | none => none
  | some p =>
    let q := Nat.min n (Store.getD s.quotas part 0 - s.slotsDrawn part true)
    if p.ports.all (fun plane => decide (n - q ≤ s.poolFree plane) && decide (n ≤ s.planeFree plane)) then some q else none

/-- The partition at which the round-robin pointers of the planes stand in this cycle: they move past a partition in the cycle
after it has drawn (R343; the pointer's start and its steps are the model's, log 33). -/
def State.pointer (s : State) : Nat :=
  match s.slotTurn with
  | some (c, p) => if c = s.cycle then s.planePtr else (p + 1) % 16
  | none => s.planePtr

/-- The place of a partition in the pointer's order (R343). -/
def State.behind (s : State) (part : Nat) : Nat := (part + 16 - s.pointer) % 16

/-- The draws of this cycle. -/
def State.drawsNow (s : State) : List SlotDraw := s.slotDraws.filter (fun x => x.cycle == s.cycle)

/-- A partition has drawn from the pool. -/
def State.drew (s : State) (x : SlotDraw) : State :=
  let last := match s.slotTurn with
    | some (c, p) => if c = s.cycle ∧ s.behind x.part < s.behind p then p else x.part
    | none => x.part
  { s with planePtr := s.pointer, slotTurn := some (s.cycle, last), slotDraws := x :: s.drawsNow }

/-- A partition of other modules alone frees n slots on each of some planes. -/
def State.freeOutside (s : State) (n : Nat) (planes : List Nat) : State :=
  { s with poolDrawn := Vector.ofFn (fun (i : Fin 16) => s.poolDrawn[i] - (if planes.contains i.val then n else 0)) }

/-- A draw of this cycle has lost to a request that the pointer favours: its slots go back, and it receives 0xC1 at once (R343). -/
def State.undraw (s : State) (x : SlotDraw) : State :=
  let s1 := { s with slotDraws := s.slotDraws.filter (· != x) }
  if !x.planes.isEmpty then s1.freeOutside x.count x.planes
  else match x.coll with
  | some id => (s1.modCore x.core (fun c => c.modColl id (fun k => { k with started := false }))).endColl x.core id 0xC1
  | none => (s1.keepSlots x.ctx (fun i _ => decide (i < x.first) || decide (x.first + x.count ≤ i))).modCore x.core (fun c =>
      c.modSeq .ctl (fun q => q.put .ctl x.reg (BitVec.ofNat 64 (2 ^ 63 + 0xC1)) (q.set x.reg)))

/-- What a request asks for, at the cost of draws of this cycle, the one that the pointer favours least first. -/
def State.outbid {α : Type} (s : State) (ask : State → Option α) : List SlotDraw → Option (State × α)
  | [] => none
  | x :: xs =>
    let t := s.undraw x
    match ask t with
    | some q => some (t, q)
    | none => State.outbid t ask xs

/-- What a request of a partition asks for, from what is free, or from what requests of this cycle behind it in the pointer's order
have drawn (R343). -/
def State.bid {α : Type} (s : State) (part : Nat) (ask : State → Option α) : Option (State × α) :=
  match ask s with
  | some q => some (s, q)
  | none => s.outbid ask (sortKey (fun x => 16 - s.behind x.part) (s.drawsNow.filter (fun x => decide (s.behind part < s.behind x.part))))

/-- n slots for a partition of this module (R343). -/
def State.takeSlots (s : State) (part n : Nat) : Option (State × Nat) := s.bid part (fun t => t.drawSlots part n)

/-- A partition of other modules alone draws n slots on each of some planes, where the pointer's order lets it: else it receives
0xC1, and nothing changes here (R343, R380). -/
def State.drawOutside (s : State) (part n : Nat) (planes : List Nat) : State :=
  if (s.partition part).isSome || decide (16 ≤ part) || planes.isEmpty || !planes.all (fun i => decide (i < 16)) then s
  else match s.bid part (fun t => if planes.all (fun i => decide (n ≤ t.poolFree i) && decide (n ≤ t.planeFree i)) then some () else none) with
    | none => s
    | some (t, _) => State.drew { t with poolDrawn := Vector.ofFn (fun (i : Fin 16) => t.poolDrawn[i] + (if planes.contains i.val then n else 0)) }
        ⟨s.cycle, part, 0, none, 0, 0, n, 0, planes⟩

/-- The running context. -/
def State.context (s : State) : Option Context := Store.find? s.ctxs s.who.ctx

/-- RSLOT, reserve (R342). -/
def execRslotReserve (d a : BitVec 5) (t : BitVec 3) (s : State) : Host.Outcome State Fault Refusal :=
  finish s (do
    need (wfSlotType t) 0x02
    s.only [.ctl]
    s.scalars [d.toNat, a.toNat]
    let x ← s.src a.toNat
    let n := x.1.toNat
    let held := s.context.elim 0 (fun c => c.slots.length)
    need (decide (1 ≤ n) && decide (held + n ≤ 64)) 0x02
    let answer := fun (s : State) (v : Nat) => .ok (((s.pop [a.toNat]).put d.toNat (BitVec.ofNat 64 v) x.2).retire 2)
    match s.context, s.takeSlots s.who.part n with
    | some c, some (s0, q) =>
      let new := (List.range n).map (fun i => (t.toNat, decide (i < q), s.curCore))
      let s1 := { s0 with ctxs := Store.put s.who.ctx { c with slots := c.slots ++ new } s0.ctxs }
      answer (if q = n then s1 else s1.drew ⟨s.cycle, s.who.part, s.curCore, none, s.who.ctx, held, n, d.toNat, []⟩) (held + n)
    | _, _ => answer s (2 ^ 63 + 0xC1))
/-- RSLOT, release (R342). -/
def execRslotRelease (d a : BitVec 5) (s : State) : Host.Outcome State Fault Refusal :=
  finish s (do
    s.only [.ctl]
    s.scalars [d.toNat, a.toNat]
    let x ← s.src a.toNat
    let n := x.1.toNat
    let held := s.context.elim 0 (fun c => c.slots.length)
    need (decide (1 ≤ n) && decide (n ≤ held)) 0x02
    .ok ((((s.pop [a.toNat]).keepSlots s.who.ctx (fun i _ => decide (i + n < held))).put d.toNat
      (BitVec.ofNat 64 (held - n)) x.2).retire 2))

/-- A core has touched a word. -/
def ApWord.touch (w : ApWord) (core : Nat) : ApWord := if w.writers.contains core then w else { w with writers := core :: w.writers }

/-- The checks of APST and APLD (R344): the handle, its alignment, the aperture flag, and the slot. Gives the word's
key and the slot's element type. -/
def State.apertureCheck (s : State) (hv : BitVec 256) (right : BitVec 8) (off : Nat) : Except Stop (Nat × Nat) :=
  match s.accessCause s.who.tenant hv right off 8 8 with
  | some c => .error (.trap c)
  | none =>
    let o := (hBase hv + off) % 2 ^ 50
    if !hPeer hv || !(hBase hv).testBit 56 || o % 8 ≠ 0 then .error (.trap 0x73)
    else match s.context.bind (fun c => c.slots[o / 0x10000]?) with
      | none => .error (.trap 0x73)
      | some x => .ok (apKey s.who.ctx (o / 0x10000) (o % 0x10000 / 8), x.1)

/-- The word that APST contributes and APLD returns: whole for INT64, the low 32 bits for the other types. -/
def apValue (type : Nat) (v : Word) : Word := if type = 0 then v else (v.setWidth 32).setWidth 64

/-- Every module has loaded the round that the next contribution to a word would displace (R344). -/
def ApWord.mayPut (w : ApWord) (modules : Nat) : Bool :=
  decide (w.puts.length < 2) || (w.writers.all (fun n => decide (w.puts.length < Store.getD w.loads n 0 + 2))
    && (decide (modules ≤ 1) || decide (w.puts.length < w.peersLoaded + 2)))

/-- APST (R344): a release at partition scope; the contribution to round k + 2 waits until every module has loaded round k. -/
def execApst (d a h : BitVec 5) (s : State) : Host.Outcome State Fault Refusal :=
  finish s (do
    s.only [.st]
    s.scalars [d.toNat, a.toNat]
    let hv ← s.handleReg h.toNat
    let (off, t) ← s.offset a.toNat 0
    let v ← s.src d.toNat
    let (key, type) ← s.apertureCheck hv (rightW ||| rightE) off
    s.after (t ||| v.2)
    let c := s.cur
    need (s.reachesAll s.who.part c.group) 0xC4
    if c.stores.any (fun x => x.sq == .st && (match x.kind with | .streaming _ => false | _ => true)) then .error (.wait .other)
    else do
      let w := s.apWord key
      if !w.mayPut c.group.size then .error (.wait .other)
      else
        let s1 := s.release s.curCore s.curSq 3
        let s2 := if 1 < c.group.size then s1.sendChunks (s1.openPorts s.who.part) 0 1 else s1
        .ok (((s2.pop [d.toNat, a.toNat]).setApWord key { w.touch s.curCore with puts := w.puts ++ [apValue type v.1] }).retire 2))

/-- APLD (R344): the core's next load of the word waits until its round completes; an acquire at partition scope. -/
def execApld (d a h : BitVec 5) (s : State) : Host.Outcome State Fault Refusal :=
  finish s (do
    s.only [.ld]
    s.scalars [d.toNat, a.toNat]
    let hv ← s.handleReg h.toNat
    let (off, _) ← s.offset a.toNat 0
    let (key, _) ← s.apertureCheck hv (rightR ||| rightI) off
    need (s.reachesAll s.who.part s.cur.group) 0xC4
    let w := s.apWord key
    let k := match s.seq.mark with
      | some (.round _ k) => k
      | _ => Store.getD w.loads s.curCore 0 + 1
    let s1 := s.setApWord key { w.touch s.curCore with loads := Store.put s.curCore k w.loads }
    match w.results[k - 1]? with
    | some v => .ok ((s1.acquireAll.put d.toNat v 0).retire 2)
    | none => .ok (s1.awaitMark .other (.round key k)))

/-- The elements in an order that a free number names. -/
def shuffle {α : Type} : Nat → Nat → List α → List α
  | 0, _, _ => []
  | n + 1, v, xs =>
    match xs[v % xs.length]? with
    | none => []
    | some x => x :: shuffle n (v / xs.length) (xs.eraseIdx (v % xs.length))

/-- The order in which contributions to a sum arrive: a free value, one for each sum (R351). -/
def State.arrival (s : State) (sum : Nat) {α : Type} (xs : List α) : List α :=
  shuffle xs.length (Config.pick (s.draws + 2 ^ 80 * (sum + 1))) xs

/-- Bytes of peer modules' memory, by rank × 2^50 + address. -/
def State.writePeers (s : State) (m : List (Nat × Byte)) : State :=
  s.writeFrom [Config.peerAgent] Strength.plain (m.map (fun p => (.peer (p.1 / 2 ^ 50) (p.1 % 2 ^ 50), p.2)))

/-- APERTURE_ROUND_COMPLETE (R344): every module has contributed to the next round of a word that this module has
contributed to; the slot's ALU has added them. What the others' APSTs release, in their own modules' memory, is written before
(R245, R365). -/
def execApertureRoundComplete (core slot word : Nat) (others : PeerRound) (s : State) : Host.Outcome State Fault Refusal :=
  .next (
    let c := s.core core
    let ctx := (c.who core).ctx
    let key := apKey ctx slot word
    let w := s.apWord key
    match (Store.find? s.ctxs ctx).bind (fun x => x.slots[slot]?), w.puts[w.results.length]? with
    | some x, some mine =>
      if others.values.length + 1 ≠ c.group.size then s
      else
        let all := (s.arrival 0 (mine :: others.values)).map (fun v => (apValue x.1 v).toNat)
        let sum := match x.1 with
          | 0 => (all.foldl (· + ·) 0) % 2 ^ 64
          | 1 => all.foldl (fun a v => (fp32.add .rne a v).1) 0
          | _ => (all.foldl (· + ·) 0) % 2 ^ 32
        (s.writePeers others.released).setApWord key { w with results := w.results ++ [BitVec.ofNat 64 sum] }
    | _, _ => s)

/-- LAYX (R346). -/
def goodLayout (v : Word) : Bool :=
  let m := fun (i : Nat) => bitsOf v.toNat (4 * i + 3) (4 * i)
  let dims := bitsOf v.toNat 21 20 + 1
  let masks := [m 0, m 1, m 2, m 3, m 4]
  decide (v.toNat < 2 ^ 22) && (List.range 4).all (fun d => decide (d < dims) || m d == 0)
    && (List.range 4).all (fun a => decide (masks.countP (fun x => x.testBit a) ≤ 1))

/-- LAYX (R346). -/
def execLayx (a : BitVec 5) (x : BitVec 3) (s : State) : Host.Outcome State Fault Refusal :=
  finish s (do
    s.only [.ctl]
    s.scalars [a.toNat]
    let v ← s.src a.toNat
    need (goodLayout v.1) 0x02
    .ok (((s.pop [a.toNat]).modCur (fun c => { c with layouts := c.layouts.setIfInBounds x.toNat v.1 })).retire 2))

/-- Dimensions of a layout, the mask of axes over which the tensor is a sum, and the mask that shards a dimension
(Table 19-1). -/
def layoutDims (v : Word) : Nat := bitsOf v.toNat 21 20 + 1
def layoutSums (v : Word) : Nat := bitsOf v.toNat 19 16
def layoutShard (v : Word) (d : Nat) : Nat := bitsOf v.toNat (4 * d + 3) (4 * d)

/-- The axes of a mask. -/
def axesOf (m : Nat) : List Nat := (List.range 4).filter (fun a => m.testBit a)

/-- Parts that a mask cuts a dimension into (R345). -/
def shards (axes : List Nat) (m : Nat) : Nat := product ((axesOf m).map (fun a => axes.getD a 1))

/-- The coordinates of a rank, axis 0 fastest. -/
def meshCoords (axes : List Nat) (rank : Nat) : List Nat := coords axes rank

/-- The rank of coordinates. -/
def meshRank : List Nat → List Nat → Nat
  | e :: es, c :: cs => c + e * meshRank es cs
  | _, _ => 0

/-- The part of a dimension that coordinates hold: the lowest-numbered axis is the most significant (R345). -/
def shardIndex (axes cs : List Nat) (m : Nat) : Nat :=
  (axesOf m).foldl (fun n a => n * axes.getD a 1 + cs.getD a 0) 0

/-- The coordinate on an axis of the holder of part p of a dimension (R345). -/
def shardCoord (axes : List Nat) (m a p : Nat) : Nat :=
  p / product (((axesOf m).filter (fun b => decide (a < b))).map (fun b => axes.getD b 1)) % axes.getD a 1

/-- The extents of a module's part under a layout (R345). -/
def partExtents (axes : List Nat) (v : Word) (es : List Nat) : List Nat :=
  (List.range (layoutDims v)).map (fun d => es.getD d 1 / shards axes (layoutShard v d))

/-- What an axis is in a layout (R345). -/
inductive AxisRole where
  | summed | sharded (d : Nat) | replicated
  deriving DecidableEq, Repr

def axisRole (v : Word) (a : Nat) : AxisRole :=
  if (layoutSums v).testBit a then .summed
  else match (List.range 4).find? (fun d => (layoutShard v d).testBit a) with
    | some d => .sharded d
    | none => .replicated

/-- The steps of Table 19-2. -/
inductive FabricStep where
  | allReduce (a : Nat) | reduceScatter (a d : Nat) | allGather (a d : Nat) | allToAll (a d e : Nat) | slice (a d : Nat)
  deriving DecidableEq, Repr

/-- The step of one axis; none where the pair is illegal, no step where nothing changes (Table 19-2). -/
def axisStep (l1 l2 : Word) (a : Nat) : Option (Option FabricStep) :=
  match axisRole l1 a, axisRole l2 a with
  | .summed, .replicated => some (some (.allReduce a))
  | .summed, .sharded d => some (some (.reduceScatter a d))
  | .sharded d, .replicated => some (some (.allGather a d))
  | .sharded d, .sharded e => some (if d = e then none else some (.allToAll a d e))
  | .replicated, .sharded d => some (some (.slice a d))
  | .summed, .summed => some none
  | .replicated, .replicated => some none
  | _, .summed => none

/-- The steps of a pair of layouts; none where it is illegal (R347). -/
def layoutSteps (axes : List Nat) (l1 l2 : Word) (es : List Nat) : Option (List FabricStep) :=
  let per := (List.range 4).map (axisStep l1 l2)
  let divides := fun (v : Word) => (List.range (layoutDims v)).all (fun d => es.getD d 1 % shards axes (layoutShard v d) == 0)
  if layoutDims l1 = layoutDims l2 ∧ per.all Option.isSome ∧ divides l1 ∧ divides l2 then some (per.filterMap (fun x => x.bind id)) else none

/-- The steps but the slices. -/
def traffic (xs : List FabricStep) : List FabricStep := xs.filter (fun x => match x with | .slice _ _ => false | _ => true)

/-- A step reduces. -/
def FabricStep.reduces : FabricStep → Bool
  | .allReduce _ => true
  | .reduceScatter _ _ => true
  | _ => false

/-- The axis of a step. -/
def FabricStep.axis : FabricStep → Nat
  | .allReduce a => a | .reduceScatter a _ => a | .allGather a _ => a | .allToAll a _ _ => a | .slice a _ => a

/-- The one step of a louvre collective (R354) or of an exchange (R351). -/
def Coll.step (c : Coll) (axes : List Nat) : Option FabricStep :=
  match layoutSteps axes c.l1 c.l2 c.extents with
  | none => none
  | some xs =>
    match (if c.exchange then xs else traffic xs) with
    | [x] => (match x with
      | .allToAll _ _ _ => none
      | .slice _ _ => none
      | .allGather _ _ => if c.exchange then none else some x
      | _ => some x)
    | _ => none

/-- Elements of this module's source part and destination part. -/
def Coll.srcElems (c : Coll) (axes : List Nat) : Nat := product (partExtents axes c.l1 c.extents)
def Coll.dstElems (c : Coll) (axes : List Nat) : Nat := product (partExtents axes c.l2 c.extents)

/-- Blocks of 2,048 elements. -/
def tilesOf (n : Nat) : Nat := (n + 2047) / 2048

/-- Elements of the destination part that a gather brings from one source. -/
def Coll.shareElems (c : Coll) (axes : List Nat) (a : Nat) : Nat := c.dstElems axes / axes.getD a 1

/-- Tiles of the destination (R354): a gather lands the tiles of every source, those of what L2 leaves of its part. -/
def Coll.tiles (c : Coll) (axes : List Nat) : Nat :=
  if !c.louvre then 0
  else match c.step axes with
    | some (.allGather a _) => axes.getD a 1 * tilesOf (c.shareElems axes a)
    | _ => tilesOf (c.dstElems axes)

/-- Element bytes of a collective's format; KBF16 elements are 2 bytes in the element array. -/
def Coll.esz (c : Coll) : Nat := if c.fmt = 10 then 2 else codeBytes c.fmt

/-- Contributions that the destination receives one after another (R351). -/
def Coll.copies (c : Coll) (axes : List Nat) : Nat :=
  if c.exchange then ((c.step axes).map (fun x => axes.getD x.axis 1)).getD 1 else 1

/-- Bytes of the source part and of the destination. -/
def Coll.srcBytes (c : Coll) (axes : List Nat) : Nat :=
  if c.fmt = 10 then (c.srcElems axes + 31) / 32 * 64 else c.srcElems axes * c.esz
def Coll.dstBytes (c : Coll) (axes : List Nat) : Nat :=
  if c.louvre then c.tiles axes * 4224 else c.copies axes * c.dstElems axes * c.esz

/-- The scratchpad offset of a collective's destination in a core's own window; negative, or too large, where it lies
elsewhere. -/
def Coll.scratchAt (c : Coll) (core : Nat) : Int := (hBase c.dst : Int) + c.doff - (core * 0x200000 : Nat)

/-- The number of the process group of a task on this module, with a channel (R350). -/
def Task.channelKey (t : Task) (channel : Nat) : Nat := groupKey (queueKey t.tenant t.queue) t.ring * 16 + channel

/-- COLL (R348, R349). One whose collective a member has cancelled before finds it ended (R350). It takes the lowest id that is
free: R348 says only that one of 0 to 15 is held (DESIGN CHOICE, log 33). -/
def execColl (d a : BitVec 5) (e l : BitVec 1) (y x : BitVec 3) (lit : BitVec 32) (s : State) : Host.Outcome State Fault Refusal :=
  finish s (do
    need (wfGroup a 3) 0x02
    s.only [.ctl]
    let rs := [a.toNat, a.toNat + 1, a.toNat + 2, a.toNat + 3]
    s.scalars (d.toNat :: rs)
    let v0 ← s.src a.toNat
    let v1 ← s.src (a.toNat + 1)
    let v2 ← s.src (a.toNat + 2)
    let v3 ← s.src (a.toNat + 3)
    let w := v0.1.toNat
    -- step 1
    need (decide (w < 2 ^ 20)) 0x02
    -- step 2
    need (litKind lit != 1 && goodLiteral .ctl lit) 0x02
    match s.completionCause lit with
    | some c => .error (.trap c)
    | none => .ok ()
    -- step 3
    let c := s.cur
    let l1 := c.layouts[x.toNat]?.getD 0
    let l2 := c.layouts[y.toNat]?.getD 0
    let fmt := bitsOf w 15 10
    let es := (List.range 4).map (fun i => bitsOf v3.1.toNat (16 * i + 15) (16 * i))
    need ([7, 6, 5, 3, 10].contains fmt && (fmt != 10 || l == 1) && (fmt != 3 || l == 0) && (l == 0 || e == 0)) 0x02
    need ((List.range 4).all (fun i => (es.getD i 0 != 0) == decide (i < layoutDims l1))) 0x02
    -- step 4
    let src ← s.handleReg (bitsOf w 4 0)
    let dst ← s.handleReg (bitsOf w 9 5)
    let axes := c.group.axes
    let k : Coll := {
      order := c.nextId, channel := bitsOf w 19 16, fmt := fmt, src := src, dst := dst, soff := v1.1.toNat, doff := v2.1.toNat,
      extents := es.take (layoutDims l1), l1 := l1, l2 := l2, louvre := l == 1, exchange := e == 1, lit := lit, held := true,
      started := false, nth := 0, chunks := [], passed := 0, gone := [], come := [], spoiled := none, drawn := none, slot := none, ended := none,
      cancelling := false, counters := [], cuts := [], formed := [],
      loadDeps := c.loadsOf (v0.2 ||| v1.2 ||| v2.2 ||| v3.2 ||| s.seq.ctlTaint),
      storeDeps := (c.stores.filter (fun x => x.sq == s.curSq)).map StoreReq.id, fault := none }
    let sb := k.srcBytes axes
    let db := k.dstBytes axes
    let rights := fun (h : BitVec 256) (off len : Nat) (r : BitVec 8) =>
      s.handleCause s.who.tenant h (if needM s.curCore h off len then r ||| rightM else r)
    match rights src k.soff sb (rightR ||| rightE), rights dst k.doff db (rightW ||| rightI) with
    | some c, _ => .error (.trap c)
    | none, some c => .error (.trap c)
    | none, none => .ok ()
    -- step 5
    need (if fmt = 10 then k.soff % 64 == 0 && hLen src % 66 == 0 else k.soff % k.esz == 0) 0x43
    need (k.doff % k.esz == 0) 0x43
    -- step 6
    need (decide (k.soff < 2 ^ 41) && decide (k.doff < 2 ^ 41)) 0x73
    need (decide (k.soff + sb ≤ (if fmt = 10 then hLen src / 66 * 64 else hLen src)) && decide (k.doff + db ≤ hLen dst)) 0x73
    let sides := [(src, k.soff, sb), (dst, k.doff, db)].map (fun (h, o, n) => s.sideCause ⟨h, (o : Nat), [], 0, n, none, false, none⟩ [])
    match sides.filterMap id with
    | c :: _ => .error (.trap c)
    | [] => .ok ()
    -- step 7
    let at' := k.scratchAt s.curCore
    need (l == 0 || (hOnchip dst && decide (0 ≤ at') && decide (at' < 0x100000))) 0x41
    need (decide (k.tiles axes ≤ 128)) 0x02
    need (l == 0 || decide (at' + db ≤ (c.decl.scratch : Int))) 0x26
    match (List.range 16).find? (fun i => !((Store.find? c.colls i).map Coll.held).getD false) with
    | none => .error (.trap 0x27)
    | some id =>
      let n := k.tiles axes
      let key := (c.task.map (fun t => t.channelKey k.channel)).getD 0
      let nth := Store.getD s.collCounts key 0
      let k := { k with counters := List.replicate n 0, cuts := List.replicate n 15, nth := nth,
                        ended := if s.collGone.contains (key, nth) then some 0x100 else none }
      let s1 := { s with collCounts := Store.put key (nth + 1) s.collCounts }
      let s2 := ((((s1.fork s.curCore s.curSq).pop rs).modCur (fun c => { c with colls := Store.put id k c.colls, nextId := c.nextId + 1 })).put d.toNat
        (BitVec.ofNat 64 id) 0).retire 4
      .ok (if k.ended.isSome then s2.deliverObject s.curCore .ctl lit false else s2))

/-- A collective that an id holds. -/
def Core.heldColl (c : Core) (id : Nat) : Option Coll := (Store.find? c.colls id).bind (fun k => if k.held then some k else none)

/-- The place in issue order of the collective whose write this is, and the part of its result that it is. -/
def Awaited.collPart : Awaited → Option (Nat × Nat)
  | .coll o x => some (o, x)
  | .landed o x _ => some (o, x)
  | _ => none

/-- Writes that a collective has made (R248). -/
def Awaited.ofColl (order : Nat) (a : Awaited) : Bool := a.collPart.any (fun x => x.1 == order)

/-- Of them, those of the header and the planes of a tile that its counter shows (R355, R357). -/
def Awaited.ofTile (order tile count : Nat) (a : Awaited) : Bool :=
  a.collPart.any (fun x => x.1 == order && x.2 / 32 == tile && decide (x.2 % 32 < count))

/-- The body of COLLW (R352). -/
def State.collWait (s : State) (d a : BitVec 5) (cancel : Bool) : Except Stop State := do
  s.only [.ctl]
  s.scalars [d.toNat, a.toNat]
  let x ← s.src a.toNat
  let id := bitsOf x.1.toNat 3 0
  match s.cur.heldColl id with
  | none => .error (.trap 0x27)
  | some k =>
    match k.ended with
    | some w =>
      let s1 := (s.pop [a.toNat]).joins s.curCore s.curSq (Awaited.ofColl k.order)
      .ok (((s1.modCur (fun c => c.modColl id (fun k => { k with held := false }))).put d.toNat (w.setWidth 64) 0).retire 2)
    | none =>
      if cancel then
        .ok ((s.modCur (fun c => c.modColl id (fun k => { k with cancelling := true }))).awaitMark .other .cancelled)
      else .error (.wait .other)

/-- COLLW (R352). -/
def execCollw (d a : BitVec 5) (s : State) : Host.Outcome State Fault Refusal := finish s (s.collWait d a false)
/-- COLLW with cancel (R352). -/
def execCollwCancel (d a : BitVec 5) (s : State) : Host.Outcome State Fault Refusal := finish s (s.collWait d a true)

/-- The slot type that a collective's reduction needs (R350). -/
def Coll.slotType (c : Coll) : Nat := if c.louvre then 0 else if c.fmt = 3 then 2 else 1

/-- A slot of the context that no collective uses and whose type matches (R350). -/
def State.heldSlot (s : State) (ctx type : Nat) : Option Nat :=
  let used := s.cores.flatMap (fun (p : Nat × Core) =>
    if (p.2.task.map Task.ctx) = some ctx then p.2.colls.filterMap (fun x => x.2.slot) else [])
  let slots := ((Store.find? s.ctxs ctx).map Context.slots).getD []
  (List.range slots.length).find? (fun i => !used.contains i && ((slots[i]?).map Prod.fst) == some type)

/-- What a collective shows the other members (R350). -/
def Coll.words (k : Coll) : CollWords := ⟨k.channel, k.nth, k.l1, k.l2, k.fmt, k.extents, k.louvre, k.exchange, litKind k.lit⟩

/-- Every other member of a group has issued the COLL that belongs to a collective: the same number on the same channel (R350). -/
def Coll.met (k : Coll) (g : Group) (members : List (Nat × CollWords)) : Bool :=
  (List.range g.size).all (fun r => r == g.rank || members.any (fun m => m.1 == r && m.2.channel == k.channel && m.2.nth == k.nth))

/-- COLLECTIVE_RENDEZVOUS (R350, R351, R354): every member has issued. A mismatch or an illegal pair ends the
collective, a reduction takes its slot, and it starts. A member that cannot be reached ends the task (R339). One that is being
cancelled does not start (R352). -/
def execCollectiveRendezvous (core id : Nat) (members : List (Nat × CollWords)) (reachable : Bool) (s : State) :
    Host.Outcome State Fault Refusal :=
  .next (
    let c := s.core core
    match Store.find? c.colls id, c.task with
    | some k, some t =>
      if k.started || k.ended.isSome || k.cancelling then s
      else
        if !reachable || !s.reachesAll t.part t.group then s.failTask core 0xC4
        else if !k.met t.group members then s
        else
          let axes := t.group.axes
          match layoutSteps axes k.l1 k.l2 k.extents with
          | none => s.endColl core id 0xC0
          | some xs =>
            if !members.all (fun m => m.2 == k.words) || ((k.louvre || k.exchange) && (k.step axes).isNone) then s.endColl core id 0xC0
            else
              let start := fun (s : State) (d : Option Bool) (h : Option Nat) =>
                s.modCore core (fun c => c.modColl id (fun k => { k with started := true, drawn := d, slot := h }))
              if k.exchange || !xs.any FabricStep.reduces then start s none none
              else match s.heldSlot t.ctx k.slotType with
                | some h => start s none (some h)
                | none => match s.takeSlots t.part 1 with
                  | some (s0, 1) => start s0 (some true) none
                  | some (s0, _) => start (s0.drew ⟨s.cycle, t.part, core, some id, t.ctx, 0, 0, 0, []⟩) (some false) none
                  | none => s.endColl core id 0xC1
    | _, _ => s)

/-- The collective's accesses may take place. -/
def Core.collMoves (c : Core) (k : Coll) : Bool :=
  k.started && k.ended.isNone && k.fault.isNone && !c.blocked k.loadDeps && !c.stores.any (fun x => k.storeDeps.contains x.id)

/-- A collective stops at what an access of it has met (R282, R283). -/
def State.collStop (s : State) (n id : Nat) : Stop → State
  | .fault i => s.engineFault n (.coll n id) i (fun f c => c.modColl id (fun k => { k with fault := some f }))
  | .trap c => s.failTask n c
  | _ => s

/-- Reads bytes of a collective's source. -/
def State.collRead (s : State) (n : Nat) (h : BitVec 256) (off len : Nat) : Except Stop (State × List Byte) := do
  let (s1, ls) ← s.engineLocate n h off len .read true ((s.core n).mapping .ctl)
  let bs ← s1.engineRead ls
  .ok (s1.observed s1.writes ls, bs)

/-- Writes a part of a collective's result to its destination. -/
def State.collWrite (s : State) (n order part : Nat) (h : BitVec 256) (off : Nat) (bs : List Byte) : Except Stop State := do
  let (s1, ls) ← s.engineLocate n h off bs.length .write true ((s.core n).mapping .ctl)
  s1.engineMay ls
  .ok (s1.writeEngine n (.coll order part) (ls.zip bs))

/-- The linear index of an index tuple, dimension 0 fastest. -/
def linear (es is : List Nat) : Nat := meshRank es is

/-- The value of an element: that of a leaf, reduced over axes in ascending order; the list gives them in descending
order (R347, R351). Each sum is told from the others by its axis and the place of its members. -/
def reduceAxes (leaf : List Nat → Nat) (add : Nat → List Nat → Nat) (axes : List Nat) : List Nat → List Nat → Nat
  | [], cs => leaf cs
  | a :: as, cs => add (a * 64 + meshRank axes (cs.set a 0)) ((List.range (axes.getD a 1)).map (fun i => reduceAxes leaf add axes as (cs.set a i)))

/-- Adds contributions in their order of arrival, rounding as the switch does (R351). -/
def switchAdd (fmt : Nat) (xs : List Nat) : Nat :=
  match fmt with
  | 3 => xs.foldl (· + ·) 0 % 2 ^ 32
  | 7 => xs.foldl (fun a v => (fp32.add .rne a v).1) 0
  | _ =>
    let f := (fpOf fmt).getD fp32
    (convertFp fp32 f .rne (xs.foldl (fun a v => (fp32.add .rne a (convertFp f fp32 .rne v).1).1) 0)).1

/-- The place in the whole tensor of element i of this module's destination part (R345). -/
def Coll.wholeIndex (k : Coll) (g : Group) (i : Nat) : List Nat :=
  let p2 := partExtents g.axes k.l2 k.extents
  let here := coords p2 i
  (List.range p2.length).map (fun d => here.getD d 0 + shardIndex g.axes (meshCoords g.axes g.rank) (layoutShard k.l2 d) * p2.getD d 1)

/-- Where element i of this module's destination part comes from: the coordinates of a holder, and the element's index in its
source part (R345, R347). -/
def Coll.sourceOf (k : Coll) (g : Group) (i : Nat) : List Nat × Nat :=
  let axes := g.axes
  let me := meshCoords axes g.rank
  let p1 := partExtents axes k.l1 k.extents
  let there := k.wholeIndex g i
  ((List.range 4).map (fun a => match axisRole k.l1 a with
    | .sharded d => shardCoord axes (layoutShard k.l1 d) a (there.getD d 0 / p1.getD d 1)
    | _ => me.getD a 0),
   linear p1 ((List.range p1.length).map (fun d => there.getD d 0 % p1.getD d 1)))

/-- Element i of the destination part of a module, from the source parts of all: contribution `only` where the members
of an exchange are kept apart (R347, R351). -/
def State.collElement (s : State) (k : Coll) (g : Group) (parts : Nat → List Byte) (only : Option Nat) (i : Nat) : Nat :=
  let axes := g.axes
  let (src, e) := k.sourceOf g i
  let leaf := fun (cs : List Nat) => numOf (((parts (meshRank axes cs)).drop (e * k.esz)).take k.esz)
  let reduced := ((axesOf (layoutSums k.l1)).filter (fun a => !(layoutSums k.l2).testBit a)).reverse
  match only with
  | some j => leaf (reduced.foldl (fun cs a => cs.set a j) src)
  | none => reduceAxes leaf (fun sum xs => switchAdd k.fmt (s.arrival (i * 256 + sum) xs)) axes reduced src

/-- What a collective writes to this module's destination (R347, R351). -/
def State.collResult (s : State) (k : Coll) (g : Group) (parts : Nat → List Byte) : List Byte :=
  let n := k.dstElems g.axes
  let piece := fun (only : Option Nat) => (List.range n).flatMap (fun i => bytesOf k.esz (s.collElement k g parts only i))
  if k.exchange then (List.range (k.copies g.axes)).flatMap (fun j => piece (some j)) else piece none

/-- The bytes of a louvre tile: exponents, selectors and planes of 64 blocks (Table 11-12). -/
def tileBytes (bs : List KbfBlock) : List Byte :=
  let es := bs.flatMap KbfBlock.elems
  let bits := fun (f : Nat → Bool) => bytesOf 256 (packLanes 1 (es.map (fun e => (f e).toNat)))
  bs.flatMap (fun b => [BitVec.ofNat 8 b.e0, BitVec.ofNat 8 b.e1]) ++ bits (fun e => e.testBit 15)
    ++ (List.range 15).flatMap (fun p => bits (fun e => e.testBit (14 - p)))

/-- Bit e of a run of bytes. -/
def bitAt (bs : List Byte) (e : Nat) : Bool := (bs.getD (e / 8) 0).getLsbD (e % 8)

/-- Block b of a louvre tile, as a prefix of n planes (R356). -/
def tileBlock (t : List Byte) (n b : Nat) : KbfBlock :=
  let at' := fun (i : Nat) => (t.getD i 0).toNat
  let sel := t.drop 0x80
  let planes := (List.range n).map (fun p => t.drop (0x180 + p * 0x100))
  ⟨at' (2 * b), at' (2 * b + 1), (List.range 32).map (fun i =>
    let e := 32 * b + i
    (planes.zipIdx.foldl (fun (v : Nat) p => if bitAt p.1 e then v + 2 ^ (14 - p.2) else v) 0) + (if bitAt sel e then 2 ^ 15 else 0))⟩

/-- The exponent that element i of a block selects. -/
def KbfBlock.exp (b : KbfBlock) (i : Nat) : Nat := if (b.elems.getD i 0).testBit 15 then b.e1 else b.e0

/-- The block that the switch forms from the blocks of N contributors (R359). -/
def switchBlock (c : Nat) (bs : List KbfBlock) : KbfBlock :=
  let nan := fun (b : KbfBlock) => (List.range 32).any (fun i => b.exp i == 0xFF)
  let top := (bs.filter (fun b => !nan b)).foldl (fun m b => Nat.max m b.e0) 0
  let er := Nat.min 0xFE (top + 2 * c)
  let es := (List.range 32).map (fun i =>
    if bs.any (fun b => b.exp i == 0xFF) then none
    else
      let sum := bs.foldl (fun (v : Int) b => v + signedOf 15 (b.elems.getD i 0) * (2 ^ b.exp i : Nat)) 0
      some (max (-(2 ^ 14 : Int)) (min (sum / ((2 ^ er : Nat) : Int)) (2 ^ 14 - 1))))
  ⟨if es.any Option.isNone then 0xFF else er, er, es.map (fun x => match x with
    | none => 0
    | some r => (r % ((2 ^ 15 : Nat) : Int)).toNat + 2 ^ 15)⟩

/-- ⌈log2 N⌉. -/
def ceilLog (n : Nat) : Nat := if n ≤ 1 then 0 else Nat.log2 (n - 1) + 1

/-- The source elements that tile t is formed from, in the order of the destination part, and for a gather the coordinate of
their source (R347, R354): the whole module part that L2 assigns is cut into tiles (log 33). -/
def Coll.tileElems (k : Coll) (g : Group) (t : Nat) : List Nat × Option Nat :=
  let n := k.dstElems g.axes
  match k.step g.axes with
  | some (.allGather a _) =>
    let per := tilesOf (k.shareElems g.axes a)
    let mine := ((List.range n).map (k.sourceOf g)).filter (fun x => x.1.getD a 0 == t / per)
    (((mine.drop (2048 * (t % per))).take 2048).map Prod.snd, some (t / per))
  | _ => (((List.range n).drop (2048 * t)).take 2048 |>.map (fun i => (k.sourceOf g i).2), none)

/-- A block of no elements: +0 in each place. -/
def KbfBlock.zero : KbfBlock := ⟨0, 0, List.replicate 32 (2 ^ 15)⟩

/-- Block of the elements of a list, 32 or fewer, from the blocks of a KBF16 part whose first is number `first`: a block of the
part as it is, with +0 past the elements, or, where the elements lie otherwise, encoded anew from their values, which FP32 holds
exactly (R354; log 33). -/
def gatherBlock (bs : List KbfBlock) (first : Nat) (es : List Nat) : KbfBlock :=
  let at' := fun (e : Nat) => bs.getD (e / 32 - first) KbfBlock.zero
  match es with
  | [] => KbfBlock.zero
  | e :: _ =>
    if e % 32 = 0 ∧ es = (List.range es.length).map (e + ·) then
      let b := at' e
      { b with elems := b.elems.take es.length ++ List.replicate (32 - es.length) (2 ^ 15) }
    else (kbfEncode 2 fp32 (es.map (fun e => (kbfDecode 2 (at' e) (e % 32) fp32 .rne).1) ++ List.replicate (32 - es.length) 0)).1

/-- A louvre tile of elements of this module's source (R354): encoded by R53 and R54, or the blocks of a KBF16 source; +0 past
the elements. -/
def State.sourceTile (s : State) (n : Nat) (k : Coll) (es : List Nat) : Except Stop (State × List Byte) := do
  let lo := es.foldl Nat.min (es.headD 0)
  let hi := es.foldl Nat.max 0
  let block := fun (b : Nat) => (es.drop (32 * b)).take 32
  if es.isEmpty then .ok (s, tileBytes (List.replicate 64 KbfBlock.zero))
  else if k.fmt = 10 then do
    let first := lo / 32
    let count := hi / 32 + 1 - first
    let j := k.soff / 64 + first
    let (s1, bs) ← s.collRead n k.src (64 * j) (64 * count)
    let (s2, hs) ← s1.collRead n k.src (hLen k.src / 66 * 64 + 2 * j) (2 * count)
    let at' := fun (i : Nat) => (hs.getD i 0).toNat
    let blocks := (List.range count).map (fun b => kbfBlock 2 ((bs.drop (64 * b)).take 64) (at' (2 * b)) (at' (2 * b + 1)))
    .ok (s2, tileBytes ((List.range 64).map (fun b => gatherBlock blocks first (block b))))
  else do
    let (s1, bs) ← s.collRead n k.src (k.soff + lo * k.esz) ((hi + 1 - lo) * k.esz)
    let value := fun (e : Nat) => numOf ((bs.drop ((e - lo) * k.esz)).take k.esz)
    .ok (s1, tileBytes ((List.range 64).map (fun b =>
      (kbfEncode 2 ((fpOf k.fmt).getD fp32) ((block b).map value ++ List.replicate (32 - (block b).length) 0)).1)))

/-- A louvre collective has landed everything that its cuts let land. -/
def Coll.landed (k : Coll) : Bool := (k.counters.zip k.cuts).all (fun p => decide (Nat.min 16 (1 + p.2) ≤ p.1))

/-- The steps of a collective in the order in which they run: reductions, all-to-alls, gathers, each in ascending order of axes (R347). -/
def Coll.run (k : Coll) (axes : List Nat) : List FabricStep :=
  let xs := (layoutSteps axes k.l1 k.l2 k.extents).elim [] traffic
  let isGather := fun (x : FabricStep) => match x with | .allGather _ _ => true | _ => false
  xs.filter FabricStep.reduces ++ xs.filter (fun x => !x.reduces && !isGather x) ++ xs.filter isGather

/-- Elements that a step sends from a part of e elements, those that it receives, and those of the part that it leaves. The switch
reduces, and passes on to each member what it is to have (R347, R351, R354). -/
def FabricStep.flow (axes : List Nat) (e : Nat) (x : FabricStep) : Nat × Nat × Nat :=
  let n := Nat.max 1 (axes.getD x.axis 1)
  if n = 1 then (0, 0, e)
  else match x with
    | .allReduce _ => (e, e, e)
    | .reduceScatter _ _ => (e, e / n, e / n)
    | .allToAll _ _ _ => (e / n * (n - 1), e / n * (n - 1), e)
    | .allGather _ _ => (e, e * (n - 1), e * n)
    | .slice _ _ => (0, 0, e / n)

/-- Bytes that each step of a collective sends and receives, but of those on an axis of one module, which has nobody to send to: of
the louvre transport whole tiles, of an exchange what the others contribute, else the step's elements (R347, R351, R354). -/
def Coll.flows (k : Coll) (axes : List Nat) : List (Nat × Nat) :=
  let all : List (Nat × Nat) := match k.louvre, k.step axes with
  | true, some x =>
    let n := Nat.max 1 (axes.getD x.axis 1)
    let all := k.tiles axes
    if n = 1 then []
    else match x with
      | .allGather _ _ => [(all / n * 4224, all / n * (n - 1) * 4224)]
      | .reduceScatter _ _ => [(all * n * 4224, all * 4224)]
      | _ => [(all * 4224, all * 4224)]
  | _, _ =>
    if k.exchange then (if k.copies axes ≤ 1 then [] else [(k.srcBytes axes, (k.copies axes - 1) * k.dstElems axes * k.esz)])
    else ((k.run axes).foldl (fun (acc : Nat × List (Nat × Nat)) (x : FabricStep) =>
      let (o, i, e) := x.flow axes acc.1
      (e, acc.2 ++ [(o * k.esz, i * k.esz)])) (k.srcElems axes, [])).2
  all.filter (fun f => f.1 != 0 || f.2 != 0)

/-- Chunks of 4 KiB in so many bytes (R341). -/
def chunksOf (bytes : Nat) : Nat := (bytes + 4095) / 4096

/-- Bytes of each step: those that it sends, and then those that it receives (R341). -/
def Coll.plan (k : Coll) (axes : List Nat) : List (Nat × Bool) := (k.flows axes).flatMap (fun f => [(f.1, true), (f.2, false)])

/-- Chunks of a collective, in all; of its first step those that it sends, and of its last those that it receives. -/
def Coll.allChunks (k : Coll) (axes : List Nat) : Nat := ((k.plan axes).map (fun p => chunksOf p.1)).foldl (· + ·) 0
def Coll.outChunks (k : Coll) (axes : List Nat) : Nat := ((k.plan axes).head?.map (fun p => chunksOf p.1)).getD 0
def Coll.lastChunks (k : Coll) (axes : List Nat) : Nat := ((k.plan axes).getLast?.map (fun p => chunksOf p.1)).getD 0

/-- The bytes of chunk j of a plan, and whether it is sent. -/
def chunkAt : List (Nat × Bool) → Nat → Nat × Bool
  | [], _ => (0, false)
  | (n, out) :: rest, j => if j < chunksOf n then (Nat.min 4096 (n - 4096 * j), out) else chunkAt rest (j - chunksOf n)

/-- A collective sends and receives chunks over the fabric (R341, R347). -/
def Coll.travels (k : Coll) (g : Group) : Bool := decide (1 < g.size) && k.allChunks g.axes != 0

/-- Every chunk of a collective has passed through its share. -/
def Coll.passedAll (k : Coll) (g : Group) : Bool := !k.travels g || (k.chunks.isEmpty && decide (k.allChunks g.axes ≤ k.passed))

/-- Chunks that a partition's cistern shares hold, and those that they have room for (R341). -/
def State.chunksHeld (s : State) (part : Nat) : Nat :=
  (s.cores.map (fun (p : Nat × Core) => if (p.2.task.map Task.part) = some part then (p.2.colls.map (fun (x : Nat × Coll) => x.2.chunks.length)).foldl (· + ·) 0 else 0)).foldl (· + ·) 0
def State.chunkRoom (s : State) (part : Nat) : Nat := ((s.partition part).elim [] Partition.cistern).foldl (· + ·) 0 * 16384

/-- The elements of this module's source in tile t of what a louvre collective sends: for a reduce-scatter the tiles of each member
in turn (R354, R358). -/
def Coll.sentElems (k : Coll) (g : Group) (t : Nat) : List Nat :=
  let all := k.tiles g.axes
  let me := meshCoords g.axes g.rank
  match k.step g.axes with
  | some (.allGather a _) => (k.tileElems g (me.getD a 0 * (all / Nat.max 1 (g.axes.getD a 1)) + t)).1
  | some (.reduceScatter a _) => (k.tileElems { g with rank := meshRank g.axes (me.set a (t / Nat.max 1 all)) } (t % Nat.max 1 all)).1
  | _ => (k.tileElems g t).1

/-- The tiles of what a louvre collective sends from number t on. -/
def State.sentTiles (s : State) (n : Nat) (k : Coll) (g : Group) : Nat → Nat → Except Stop (State × List Byte)
  | _, 0 => .ok (s, [])
  | t, m + 1 => do
    let (s1, bs) ← s.sourceTile n k (k.sentElems g t)
    let (s2, rest) ← State.sentTiles s1 n k g (t + 1) m
    .ok (s2, bs ++ rest)

/-- The elements of this module's source that an all-to-all sends, where that is the first step: those that its own destination does
not take; none where the first step sends the whole source (R347). -/
def Coll.sends (k : Coll) (g : Group) : Option (List Nat) :=
  let kept := fun (_ : Unit) => ((List.range (k.dstElems g.axes)).map (k.sourceOf g)).filter (fun x => x.1 == meshCoords g.axes g.rank) |>.map Prod.snd
  match k.louvre || k.exchange, (k.run g.axes).filter (fun x => decide (1 < g.axes.getD x.axis 1)) with
  | false, .allToAll _ _ _ :: _ => some ((List.range (k.srcElems g.axes)).filter (fun e => !(kept ()).contains e))
  | _, _ => none

/-- What chunk j of a collective holds: of its first step's own data the bytes of its source, or of the tiles made from them; of what
it receives the bytes that the fabric brings; what an intermediate placement holds, which is not architectural, is a free value
where it is sent on (R341, R347, R354; log 33). -/
def State.chunkOf (s : State) (n : Nat) (k : Coll) (g : Group) (j : Nat) (data : List Byte) : Except Stop (State × List Byte) :=
  let (len, out) := chunkAt (k.plan g.axes) j
  let filled := fun (bs : List Byte) => (bs ++ List.replicate len 0).take len
  if !out then .ok (s, filled data)
  else if k.outChunks g.axes ≤ j then .ok (s.draw, filled (Config.chunkBytes s.draws))
  else if k.louvre then do
    let first := 4096 * j / 4224
    let (s1, bs) ← s.sentTiles n k g first 2
    .ok (s1, (bs.drop (4096 * j - 4224 * first)).take len)
  else match k.sends g with
    | none => s.collRead n k.src (k.soff + 4096 * j) len
    | some es => do
      let (s1, bs) ← s.collRead n k.src k.soff (k.srcBytes g.axes)
      .ok (s1, filled ((es.flatMap (fun e => (bs.drop (e * k.esz)).take k.esz)).drop (4096 * j)))

/-- This module's source part, as its chunks have carried it where it has left in them, else as it stands (R341, R347). -/
def State.ownPart (s : State) (n : Nat) (k : Coll) (g : Group) : Except Stop (State × List Byte) :=
  match k.travels g, k.sends g with
  | true, none => .ok (s, k.gone)
  | true, some es => do
    let (s1, bs) ← s.collRead n k.src k.soff (k.srcBytes g.axes)
    .ok (s1, (List.range (k.srcElems g.axes)).flatMap (fun e => match es.findIdx? (· == e) with
      | some i => (k.gone.drop (i * k.esz)).take k.esz
      | none => (bs.drop (e * k.esz)).take k.esz))
  | false, _ => s.collRead n k.src k.soff (k.srcBytes g.axes)

/-- The collective without its slices: what its steps but those leave (R347). -/
def Coll.unsliced (k : Coll) (axes : List Nat) : Coll :=
  { k with l2 := ((layoutSteps axes k.l1 k.l2 k.extents).getD []).foldl (fun (v : Word) x => match x with
      | .slice a d => v - BitVec.ofNat 64 (2 ^ (4 * d + a))
      | _ => v) k.l2 }

/-- The elements of what a collective leaves before its slices that its last step brings, in the order in which the chunks bring
them: all that a reduction leaves, else those that another module holds (R347; the order is the model's, log 33). -/
def Coll.brings (k : Coll) (g : Group) : List Nat :=
  let u := k.unsliced g.axes
  let all := List.range (u.dstElems g.axes)
  match ((k.run g.axes).filter (fun x => decide (1 < g.axes.getD x.axis 1))).getLast? with
  | none => []
  | some x => if x.reduces then all else all.filter (fun e => (u.sourceOf g e).1.getD x.axis 0 != (meshCoords g.axes g.rank).getD x.axis 0)

/-- Where element i of the destination part stands before the slices, where this module then holds it. -/
def Coll.before (k : Coll) (g : Group) (i : Nat) : Option Nat :=
  let u := k.unsliced g.axes
  let ps := partExtents g.axes u.l2 k.extents
  let there := k.wholeIndex g i
  if (List.range ps.length).all (fun d => there.getD d 0 / ps.getD d 1 == shardIndex g.axes (meshCoords g.axes g.rank) (layoutShard u.l2 d))
  then some (linear ps ((List.range ps.length).map (fun d => there.getD d 0 % ps.getD d 1))) else none

/-- What lands is what the chunks of the last step have brought (R341, R347, R351). -/
def Coll.brought (k : Coll) (g : Group) (result : List Byte) : Bool :=
  if !k.travels g then true
  else if k.exchange then
    let mine := ((k.step g.axes).map (fun x => (meshCoords g.axes g.rank).getD x.axis 0)).getD 0
    let one := k.dstElems g.axes * k.esz
    k.come == result.take (mine * one) ++ result.drop ((mine + 1) * one)
  else
    let es := k.brings g
    (List.range (k.dstElems g.axes)).all (fun i => match (k.before g i).bind (fun e => es.findIdx? (· == e)) with
      | none => true
      | some j => decide (k.come.length < (j + 1) * k.esz) || (k.come.drop (j * k.esz)).take k.esz == (result.drop (i * k.esz)).take k.esz)

/-- The members that the steps of a collective need: those that agree with this module on every axis that has no step (R347). -/
def Coll.partners (k : Coll) (g : Group) : List Nat :=
  let axes := (k.run g.axes).map FabricStep.axis
  let me := meshCoords g.axes g.rank
  (List.range g.size).filter (fun r => r != g.rank && (List.range 4).all (fun a => axes.contains a || (meshCoords g.axes r).getD a 0 == me.getD a 0))

/-- A collective that still needs the fabric has lost a member that it needs: no owned port reaches it (R339). -/
def State.cutOff (s : State) (part : Nat) (k : Coll) (g : Group) : Bool :=
  k.travels g && !k.passedAll g && (k.partners g).any (fun r => !s.reachesPeer part r)

/-- The ports over which a collective's chunks are striped: those that reach all the members it needs, or, where none does, all that
are open (R339; log 33). -/
def State.collPorts (s : State) (part : Nat) (k : Coll) (g : Group) : List Nat :=
  let ports := s.openPorts part
  let whole := ports.filter (fun p => (k.partners g).all (fun r => !s.peersDown.contains (r, p)))
  if whole.isEmpty then ports else whole

/-- A chunk leaves in a frame on the next of some ports (R337, R339). A frame carries at least 16 bytes: a shorter chunk is filled
with zeros (DESIGN CHOICE, log 33). -/
def State.frameOut (s : State) (ports : List Nat) (part j : Nat) (bs : List Byte) : State :=
  match ports[j % Nat.max 1 ports.length]? with
  | none => s
  | some port => match s.sealFrame part port (bs ++ List.replicate (16 - bs.length) 0) with
    | none => s
    | some (t, f, tag) => t.reply (.frame port f tag)

/-- A chunk of a collective enters its partition's share, where there is room, or leaves it: one that is sent leaves in a frame on
the next port (R339, R341). Where a member that it needs cannot be reached any more the task ends with 0xC4 (R339); one that fails
its tag, or is beyond correction, ends the task (R315, R373). -/
def State.moveChunk (s : State) (core id : Nat) (enters : Bool) (data : List Byte) : State :=
  let c := s.core core
  match Store.find? c.colls id, c.task with
  | some k, some t =>
    let axes := t.group.axes
    let j := k.passed + k.chunks.length
    let change := fun (s : State) (f : Coll → Coll) => s.modCore core (fun c => { c.modColl id f with lastActive := s.cycle })
    if !c.collMoves k || !k.travels t.group then s
    else if s.cutOff t.part k t.group then s.failTask core 0xC4
    else if enters then
      if decide (k.allChunks axes ≤ j) || decide (s.chunkRoom t.part ≤ s.chunksHeld t.part) then s
      else match s.chunkOf core k t.group j data with
        | .error e => s.collStop core id e
        | .ok (s1, bs) => change s1 (fun k => { k with chunks := k.chunks ++ [bs] })
    else match k.chunks with
      | [] => s
      | bs :: _ =>
        if k.spoiled.isSome then s.failTask core (k.spoiled.getD 0)
        else
          let sends := (chunkAt (k.plan axes) k.passed).2
          change (if sends then s.frameOut (s.collPorts t.part k t.group) t.part k.passed bs else s) (fun k => { k with
            chunks := k.chunks.drop 1, passed := k.passed + 1,
            gone := if k.passed < k.outChunks axes then k.gone ++ bs else k.gone,
            come := if !sends && decide (k.allChunks axes ≤ k.passed + k.lastChunks axes) then k.come ++ bs else k.come })
  | _, _ => s

/-- COLLECTIVE_COMPLETION (R350 to R353): the collective ends at this member. With status 0 it has run to completion,
with the source parts of the other members as they gave them, every chunk through the cistern, and what the chunks have brought; where
a member that it needs is cut off before that, the task ends with 0xC4 (R339). Another status is one with which a member or the fabric has
ended it. A cancel of this member ends it with CANCELLED, whatever else. -/
def execCollectiveCompletion (core id status : Nat) (peers : List (Nat × List Byte)) (s : State) : Host.Outcome State Fault Refusal :=
  .next (
    let c := s.core core
    match Store.find? c.colls id with
    | none => s
    | some k =>
      if k.ended.isSome then s
      else if k.cancelling then s.endColl core id 0x100
      else if status ≠ 0 then
        if [0x100, 0x74, 0x93, 0xC0, 0xC1, 0xC2].contains status then s.endColl core id (BitVec.ofNat 9 status) else s
      else if !c.collMoves k then s
      else if s.cutOff (c.who core).part k c.group then s.failTask core 0xC4
      else if k.louvre then (if k.landed then s.endColl core id 0 else s)
      else
        let g := c.group
        let n := k.srcBytes g.axes
        let given := k.passedAll g && (List.range g.size).all (fun r => r == g.rank || peers.any (fun p => p.1 == r && p.2.length == n))
        if !given then s
        else match s.ownPart core k g with
          | .error e => s.collStop core id e
          | .ok (s1, mine) =>
            let parts := fun (r : Nat) => if r = g.rank then mine else ((peers.find? (fun p => p.1 == r)).map Prod.snd).getD []
            let result := s.collResult k g parts
            if !k.brought g result then s
            else match s1.collWrite core k.order 0 k.dst k.doff result with
            | .error e => s.collStop core id e
            | .ok s2 => s2.endColl core id 0)

/-- Forms destination tile t from this module's contribution and those of its peers (R358, R359). The consumers of an all-reduce
are all its members, those of a reduce-scatter this module alone; the other consumers' largest cut, and how far beyond what the
cuts ask a contributor has sent, are free values. -/
def State.formTile (s : State) (n : Nat) (k : Coll) (t : Nat) (peers : List (Nat × List Byte)) :
    Except Stop (State × Option (List Byte)) :=
  let g := (s.core n).group
  match k.step g.axes with
  | none => .ok (s, none)
  | some step =>
    let me := meshCoords g.axes g.rank
    let a := step.axis
    let size := g.axes.getD a 1
    let from' := fun (i : Nat) => ((peers.find? (fun p => p.1 == meshRank g.axes (me.set a i) && p.2.length == 4224)).map Prod.snd)
    let (es, source) := k.tileElems g t
    match source with
    | some i =>
      if i = me.getD a 0 then do
        let (s1, x) ← s.sourceTile n k es
        .ok (s1, some x)
      else .ok (s, from' i)
    | none =>
      let others := ((List.range size).filter (· != me.getD a 0)).map from'
      let u := match step with | .reduceScatter _ _ => me.getD a 0 * k.tiles g.axes + t | _ => t
      let own := if k.travels g then .ok (s, (k.gone.drop (4224 * u)).take 4224) else s.sourceTile n k es
      if others.any Option.isNone then .ok (s, none)
      else do
        let (s1, x) ← own
        let c := ceilLog size
        let cut := Nat.min 15 (k.cuts.getD t 15)
        let all := match step with
          | .allReduce _ => if 1 < size then Nat.max cut (Config.pick (s.draws + 2 ^ 81) % 16) else cut
          | _ => cut
        let least := Nat.max 1 (all - c)
        let sent := least + Config.pick (s.draws + 2 ^ 80) % (16 - least)
        .ok (s1, some (tileBytes ((List.range 64).map (fun b =>
          switchBlock c (tileBlock x sent b :: (others.filterMap id).map (fun o => tileBlock o 15 b))))))

/-- The header group of a louvre tile, or plane n of it, with its place in the tile (Table 11-12). -/
def planeOf (t : List Byte) (n : Nat) : Nat × List Byte :=
  if n = 0 then (0, t.take 0x180) else (0x180 + (n - 1) * 0x100, (t.drop (0x180 + (n - 1) * 0x100)).take 0x100)

/-- Where the chunks bring tile t of the destination: one after another, but for those of this module's own source, which it holds
(R347, R354). -/
def Coll.tilePlace (k : Coll) (g : Group) (t : Nat) : Option Nat :=
  match k.travels g, k.step g.axes with
  | false, _ => none
  | true, some (.allGather a _) =>
    let per := tilesOf (k.shareElems g.axes a)
    let me := (meshCoords g.axes g.rank).getD a 0
    if t / Nat.max 1 per = me then none else some (4224 * (if me * per < t then t - per else t))
  | true, _ => some (4224 * t)

/-- A run of bytes of tile t may land: the chunks that bring it have passed through the cistern, and it is what they have brought
(R341). -/
def Coll.tileCame (k : Coll) (g : Group) (t off : Nat) (bs : List Byte) : Bool :=
  match k.tilePlace g t with
  | none => true
  | some p => (k.come.drop (p + off)).take bs.length == bs

/-- PLANE_LANDING (R354 to R358): the header group of a tile lands, or its next plane, where no cut stops it and the chunks that
hold it have passed through the cistern (R341); the tile's counter advances. Where a member that the collective needs is cut off
before all its chunks have passed the task ends with 0xC4 (R339). -/
def execPlaneLanding (core id tile : Nat) (peers : List (Nat × List Byte)) (s : State) : Host.Outcome State Fault Refusal :=
  .next (
    let c := s.core core
    match Store.find? c.colls id with
    | none => s
    | some k =>
      match k.counters[tile]? with
      | none => s
      | some n =>
        if !c.collMoves k || decide (16 ≤ n) || decide (1 ≤ n ∧ k.cuts.getD tile 15 < n) then s
        else if s.cutOff (c.who core).part k c.group then s.failTask core 0xC4
        else
          let tile' := match Store.find? k.formed tile with
            | some t => Except.ok (s, some t)
            | none => s.formTile core k tile peers
          match tile' with
          | .error e => s.collStop core id e
          | .ok (_, none) => s
          | .ok (s1, some t) =>
            let (off, bs) := planeOf t n
            if !k.tileCame c.group tile off bs then s
            else match s1.collWrite core k.order (32 * tile + n) k.dst (k.doff + 4224 * tile + off) bs with
            | .error e => s.collStop core id e
            | .ok s2 => s2.modCore core (fun c => { c.modColl id (fun k =>
                { k with counters := k.counters.set tile (n + 1), formed := Store.put tile t k.formed }) with lastActive := s.cycle }))

/-- The selector of a tile (R357): the id and the tile; other bits are refused. -/
def tileSelector (v : Word) : Except Stop (Nat × Nat) := do
  need (decide (v.toNat < 2 ^ 12)) 0x02
  .ok (bitsOf v.toNat 3 0, bitsOf v.toNat 11 4)

/-- The counter of a tile, where the collective keeps one (R355). -/
def Core.tileCount (c : Core) (id tile : Nat) : Option Nat := (Store.find? c.colls id).bind (fun k => k.counters[tile]?)

/-- PLWAIT (R357): it joins what the counter shows. -/
def execPlwait (a n : BitVec 5) (s : State) : Host.Outcome State Fault Refusal :=
  finish s (do
    need (wfPlanes n) 0x02
    s.scalars [a.toNat]
    let x ← s.src a.toNat
    let (id, tile) ← tileSelector x.1
    match Store.find? s.cur.colls id, s.cur.tileCount id tile with
    | some k, some c =>
      if n.toNat ≤ c then
        .ok (((s.pop [a.toNat]).joins s.curCore s.curSq (Awaited.ofTile k.order tile c)).retire 2)
      else if k.ended.isSome then .error (.trap 0x27) else .error (.wait .other)
    | _, _ => .error (.trap 0x27))
/-- PLCNT (R357). -/
def execPlcnt (d a : BitVec 5) (s : State) : Host.Outcome State Fault Refusal :=
  finish s (do
    s.scalars [d.toNat, a.toNat]
    let x ← s.src a.toNat
    let (id, tile) ← tileSelector x.1
    match s.cur.tileCount id tile with
    | none => .error (.trap 0x27)
    | some c => .ok (((s.pop [a.toNat]).put d.toNat (BitVec.ofNat 64 c) 0).retire 2))
/-- PLCUT (R357): tile 0xFF is every tile. -/
def execPlcut (a : BitVec 5) (n : BitVec 4) (s : State) : Host.Outcome State Fault Refusal :=
  finish s (do
    s.only [.ctl]
    s.scalars [a.toNat]
    let x ← s.src a.toNat
    let (id, tile) ← tileSelector x.1
    let count := ((Store.find? s.cur.colls id).map (fun k => k.counters.length)).getD 0
    need (if tile = 0xFF then count != 0 else decide (tile < count)) 0x27
    let cut := fun (k : Coll) => { k with cuts := k.cuts.zipIdx.map (fun p =>
      if tile = 0xFF ∨ p.2 = tile then Nat.min p.1 n.toNat else p.1) }
    .ok (((s.pop [a.toNat]).modCur (fun c => c.modColl id cut)).retire 2))

/-- The counter of the louvre tile that a collective of the task landed at a scratchpad offset; of the latest, where
several have (R221). -/
def Core.tileAt (c : Core) (core off : Nat) : Option Nat :=
  let hits := c.colls.filterMap (fun (p : Nat × Coll) =>
    let d := (off : Int) - p.2.scratchAt core
    if p.2.louvre ∧ 0 ≤ d ∧ d % 4224 = 0 then (p.2.counters[(d / 4224).toNat]?).map (fun n => (p.2.order, n)) else none)
  (hits.foldl (fun (a : Option (Nat × Nat)) x => match a with
    | none => some x
    | some y => if y.1 < x.1 then some x else some y) none).map Prod.snd

/-- VPLDEC (R221). -/
def execVpldec (t : BitVec 2) (d : BitVec 6) (a : BitVec 5) (m : BitVec 1) (s : State) : Host.Outcome State Fault Refusal :=
  finish s (do
    s.vector t.toNat [.fp32] [a.toNat]
    let x ← s.src a.toNat
    let v := x.1.toNat
    need (decide (v < 2 ^ 25)) 0x02
    let off := bitsOf v 19 0
    let g := bitsOf v 24 20
    need (off % 128 == 0) 0x43
    need (decide (off + 4224 ≤ s.cur.decl.scratch)) 0x26
    let c := (s.cur.tileAt s.curCore off).getD 0
    need (decide (2 ≤ c)) 0x27
    s.tileFree t.toNat
    let ls : List Loc := (List.range 4224).map (fun i => .win s.curCore (off + i))
    let bs ← s.readNow ls
    let k := c - 1
    let blocks := [tileBlock bs k (2 * g), tileBlock bs k (2 * g + 1)]
    let value := fun (j : Nat) =>
      let b := blocks.getD (j / 32) ⟨0, 0, []⟩
      if b.exp (j % 32) = 0xFF then fp32.defaultNan
      else
        let mp := signedOf 15 (b.elems.getD (j % 32) 0) + (if m = 1 ∧ k < 15 then (2 ^ (14 - k) : Nat) else 0)
        (fp32.round .rne (decide (mp < 0)) mp.natAbs ((b.exp (j % 32) : Int) - 141) false).1
    let r := rowNum t d
    let out := mergeLanes s.cur.vm (lanesOf 32 (s.cur.row r)) ((List.range 64).map value)
    .ok ((((s.saw ls).pop [a.toNat]).putRow r (packLanes 32 out) x.2).retire 2))

/-- COPY_TRANSLATION_FAULT (R283): a running copy, or a collective at a chunk, reaches an element whose access fails, and
halts, or its task ends. -/
def execCopyTranslationFault (core id elem : Nat) (coll : Bool) (s : State) : Host.Outcome State Fault Refusal :=
  .next (
    let c := s.core core
    if coll then
      match Store.find? c.colls id with
      | none => s
      | some k =>
        if !c.collMoves k then s
        else
          let off := elem * k.esz / 4096 * 4096
          match s.collRead core k.src (k.soff + off) (Nat.min 4096 (k.srcBytes c.group.axes - off)) with
          | .error e => s.collStop core id e
          | .ok _ => s
    else
      match c.copy? id with
      | none => s
      | some k =>
        if !c.copyMoves k then s
        else
          let t := s.runCopy core id (elem + 1 - k.next)
          if (t.core core).task.isNone || (((t.core core).copy? id).bind Copy.fault).isSome then t else s)

end Sys2Proof.Machine
end

