-- ==== Sys2Proof/Machine/Launch.lean ====
section
/-!
DEFINITION. From a queue's candidate to its dispatched tasks: the checks of the launch record and the kernel header
(R23 to R25), the wait list (R262), range migration (R263), POD launches (R36, R37, R269), and the choice of tasks and
cores (R22, R24, R27 to R30, R34, R274, R275).
-/
namespace Sys2Proof.Machine

/-- The reserved fields of a record are zero (Table 1-4). -/
def recReserved (b : BitVec 2048) : Bool :=
  let n := recLevels b
  recNum b 4 2 / 2 ^ 6 == 0 && recNum b 6 1 / 2 ^ 3 == 0 && recNum b 8 4 / 2 ^ (3 * n) == 0 && recNum b 0x0C 1 / 2 ^ 3 == 0
    && recNum b 0x0D 3 == 0 && (List.range 6).all (fun l => decide (l < n) || recCount b l == 0)

/-- A well-formed launch record (R23): magic, reserved fields, level and wait-list counts, order, PGT only with POD. -/
def goodRecord (b : BitVec 2048) : Bool :=
  let n := recLevels b
  recNum b 0 4 == 0x524C584B && recReserved b && decide (1 ≤ n) && decide (n ≤ 6) && decide (recNum b 0x0C 1 ≤ 4)
    && (List.range n).all (fun l => recCount b l != 0 && (recOrder b).contains l)
    && (!recFlag b 5 || recFlag b 3)

/-- Priority of a record. -/
def recPrio (b : BitVec 2048) : Nat := bitsOf (recNum b 6 1) 2 0

/-- The range entries in use: argument handle, first page, page count (Table 1-4). -/
def recRanges (b : BitVec 2048) : List (Nat × Nat × Nat) :=
  ([recNum b 0x70 8, recNum b 0x78 8].map (fun v => (bitsOf v 63 62, bitsOf v 61 24, bitsOf v 23 0))).filter (fun r => r.1 != 0)

/-- A kernel header (Table 1-5). -/
structure Header where
  decl : Decl
  entries : Quad Nat
  gang : Nat
  levels : Nat
  deriving DecidableEq, Repr

/-- The kernel header in 64 bytes, where every field is within its limits (R25). -/
def parseHeader (bs : List Byte) : Option Header :=
  let n := fun (off k : Nat) => numOf ((bs.drop off).take k)
  let sc : Quad Nat := ⟨n 0x18 1, n 0x19 1, n 0x1A 1, n 0x1B 1⟩
  let len := n 0x2C 4
  let entries : Quad Nat := ⟨n 8 4, n 0x0C 4, n 0x10 4, n 0x14 4⟩
  let good := n 0 4 == 0x484B584B && n 4 2 == 1 && decide (n 6 2 < 2)
    && entries.toList.all (fun e => decide (32 ≤ e) && decide (e < 32 + len))
    && sc.toList.all (fun k => decide (14 ≤ k) && decide (k ≤ 32))
    && decide (n 0x1C 1 ≤ 4) && decide (n 0x1D 1 ≤ 16) && decide (4 ≤ n 0x1E 1) && decide (n 0x1E 1 ≤ 32) && n 0x1F 1 == 0
    && n 0x24 4 % 256 == 0 && decide (n 0x24 4 ≤ 0xC0000)
    && decide (1 ≤ n 0x28 1) && decide (n 0x28 1 ≤ 16) && decide (1 ≤ n 0x29 1) && decide (n 0x29 1 ≤ 6) && n 0x2A 2 == 0
    && decide (1 ≤ len) && n 0x30 16 == 0
  if good then some ⟨⟨sc, n 0x1C 1, n 0x1D 1, n 0x1E 1, BitVec.ofNat 32 (n 0x20 4), n 0x24 4, len, n 6 2 == 1⟩, entries, n 0x28 1, n 0x29 1⟩
  else none

/-- A read of the LW for a candidate: handle checks, translation, integrity (R261). -/
def State.candRead (s : State) (w : Who) (h : BitVec 256) (right : BitVec 8) (off len align : Nat) (acc : Acc) :
    Except Stop (State × List Byte) :=
  match s.accessCause w.tenant h right off len align with
  | some c => .error (.trap c)
  | none => do
    let (s1, ls) ← s.locate w h off len acc false .held
    let bs ← s1.engineRead ls
    .ok (s1, bs)

/-- Every entry of the code names an HDR parcel (Table 1-5). -/
def State.candEntries (s : State) (w : Who) (h : BitVec 256) : List Nat → Except Stop State
  | [] => .ok s
  | e :: es => do
    let (s1, bs) ← s.candRead w h rightX (2 * e) 2 1 .code
    need (isHdrParcel (BitVec.ofNat 16 (numOf bs))) 0x02
    State.candEntries s1 w h es

/-- The kernel header of a code handle, its entries checked (R25): the declared code lies within the handle. -/
def State.candHeader (s : State) (w : Who) (h : BitVec 256) : Except Stop (State × Header) := do
  let (s1, bs) ← s.candRead w h rightX 0 64 1 .code
  match parseHeader bs with
  | none => .error (.trap 0x02)
  | some x => do
    need (decide (2 * (32 + x.decl.codeLen) ≤ hLen h)) 0x02
    let s2 ← s1.candEntries w h x.entries.toList
    .ok (s2, x)

/-- The process group of a record: a module alone, the partition's modules for POD, or the entry of the process-group
table that names this module, with its tasks (R36, R37, Table 1-6). -/
def State.candGroup (s : State) (w : Who) (b : BitVec 2048) : Except Stop (State × Group × Nat × Nat) :=
  let all := recTasks b
  let gen : BitVec 32 := BitVec.ofNat 32 (recNum b 0x68 4)
  if !recFlag b 3 then .ok (s, ⟨0, 1, 0, [1, 1, 1, 1], []⟩, 0, all)
  else if !recFlag b 5 then
    let p := Store.find? s.parts w.part
    let n := Nat.max 1 ((p.map (fun p => p.modules.length)).getD 1)
    .ok (s, ⟨(p.map Partition.rank).getD 0, n, gen, [n, 1, 1, 1], []⟩, 0, all)
  else
    let h := recHandle b 3
    let off := recNum b 0x6C 4
    if h = 0 then .error (.trap 0x70)
    else do
      let (s1, hd) ← s.candRead w h rightR off 32 1 .read
      let n := (hd.getD 4 0).toNat
      let axes := [5, 6, 7, 8].map (fun i => (hd.getD i 0).toNat)
      need (numOf (hd.take 4) == 0x4750584B && decide (1 ≤ n) && decide (n ≤ 64) && axes.all (· != 0) && product axes == n
        && numOf (hd.drop 9) == 0) 0x02
      let (s2, bs) ← s1.candRead w h rightR off (32 + 32 * n) 1 .read
      let entry := fun (k : Nat) => (bs.drop (32 + 32 * k)).take 32
      match (List.range n).find? (fun k => numOf ((entry k).take 8) == Config.moduleId.toNat) with
      | none => .error (.trap 0xC4)
      | some k =>
        let e := entry k
        let first := numOf ((e.drop 8).take 4)
        let nbrs := (List.range 8).map (fun i => numOf ((e.drop (0x10 + 2 * i)).take 2))
        .ok (s2, ⟨k, n, gen, axes, nbrs⟩, Nat.min first all, Nat.min (first + numOf ((e.drop 0x0C).take 4)) all)

/-- The first failing cause of the offsets that a record names in its signal area: wait list, completion, status
(Table 15-2). -/
def recOffsets (area : Nat) (b : BitVec 2048) : Option Cause :=
  firstCause (areaCause area) (recWaits b ++ [recNum b 0x60 4, recNum b 0x64 4])

/-- Step 1 of Table 15-2: every check of a candidate, and what they have read. -/
def State.candCheck (s : State) (w : Who) (q : Queue) (b : BitVec 2048) :
    Except Stop (State × Header × Group × Nat × Nat) := do
  need (goodRecord b) 0x02
  let args := [1, 2, 3].map (recHandle b)
  match s.handleCause w.tenant (recHandle b 0) rightX with
  | some c => .error (.trap c)
  | none => .ok ()
  match firstCause (fun h => if h = 0 then none else s.handleIdCause w.tenant h) args with
  | some c => .error (.trap c)
  | none => .ok ()
  need ((recRanges b).all (fun r => recHandle b r.1 != 0)) 0x70
  need (!recFlag b 2 || (s.tdi q.tdi).state == .run) 0x41
  let (s1, x) ← s.candHeader w (recHandle b 0)
  need (x.levels == recLevels b) 0x02
  match recOffsets q.area b with
  | some c => .error (.trap c)
  | none => .ok ()
  let (s2, g, first, last) ← s1.candGroup w b
  .ok (s2, x, g, first, last)

/-- What a candidate's read has met (R261): a second-stage fault goes to the MC, and anything else completes it. -/
def State.candStop (s : State) (key ring tdi : Nat) : Stop → State
  | .trap c => (s.countCheck c).completeRecord key ring 0x13 c 0
  | .fault i => if i.toGuest then s.completeRecord key ring 0x13 i.cause 0 else s.addFault (.candidate key ring) tdi i
  | _ => s

/-- The candidate of a queue, where it may be considered (R261): not held, the queue not in ERROR, no read of it waiting
for the MC. -/
def State.consider (s : State) (key : Nat) : Option (Queue × Record) :=
  match Store.find? s.queues key with
  | none => none
  | some q =>
    if q.error || q.held || q.resetPending then none
    else (q.candidate.bind (fun r => if s.faults.any (fun f => f.unit == .candidate key r.ring) then none else some (q, r)))

/-- Every member of a POD record's group has arrived: dispatch may begin (R36). -/
def State.settleBarrierOf (s : State) (key ring : Nat) : State :=
  match (Store.find? s.queues key).bind (fun q => q.record ring) with
  | none => s
  | some r =>
    if r.phase == .startBarrier && (List.range r.group.size).all (fun k => r.arrivals.contains k)
    then (s.modQueue key (fun q => q.modRecord ring (fun r => { r with phase := .running, since := s.cycle }))).settleRecord key ring
    else s

/-- THE START OF A RECORD (step 4 of Table 15-2): the queue's signal handle and area are captured (R258), the status
word is written as 1, and its tasks become dispatchable, those of a POD record once its start barrier completes, at
which this module arrives (R36). The collectives of its process group count from here (R350). -/
def State.startRecord (s : State) (key ring : Nat) : State :=
  match Store.find? s.queues key with
  | none => s
  | some q =>
    match q.record ring with
    | none => s
    | some r =>
      let pod := recFlag r.bits 3
      let r' := { r with sigHandle := q.sigHandle, area := q.area, sigCtx := q.ctx, sigPart := q.part, since := s.cycle,
                         phase := if pod then .startBarrier else .running,
                         arrivals := if pod ∧ !r.arrivals.contains r.group.rank then r.arrivals ++ [r.group.rank] else r.arrivals }
      let g := groupKey key ring
      let s0 := { s with collCounts := s.collCounts.filter (fun (c : Nat × Nat) => c.1 / 16 != g), collGone := s.collGone.filter (fun c => c.1 / 16 != g) }
      let s1 := (s0.modQueue key (fun q => q.modRecord ring (fun _ => r'))).writeStatus key q r' 1 0 0
      if pod then s1.settleBarrierOf key ring else s1.settleRecord key ring

/-- The pages of virtual address space that a range covers. -/
def rangePages (h : BitVec 256) (first count : Nat) : List Nat :=
  let lo := (hBase h + first * Config.pageBytes) / Config.pageBytes
  let hi := (hBase h + (first + count) * Config.pageBytes + Config.pageBytes - 1) / Config.pageBytes
  (List.range (hi - lo)).map (fun i => lo + i)

/-- A device address lies in the slices of a partition. -/
def State.inSlices (s : State) (part pa : Nat) : Bool :=
  match Store.find? s.parts part with
  | none => false
  | some p => decide (pa < Config.hbmBytes) && p.slices.contains (pa / Config.sliceBytes)

/-- Where the pages of the ranges lie: guest-physical page, device or bus page, and whether that is in host memory; a
discarded page is left alone. The whole of a range lies within its handle (0x73). Table 15-2 names no failure of step 3 but 0x62
and 0x73, and R261's list of reads has no ranges: a page without a first-stage mapping completes the candidate with FAULT and the
cause 0x40, and a second-stage fault goes to the MC as a candidate's (DESIGN CHOICE, log 37). -/
def State.rangePlaces (s : State) (w : Who) (root : Nat) (b : BitVec 2048) : Except Stop (List (Nat × Nat × Bool)) := do
  let rs := recRanges b
  need (rs.all (fun r => decide ((r.2.1 + r.2.2) * Config.pageBytes ≤ hLen (recHandle b r.1)))) 0x73
  let pages := rs.flatMap (fun r => rangePages (recHandle b r.1) r.2.1 r.2.2)
  pages.foldlM (fun (out : List (Nat × Nat × Bool)) x =>
    match s.firstStage w.part root (x * Config.pageBytes) with
    | .error i => .error (i.stop false)
    | .ok l =>
      if l.perm.d then .ok out
      else match s.secondStage w.part l.addr with
        | .error c => .error (FaultInfo.stop ⟨c, 0, x * Config.pageBytes, l.addr, false, false⟩ false)
        | .ok m =>
          let place := (l.addr / Config.pageBytes, m.addr / Config.pageBytes, decide (Config.hbmBytes ≤ m.addr))
          .ok (if out.contains place then out else out ++ [place])) []

/-- The die whose stacks hold the most pages of a record's ranges; ties go to the lowest (R275). Eight slices hang on one die:
those in which the pages really lie, wherever a slice has moved (R295). -/
def State.preferredDie (s : State) (part : Nat) (places : List (Nat × Nat × Bool)) : Option Nat :=
  let mine := places.filter (fun p => !p.2.2 && s.inSlices part (p.2.1 * Config.pageBytes))
  let votes := fun (d : Nat) => mine.countP (fun p => s.hbmAddr (p.2.1 * Config.pageBytes) / Config.sliceBytes / 8 == d)
  if mine.isEmpty then none
  else ((List.range Config.numDies).find? (fun d => (List.range Config.numDies).all (fun e => decide (votes e ≤ votes d))))

/-- The places of a table entry at a device-physical address. -/
def entryPlaces (a : Nat) : List Loc := (List.range 8).map (fun i => Loc.hbm (a + i))

/-- Writes of the MC to its tables, eight bytes each at a device-physical address (R278); past the end of the HBM nothing is
written (R5). -/
def State.mcWrites (s : State) (ws : List (Nat × Word)) : State :=
  (ws.filter (fun w => decide (w.1 + 8 ≤ Config.hbmBytes))).foldl (fun (t : State) w => t.writeLocs ((entryPlaces w.1).zip (bytesOf 8 w.2.toNat))) s

/-- A write of the MC to its tables waits for a page that is being copied (R295). -/
def State.mcWaits (s : State) (ws : List (Nat × Word)) : Bool := s.copying (ws.flatMap (fun w => entryPlaces w.1))

/-- Marks dirty whatever page of a partition lies at a page of HBM (R293). -/
def State.markPage (s : State) (page : Nat) : State :=
  { s with parts := s.parts.map (fun (p : Nat × Partition) =>
      let mine := p.2.slices.filterMap (fun k =>
        let g := k * slicePages + page % slicePages
        if s.hbmAddr (g * Config.pageBytes) / Config.pageBytes = page ∧ g ∉ p.2.dirty then some g else none)
      (p.1, { p.2 with dirty := mine ++ p.2.dirty })) }

/-- What lay in a page of HBM is history of nobody any more (R320). -/
def State.forgetPage (s : State) (page : Nat) : State :=
  s.forget (fun l => match l with | .hbm a => s.hbmAddr a / Config.pageBytes == page | _ => false)

/-- The MC sets the owner record of a page to a key slot (R311): where it comes to name a different slot the page is
unscrubbed, and reads as zero (R320). A page taken during a rotation of the slot is under the newer generation. There are 384 GiB of pages and 1,024 key slots (R1, R311). -/
def State.setOwner (s : State) (page slot : Nat) : State :=
  if (s.owner page).slot = some slot ∨ Config.hbmBytes < (page + 1) * Config.pageBytes ∨ Config.numTenants ≤ slot then s
  else
    let newer := s.tenants.any (fun (p : Nat × Tenant) => p.2.slot == slot && p.2.rotating)
    let lines := Config.pageBytes / 64
    ({ s with pages := Store.put page ⟨some slot, newer, true⟩ s.pages,
              hbm := Memory.clear s.hbm (page * Config.pageBytes) ((page + 1) * Config.pageBytes),
              poison := s.poison.filter (fun l => l / lines != page),
              badLines := s.badLines.filter (fun l => l / lines != page) }.forgetPage page).markPage page

/-- The MC sets owner records. -/
def State.setOwners (s : State) (os : List (Nat × Nat)) : State := os.foldl (fun (t : State) o => t.setOwner o.1 o.2) s

/-- The TLBs drop every entry of a partition's contexts. -/
def State.dropTlb (s : State) (part : Nat) : State :=
  { s with dies := s.dies.map (fun (d : Die) =>
      { d with tlb := d.tlb.filter (fun e => (Store.find? s.ctxs e.ctx).map Context.part != some part) }) }

/-- What step 3 does for a candidate (R263): with frames and table writes of the MC, each page outside the partition's
slices is copied to its frame and remapped there. A page with a poisoned line is no good data: the read of it fails (R374). -/
def State.migrateRanges (s : State) (w : Who) (root : Nat) (b : BitVec 2048) (frames : List Nat) (writes : List (Nat × Word))
    (owners : List (Nat × Nat)) : Except Stop State := do
  let places ← s.rangePlaces w root b
  let move := places.filter (fun p => p.2.2 || !s.inSlices w.part (p.2.1 * Config.pageBytes))
  need (decide (move.length ≤ frames.length)) 0x62
  let frames := frames.take move.length
  let target := fun (f : Nat) => (List.range Config.pageBytes).map (fun i => Loc.hbm (f * Config.pageBytes + i))
  if !(frames.all (fun f => s.inSlices w.part (f * Config.pageBytes) && !s.copying ((target f).take 1)) && frames.Nodup) || s.mcWaits writes
  then .error .stall else .ok ()
  let old ← move.mapM (fun p => s.engineRead ((List.range Config.pageBytes).map (fun i => physLoc false (p.2.1 * Config.pageBytes + i))))
  let s1 := (s.mcWrites writes).setOwners owners
  let ok := (move.zip frames).all (fun p => match s1.secondStage w.part (p.1.1 * Config.pageBytes) with
    | .ok l => l.addr == p.2 * Config.pageBytes
    | .error _ => false)
  if !ok then .error .stall else .ok ()
  .ok (((frames.zip old).foldl (fun (t : State) x =>
    t.writeLocs ((target x.1).zip x.2)) s1).dropTlb w.part)

/-- The context's first-stage root. -/
def State.rootOf (s : State) (ctx : Nat) : Nat := ((Store.find? s.ctxs ctx).map Context.root).getD 0

/-- A candidate that has passed its wait list: with no range in use it starts, else its pages are seen to first. -/
def State.passWaits (s : State) (key ring : Nat) (b : BitVec 2048) : State :=
  if (recRanges b).isEmpty then s.startRecord key ring
  else s.modQueue key (fun q => q.modRecord ring (fun r => { r with phase := .migration }))

/-- One pass over the wait list, in order: whether every signal read is 0, or none once one is below 0 (R262). -/
def State.readWaits (s : State) (w : Who) (h : BitVec 256) : List Nat → Bool → Except Stop (State × Option Bool)
  | [], zero => .ok (s, some zero)
  | off :: offs, zero => do
    let (t, bs) ← s.candRead w h rightR off 8 8 .read
    let v := signedOf 64 (numOf bs)
    if v < 0 then .ok (t, none) else State.readWaits t w h offs (zero && v == 0)

/-- Step 2 of Table 15-2: one pass over the wait list (R262). -/
def State.evaluate (s : State) (key : Nat) : State :=
  match s.consider key with
  | none => s
  | some (q, r) =>
    if r.phase != .waitList then s
    else
      match s.readWaits (queueWho key q) q.sigHandle (recWaits r.bits) true with
      | .error e => s.candStop key r.ring q.tdi e
      | .ok (t, none) => t.completeRecord key r.ring 0x11 0 0
      | .ok (t, some true) => t.passWaits key r.ring r.bits
      | .ok (t, some false) => t

/-- Step 1 of Table 15-2. A record with an empty wait list passes step 2 at once. -/
def State.checkCandidate (s : State) (key : Nat) : State :=
  match s.consider key with
  | none => s
  | some (q, r) =>
    if r.phase != .appended then s
    else match s.candCheck (queueWho key q) q r.bits with
      | .error e => s.candStop key r.ring q.tdi e
      | .ok (t, x, g, first, last) =>
        let t1 := t.modQueue key (fun q => q.modRecord r.ring (fun r => { r with
          phase := .waitList, decl := some x.decl, entries := x.entries, gangSize := if recFlag r.bits 1 then x.gang else 1,
          group := g, nextTask := first, endTask := last }))
        if (recWaits r.bits).isEmpty then t1.passWaits key r.ring r.bits else t1

/-- CANDIDATE_CHECK (R261). -/
def execCandidateCheck (tenant q : Nat) (s : State) : Host.Outcome State Fault Refusal := .next (s.checkCandidate (queueKey tenant q))

/-- WAIT_LIST_EVALUATION (R262). -/
def execWaitListEvaluation (tenant q : Nat) (s : State) : Host.Outcome State Fault Refusal := .next (s.evaluate (queueKey tenant q))

/-- RANGE_MIGRATION (R263): the MC brings the frames and the writes with which it remaps; then the record starts, its
preferred die known (R275). -/
def execRangeMigration (tenant q : Nat) (frames : List Nat) (writes : List (Nat × Word)) (owners : List (Nat × Nat)) (s : State) :
    Host.Outcome State Fault Refusal :=
  .next (
    let key := queueKey tenant q
    match s.consider key with
    | none => s
    | some (x, r) =>
      if r.phase != .migration then s
      else
        let w := queueWho key x
        match s.migrateRanges w (s.rootOf x.ctx) r.bits frames writes owners with
        | .error e => s.candStop key r.ring x.tdi e
        | .ok t =>
          let die := match t.rangePlaces w (s.rootOf x.ctx) r.bits with
            | .ok ps => t.preferredDie w.part ps
            | .error _ => none
          (t.modQueue key (fun y => y.modRecord r.ring (fun r => { r with die := die }))).startRecord key r.ring)

/-- START_BARRIER_ARRIVAL (R36): an arrival with another generation number is ignored. -/
def execStartBarrierArrival (tenant q idx rank gen : Nat) (s : State) : Host.Outcome State Fault Refusal :=
  .next (
    let key := queueKey tenant q
    match (Store.find? s.queues key).bind (fun x => x.record idx) with
    | none => s
    | some r =>
      if !recFlag r.bits 3 || gen != recNum r.bits 0x68 4 || r.arrivals.contains rank || r.phase == .running || r.phase == .complete then s
      else (s.modQueue key (fun x => x.modRecord idx (fun r => { r with arrivals := r.arrivals ++ [rank] }))).settleBarrierOf key idx)

/-- POD_START_TIMEOUT (R36): the barrier has not completed within the start timeout, in microseconds; the record
completes with FAULT 0xC4 on every module, but with REVOKED where its own handle is revoked (R267). -/
def execPodStartTimeout (tenant q idx : Nat) (s : State) : Host.Outcome State Fault Refusal :=
  .next (
    let key := queueKey tenant q
    match Store.find? s.queues key with
    | none => s
    | some x =>
      match x.record idx with
      | none => s
      | some r =>
        let bound := ((Store.find? s.parts x.part).map Partition.startTimeout).getD 0 * Config.cyclesPerMicro
        if r.phase == .startBarrier && decide (r.since + bound ≤ s.cycle)
        then (if r.revoked then s.completeRecord key idx 0x12 0x74 0 else s.completeRecord key idx 0x13 0xC4 0) else s)

/-- REPLICA_COMPLETION (R269). -/
def execReplicaCompletion (tenant q idx rank status cause task : Nat) (s : State) : Host.Outcome State Fault Refusal :=
  .next (
    let key := queueKey tenant q
    match (Store.find? s.queues key).bind (fun x => x.record idx) with
    | none => s
    | some r =>
      if recFlag r.bits 3 && r.phase.started && r.phase != .complete && decide (rank < r.group.size) && rank != r.group.rank
      then s.replicaDone key idx rank (BitVec.ofNat 64 (statusWord (status % 256) (BitVec.ofNat 8 cause) (BitVec.ofNat 32 task))) else s)

/-- The task index of each nest level: the digits of the task number in enumeration order (R27, R28). -/
def taskIndices (b : BitVec 2048) (n : Nat) : List (BitVec 32) :=
  let order := recOrder b
  let cs := coords (order.map (recCount b)) n
  (List.range 6).map (fun l => match (order.zip cs).find? (fun p => p.1 == l) with
    | none => 0
    | some p => BitVec.ofNat 32 p.2)

/-- The five scalar arguments of a record. -/
def recScalars (b : BitVec 2048) : List Word := (List.range 5).map (fun i => BitVec.ofNat 64 (recNum b (0x28 + 8 * i) 8))

/-- A core is free for a task of a record (R22, R24, R27); for a PROTECTED record its zero walk must have finished. -/
def State.coreFree (s : State) (key ring tenant : Nat) (scrubbed : Bool) (n : Nat) : Bool :=
  let c := s.core n
  let k := n / Config.clusterCores
  c.task.isNone && (c.claim.isNone || c.claim == some (key, ring)) && s.clusterTakes k tenant
    && (!scrubbed || (Store.find? s.clusterTenant k == some tenant && decide (16384 ≤ c.watermark)))

/-- The free cores of a partition for a record, in ascending order. -/
def State.freeCores (s : State) (part key ring tenant : Nat) (scrubbed : Bool) : List Nat :=
  (List.range Config.numCores).filter (fun n =>
    s.clusterPart (n / Config.clusterCores) == some part && s.coreFree key ring tenant scrubbed n)

/-- Cores for a gang of g among free cores (R275): one core takes the lowest on the preferred die, else the lowest; a
larger gang the lowest cluster of the preferred die, else the lowest, that has g free. -/
def chooseCores (free : List Nat) (die : Option Nat) (g : Nat) : Option (List Nat) :=
  let prefer := free.filter (fun n => some (dieOf n) == die)
  if g ≤ 1 then ((prefer ++ free).head?).map (fun n => [n])
  else
    let at' := fun (l : List Nat) => (List.range Config.numClusters).findSome? (fun k =>
      let cs := l.filter (fun n => n / Config.clusterCores == k)
      if g ≤ cs.length then some (cs.take g) else none)
    match at' prefer with
    | some cs => some cs
    | none => at' free

/-- A record has a task to dispatch (R265, R267, R288): it runs, is not stopped, and its context is not drained. -/
def State.dispatchable (s : State) (q : Queue) (r : Record) : Bool :=
  r.phase == .running && !r.stopped && decide (r.nextTask < r.endTask)
    && ((Store.find? s.ctxs q.ctx).map (fun c => c.draining.isNone && !c.drained)).getD false

/-- Cores for so many tasks in gangs of g, each gang within one cluster, in ascending order (R30, R275). -/
def seatGangs (g : Nat) : Nat → Nat → List Nat → Option (List Nat)
  | _, 0, _ => some []
  | 0, _ + 1, _ => none
  | fuel + 1, left + 1, free =>
    let size := Nat.min g (left + 1)
    match (List.range Config.numClusters).findSome? (fun k =>
        let cs := free.filter (fun n => n / Config.clusterCores == k)
        if size ≤ cs.length then some (cs.take size) else none) with
    | none => none
    | some cs => (seatGangs g fuel (left + 1 - size) (free.filter (fun n => cs.all (fun m => decide (m < n))))).map (fun rest => cs ++ rest)

/-- Cores of the next task or gang, or of the whole superstep launch, of a record (R30, R34, R275). -/
def State.seats (s : State) (key : Nat) (q : Queue) (r : Record) (scrubbed : Bool) : Option (List Nat) :=
  let free := s.freeCores q.part key r.ring (key / 64) scrubbed
  let left := r.endTask - r.nextTask
  if (r.decl.map Decl.sstep).getD false then seatGangs (Nat.max 1 r.gangSize) left left free
  else chooseCores free r.die (Nat.min r.gangSize left)

/-- Starts tasks of a record from its next task on, on cores in order; those of a superstep launch fall into gangs of
its gang size. -/
def State.placeTasks (s : State) (key : Nat) (q : Queue) (r : Record) (launch : Option Nat) (g gangId : Nat) :
    Nat → List Nat → State
  | _, [] => s
  | i, n :: ns =>
    let number := r.nextTask + i
    let size := Nat.min g (r.endTask - r.nextTask - i / g * g)
    let t : Task := {
      tenant := key / 64, ctx := q.ctx, part := q.part, tdi := q.tdi, queue := key % 64, ring := r.ring,
      number := BitVec.ofNat 32 number, gang := gangId + i / g, member := i % g, gangSize := size,
      indices := taskIndices r.bits number, prio := recPrio r.bits, decl := r.decl.getD Decl.none, code := recHandle r.bits 0,
      args := [1, 2, 3].map (recHandle r.bits), sigHandle := r.sigHandle, area := r.area, group := r.group, launch := launch }
    let s1 := s.enterCluster (n / Config.clusterCores) (key / 64)
    State.placeTasks (s1.modCore n (fun c => c.startTask t r.entries (recScalars r.bits) s.cycle s.writes)) key q r launch g gangId (i + 1) ns

/-- Changes a partition. -/
def State.modPart (s : State) (n : Nat) (f : Partition → Partition) : State :=
  match Store.find? s.parts n with
  | none => s
  | some p => { s with parts := Store.put n (f p) s.parts }

/-- DISPATCH of the next tasks of a record on chosen cores (R27, R28, R30, R34). -/
def State.dispatch (s : State) (key : Nat) (q : Queue) (r : Record) (cores : List Nat) : State :=
  let sstep := (r.decl.map Decl.sstep).getD false
  let g := if sstep then Nat.max 1 r.gangSize else Nat.max 1 cores.length
  let gangs := (cores.length + g - 1) / g
  let id := s.nextGang
  let s1 := s.placeTasks key q r (if sstep then some id else none) g id 0 cores
  let s2 := { s1 with
    nextGang := id + gangs,
    gangs := (List.range gangs).foldl (fun (m : Store Gang) i => Store.put (id + i) ⟨(cores.drop (i * g)).take g, [], [], []⟩ m) s1.gangs,
    launches := if sstep then Store.put id ⟨cores, 0, []⟩ s1.launches else s1.launches }
  let s3 := s2.modQueue key (fun x => x.modRecord r.ring (fun r =>
    { r with nextTask := r.nextTask + cores.length, live := r.live + cores.length, periods := 0, since := s.cycle }))
  let s4 := s3.modPart q.part (fun p => { p with
    lastTenant := key / 64,
    accounts := match Store.find? p.accounts (key / 64) with
      | none => p.accounts
      | some a => Store.put (key / 64) { a with lastQueue := key % 64 } p.accounts })
  (s4.dropClaims key r.ring).settleRotations

/-- Effective priority of a record (R274). -/
def Record.effective (r : Record) : Nat := Nat.min 7 (recPrio r.bits + r.periods)

/-- The dispatchable records of a tenant in a partition, in the order in which the LW serves them (R274). -/
def State.tenantOrder (s : State) (part tenant last : Nat) : List (Nat × Queue × Record) :=
  let mine := s.queues.filter (fun (p : Nat × Queue) => p.1 / 64 == tenant && p.2.part == part)
  let all := mine.flatMap (fun (p : Nat × Queue) => (p.2.records.filter (s.dispatchable p.2)).map (fun r => (p.1, p.2, r)))
  sortKey (fun x => (7 - x.2.2.effective) * 64 + (x.1 % 64 + 63 - last) % 64) all

/-- Every dispatchable record of a partition in the LW's order: tenants with a balance, round robin (R274). -/
def State.serviceOrder (s : State) (part : Nat) : List (Nat × Queue × Record) :=
  match Store.find? s.parts part with
  | none => []
  | some p =>
    let ts := p.accounts.filter (fun (a : Nat × Account) => decide (0 < a.2.balance))
    (sortKey (fun (a : Nat × Account) => (a.1 + 1023 - p.lastTenant) % 1024) ts).flatMap (fun a => s.tenantOrder part a.1 a.2.lastQueue)

/-- A superstep launch that does not fit: what this module has to do for its record is done, and it dispatches nothing more
(R34). -/
def State.misfit (s : State) (key ring : Nat) : State :=
  (s.modQueue key (fun q => q.modRecord ring (fun r => { r with faulted := some (0xA3, 0) }))).localDone key ring 0x13 0xA3 0

/-- The LW serves the first record in order that fits; a superstep launch that does not fit fails (R34, R274). -/
def State.serve (s : State) : List (Nat × Queue × Record) → State
  | [] => s
  | (key, q, r) :: rest =>
    match s.seats key q r (recFlag r.bits 2) with
    | some cores => s.dispatch key q r cores
    | none =>
      if (r.decl.map Decl.sstep).getD false && !recFlag r.bits 2 then s.misfit key r.ring
      else if (r.decl.map Decl.sstep).getD false && (s.seats key q r false).isNone then s.misfit key r.ring
      else State.serve s rest

/-- TASK_DISPATCH (R27, R274). -/
def execTaskDispatch (part : Nat) (s : State) : Host.Outcome State Fault Refusal := .next (s.serve (s.serviceOrder part))

/-- CORE_CLAIM (R24): no core whose zero walk has finished is free for the next tasks of a PROTECTED record, so free
cores are claimed, and scrubbed for the tenant. -/
def execCoreClaim (tenant q idx : Nat) (s : State) : Host.Outcome State Fault Refusal :=
  .next (
    let key := queueKey tenant q
    match Store.find? s.queues key with
    | none => s
    | some x =>
      match x.record idx with
      | none => s
      | some r =>
        if !recFlag r.bits 2 || !s.dispatchable x r || (s.seats key x r true).isSome
            || s.cores.any (fun (p : Nat × Core) => p.2.claim == some (key, idx)) then s
        else match s.seats key x r false with
          | none => s
          | some cores =>
            cores.foldl (fun (t : State) n =>
              (t.enterCluster (n / Config.clusterCores) tenant).modCore n (fun c => { c with claim := some (key, idx) })) s)

end Sys2Proof.Machine
end

