-- ==== Sys2Proof/Machine/Image.lean ====
section
/-!
DEFINITION. Context images: their layout (R325 to R328, Tables 17-9 to 17-12), their seals and counters (R329 to
R334), SAVE (R149, R290), the hard stop (R289, Table 15-10) and the restore (R330).
-/
namespace Sys2Proof.Machine

/-- A block of n bytes, zero but for the pieces placed at their offsets. -/
def placeAt (n : Nat) (xs : List (Nat × List Byte)) : List Byte :=
  xs.foldl (fun (out : List Byte) x => out.take x.1 ++ x.2 ++ out.drop (x.1 + x.2.length)) (List.replicate n 0)

/-- A number within bytes, little-endian. -/
def numAt (bs : List Byte) (off n : Nat) : Nat := numOf ((bs.drop off).take n)

/-- REP state as Table 17-11 lays it out. -/
def repWord (r : Option RepState) : Nat :=
  match r with
  | none => 0
  | some r =>
    let b := fun (i k : Nat) => if r.parcel.getLsbD i then 2 ^ k else 0
    2 ^ 63 + r.done % 128 * 2 ^ 40 + b 6 36 + b 7 35 + b 8 34 + b 9 33 + b 10 32 + r.offset % 2 ^ 32

/-- The bits of a REP's word that REP state holds. -/
def repBits (rep : Nat) : Parcel :=
  let b := fun (k i : Nat) => if rep.testBit k then 2 ^ i else 0
  BitVec.ofNat 16 (b 36 6 + b 35 7 + b 34 8 + b 33 9 + b 32 10)

/-- PB state as Table 17-11 lays it out. -/
def pbWord (p : Option PbState) : Nat :=
  match p with
  | none => 0
  | some p => 2 ^ 63 + p.passed % 16 * 2 ^ 45 + p.count % 16 * 2 ^ 41 + p.pat.toNat * 2 ^ 33 + (if p.sampled then 2 ^ 32 else 0) + p.offset % 2 ^ 32

/-- The status of a held collective id as Table 17-11 and R362 lay it out: one that runs counts as cancelled (R290). -/
def heldWord (c : Core) (i : Nat) : Nat :=
  match c.heldColl i with
  | none => 0
  | some k => 2 ^ 15 + (k.ended.getD 0x100).toNat

/-- A sequencer block (Table 17-11). A sequencer that a restartable fault has halted is recorded as running at its
instruction (R327). Outside a body the HDR to come stands as the current one (log 35). -/
def seqBlock (c : Core) (q : Sq) : List Byte :=
  let x := c.seqs.get q
  let run := if x.run = .halted then Run.running else x.run
  placeAt 0x200 ([
    (0x000, bytesOf 8 ({ x with run := run } : SeqState).statusWord),
    (0x008, bytesOf 8 ((if x.inBody then x.hdr else x.pc) % 2 ^ 32 + x.passes % 4096 * 2 ^ 32)),
    (0x010, bytesOf 8 (repWord x.rep)),
    (0x018, bytesOf 8 (pbWord x.pb)),
    (0x020, [x.preds]),
    (0x028, bytesOf 8 (if q = .ex then c.fpmode.toNat else 0)),
    (0x030, bytesOf 8 (if q = .ex then c.fpflags.toNat else 0)),
    (0x038, bytesOf 8 x.copyStatus),
    (0x040, bytesOf 4 x.issued.toNat),
    (0x078, [BitVec.ofNat 8 x.rq.length]),
    (0x080, (x.rq.take 16).flatMap (fun e => bytesOf 8 (e.value.getD 0).toNat)),
    (0x100, (List.range (Nat.min 32 (c.decl.scalars.get q))).flatMap (fun i => bytesOf 8 (if fixedReg q i then 0 else x.reg i).toNat))]
    ++ (if q = .ctl then (List.range 16).map (fun i => (0x048 + 2 * i, bytesOf 2 (heldWord c i))) else []))

/-- The geometry operand of a rill (Table 7-5). -/
def geometryWord (r : Rill) : Nat := r.count * 2 ^ 40 + r.size * 2 ^ 20 + r.base

/-- Rills and token queues at 0x0900 (Table 17-9). -/
def rillBlock (c : Core) : List Byte :=
  placeAt 0x100 ((List.range 16).map (fun w => (12 * w, match c.rills[w]?.getD none with
      | none => List.replicate 12 0
      | some r => bytesOf 8 (geometryWord r) ++ bytesOf 4 (r.cptr + r.pptr * 2 ^ 8 + r.fill * 2 ^ 16)))
    ++ (List.range 12).map (fun q => (0xC0 + 2 * q, bytesOf 2 (c.tokenCount q))))

/-- The sequencers of a core among parties, bit i for sequencer i. -/
def partyBits (n : Nat) (ps : List Party) : Nat :=
  [Sq.ld, Sq.ex, Sq.st, Sq.ctl].foldl (fun (m : Nat) q => if ps.contains ⟨n, q⟩ then m + 2 ^ q.num else m) 0

/-- A barrier as a core's image shows it (Table 17-12). -/
def barrierWord (n : Nat) (b : Barrier) : Nat :=
  b.phase.toNat + partyBits n b.members * 2 ^ 32 + partyBits n b.joins * 2 ^ 36 + partyBits n b.leaves * 2 ^ 40 + partyBits n b.arrived * 2 ^ 44

/-- The code of a tile type (Table 11-1). -/
def TileType.num : TileType → Nat
  | .fp32 => 0 | .int32 => 1 | .bf16 => 2 | .fp16 => 3 | .int8 => 4

/-- Core state at 0x0E00 (Table 17-12). -/
def coreBlock (n : Nat) (c : Core) (g : Gang) (steps : Nat) : List Byte :=
  placeAt 0x200 ([
    (0x00, c.kmask.toList.flatMap (fun k => bytesOf 8 k.toNat)),
    (0x40, c.layouts.toList.flatMap (fun k => bytesOf 8 k.toNat)),
    (0x80, bytesOf 32 c.vm.toNat),
    (0xA0, c.tileType.toList.map (fun t => BitVec.ofNat 8 t.num)),
    (0xA4, bytesOf 4 c.ccnt.toNat),
    (0xA8, bytesOf 8 c.me.status),
    (0x1B0, bytesOf 8 (steps / 2 % 2 ^ 32 + steps % 2 * 2 ^ 32))]
    ++ (List.range 32).map (fun j => (0xB0 + 8 * j, bytesOf 8 (barrierWord n (g.barrier j)))))

/-- One register set of the matrix engine, with its captured masks (R328). -/
def meSet (regs : Vector Word 36) (rowMask colMask : Option Word) : List Byte :=
  regs.toList.flatMap (fun k => bytesOf 8 k.toNat) ++ bytesOf 8 (rowMask.getD 0).toNat ++ bytesOf 8 (colMask.getD 0).toNat

/-- A shape record (R328). -/
def shapeRecord (slot : Nat) (y : Shape) : List Byte :=
  bytesOf 8 slot ++ bytesOf 8 y.ctl.toNat
    ++ y.used.flatMap (fun d => bytesOf 8 d.extent.toNat ++ bytesOf 8 d.sstride.toNat ++ bytesOf 8 d.dstride.toNat)

/-- The offsets of a copy as its two operand registers held them (R174, R180, R182). -/
def Copy.operands (k : Copy) : Nat × Nat :=
  match k.mode with
  | .gather => (k.extra.toNat, k.doff)
  | .scatter => (k.extra.toNat, k.soff)
  | .cpyout => (k.soff, k.doff + k.extra.toNat % 2 ^ 16 * 2 ^ 48)
  | _ => (k.soff, k.doff)

/-- A copy record (R328): offsets and handles of the source before those of the destination (log 35). -/
def copyRecord (k : Copy) : List Byte :=
  bytesOf 4 k.word.toNat ++ bytesOf 4 k.lit.toNat ++ bytesOf 4 k.issue.toNat ++ [BitVec.ofNat 8 k.sq.num, 0, 0, 0]
    ++ bytesOf 8 k.operands.1 ++ bytesOf 8 k.operands.2 ++ bytesOf 8 k.next ++ bytesOf 32 k.src.toNat ++ bytesOf 32 k.dst.toNat
    ++ shapeRecord (bitsOf k.word.toNat 13 10) k.shape

/-- The answered mint requests, in ascending tag order (R328). -/
def mintRecords (c : Core) : List (List Byte) :=
  c.mints.filterMap (fun (p : Nat × MintReq) => p.2.answer.map (fun a =>
    [BitVec.ofNat 8 p.1, BitVec.ofNat 8 a.1] ++ List.replicate 14 0 ++ bytesOf 32 a.2.toNat))

/-- The engine extension, a multiple of 16 bytes (R328). -/
def extension (c : Core) : List Byte :=
  let m := c.me
  let shadow := if m.shadow.toList.any (· != 0) then [meSet m.shadow none none] else []
  let sets := fun (o : Option MeOp) => match o with
    | none => []
    | some o => [meSet o.regs o.rowMask o.colMask]
  let shapes := (List.range 16).filterMap (fun y => (c.shapes[y]?).bind (fun x => if x.ndim = 0 then none else some (shapeRecord y x)))
  let copies := c.copies.map copyRecord
  let mints := mintRecords c
  let flags := shadow.length + (sets m.active).length * 2 + (sets m.pendingOp).length * 4
  if flags = 0 ∧ shapes.isEmpty ∧ copies.isEmpty ∧ mints.isEmpty then []
  else Crypto.pad16 ([BitVec.ofNat 8 flags, BitVec.ofNat 8 shapes.length] ++ bytesOf 2 copies.length ++ [BitVec.ofNat 8 mints.length]
    ++ List.replicate 11 0 ++ (shadow ++ sets m.active ++ sets m.pendingOp ++ shapes ++ copies ++ mints).flatten)

/-- What a task's image holds past its header, before encryption (Table 17-9). -/
def State.imageBody (s : State) (n : Nat) (t : Task) : List Byte :=
  let c := s.core n
  let g := Store.getD s.gangs t.gang ⟨[], [], [], []⟩
  let steps := ((t.launch.bind (Store.find? s.launches)).map Launch.steps).getD 0
  [Sq.ld, Sq.ex, Sq.st, Sq.ctl].flatMap (seqBlock c) ++ rillBlock c ++ c.handles.toList.flatMap (fun h => bytesOf 32 h.toNat)
    ++ coreBlock n c g steps ++ (List.range (64 * t.decl.tiles)).flatMap (fun r => bytesOf 256 (c.row r).toNat)
    ++ Memory.readN c.scratch 0 t.decl.scratch ++ extension c

/-- The image header (Table 17-10). -/
def imageHeader (t : Task) (bySave : Bool) (persistent : Option Nat) (gen counter : Nat) (epoch : BitVec 64) (iv : BitVec 96)
    (x len : Nat) : List Byte :=
  placeAt 0x100 [
    (0x00, bytesOf 4 0x4943584B), (0x04, bytesOf 2 1), (0x06, bytesOf 2 (if bySave then 1 else 0)),
    (0x08, [if persistent.isSome then 1 else 0]), (0x09, [BitVec.ofNat 8 t.decl.tiles]),
    (0x0A, bytesOf 2 t.tenant), (0x0C, bytesOf 2 t.ctx), (0x0E, bytesOf 2 (persistent.getD 0)), (0x10, bytesOf 4 gen),
    (0x14, bytesOf 4 x), (0x18, bytesOf 8 counter), (0x20, bytesOf 8 (if persistent.isSome then 0 else epoch.toNat)),
    (0x28, bytesOf 8 (t.ring % 2 ^ 32 + t.queue * 2 ^ 32)), (0x30, bytesOf 4 t.number.toNat),
    (0x34, [BitVec.ofNat 8 t.member]), (0x35, [BitVec.ofNat 8 t.gangSize]),
    (0x38, (List.range 6).flatMap (fun i => bytesOf 4 (t.indices.getD i 0).toNat)), (0x50, bytesOf 4 t.decl.scratch),
    (0x54, t.decl.scalars.toList.map (BitVec.ofNat 8)), (0x58, [BitVec.ofNat 8 t.decl.rills, BitVec.ofNat 8 t.decl.handles]),
    (0x5C, bytesOf 4 t.decl.barriers.toNat), (0x60, bytesOf 12 iv.toNat), (0x6C, bytesOf 4 len), (0x70, bytesOf 32 t.code.toNat)]

/-- The image key of a context and generation (Table 17-5); the widths of the values are 16 and 32 bits (log 5). -/
def imageKey (root : BitVec 256) (ctx gen : Nat) : BitVec 256 := Crypto.kdf root (bytesOf 2 ctx ++ bytesOf 4 gen)

/-- Images that one image key seals (R329). -/
def maxSeals : Nat := 2 ^ 32

/-- THE SEAL OF AN IMAGE (R329) under the newest generation, with a counter: none where the tenant has no key or the key
has sealed its last image. -/
def State.sealImage (s : State) (n : Nat) (t : Task) (bySave : Bool) (persistent : Option Nat) (counter : Nat) : Option (State × List Byte) :=
  match Store.find? s.tenants t.tenant, Store.find? s.ctxs t.ctx with
  | some k, some _ =>
    match Store.find? k.imageRoots k.gen with
    | none => none
    | some root =>
      let used := Store.getD k.seals (t.ctx * 2 ^ 32 + k.gen) 0
      if maxSeals ≤ used then none
      else
        let body := s.imageBody n t
        let iv := Config.randomIv s.draws
        let head := imageHeader t bySave persistent k.gen counter s.sessionEpoch iv (extension (s.core n)).length (0x100 + body.length + 16)
        let key := imageKey root t.ctx k.gen
        let ct := Crypto.gcmCrypt key (bytesOf 12 iv.toNat) body
        some ({ s.draw with tenants := Store.put t.tenant { k with seals := Store.put (t.ctx * 2 ^ 32 + k.gen) (used + 1) k.seals } s.tenants },
          head ++ ct ++ Crypto.gcmTag key (bytesOf 12 iv.toNat) head ct)
  | _, _ => none

/-- Length of the image of a core's task (R325). -/
def State.imageLength (s : State) (n : Nat) (t : Task) : Nat := 0x1000 + 0x4000 * t.decl.tiles + t.decl.scratch + (extension (s.core n)).length + 16

/-- The next session counter of a context (R332): the value, and the value removed to make room, where that is
allowed; none where the live set is full. -/
def State.nextSession (s : State) (ctx : Nat) (required : Bool) : Option (State × Nat × Option Nat) :=
  match Store.find? s.ctxs ctx with
  | none => none
  | some x =>
    let v := Store.getD s.sessionCounts ctx 0 + 1
    let full := decide (Config.maxLive ≤ x.live.length)
    if full && !required then none
    else
      let live := if full then x.live.drop 1 else x.live
      some ({ s with ctxs := Store.put ctx { x with live := live ++ [v] } s.ctxs, sessionCounts := Store.put ctx v s.sessionCounts }, v,
        if full then x.live.head? else none)

/-- The persistent counter that COUNTER_BIND has bound to a task (R333). -/
def State.counterOf (s : State) (t : Task) : Option (Nat × Counter) :=
  List.find? (fun (p : Nat × Counter) => !p.2.paged && p.2.bound == some (t.tenant, t.ctx, t.number.toNat)) s.counters

/-- A copy is recorded at the first element of which a granule is not yet written: the granules that it has done with are written,
and one that it has part-filled is filled anew by the copy that is reissued, so that it comes out whole (R250, R289). -/
def State.settleCopy (s : State) (n id : Nat) : State :=
  let t := s.flushDone n id
  match (t.core n).copy? id with
  | none => t
  | some k =>
    let filled := k.staged.map Prod.fst
    let first := (List.range (k.next / k.grain)).find? (fun j => (t.elementGranules n k (k.grain * j)).any filled.contains)
    t.modCore n (fun c => c.setCopy { k with next := (first.map (k.grain * ·)).getD k.next, staged := [] })

/-- Steps 2 and 3 of Table 15-10: the task's accesses perform, its mint requests are answered, copies that have come
to their end deliver their objects, and what the others have done is written. -/
def State.settleTask (s : State) (n : Nat) : State :=
  let s1 := s.drained n
  let s2 := (List.range 64).foldl (fun (t : State) i => t.answerMint n (i % 8)) s1
  ((s2.core n).copies).foldl (fun (t : State) k =>
    match (t.core n).copy? k.id with
    | none => t
    | some k => if k.fault.isNone && !k.landed && (k.status != 0 || decide (k.units ≤ k.next)) then t.finishCopy n k else t.settleCopy n k.id) s2

/-- Steps 2 and 3 of Table 15-10 are done: no access is outstanding, and no copy that has ended waits for a page that is being copied
(R295). -/
def Core.settledDown (c : Core) : Bool := c.still && c.copies.all (fun k => k.staged.isEmpty)

/-- The cause with which an image of a core's task cannot be read: an error in a scratchpad row that it holds (R155, R373). -/
def State.imageCause (s : State) (n : Nat) (t : Task) : Option Cause := firstCause s.readCause ((List.range t.decl.scratch).map (Loc.win n))

/-- SAVE (R149, R290): what is written is the task as it stood at the SAVE, which a restored task issues again (log 35);
the task itself goes on. -/
def execSave (d h : BitVec 5) (c : BitVec 1) (s : State) : Host.Outcome State Fault Refusal :=
  finish s (do
    s.only [.ctl]
    s.scalars [d.toNat]
    let hv ← s.handleReg h.toNat
    let answer := fun (s : State) (v : Word) => Except.ok ((s.put d.toNat v 0).retire 2)
    match s.seq.mark, s.cur.task with
    | some (.saved _ v), _ => answer s v
    | some (.save _), _ => .error (.wait .other)
    | _, none => answer s (BitVec.ofNat 64 (2 ^ 63 + 2))
    | _, some t => do
      match s.handleCause t.tenant hv rightS with
      | some e => .error (.trap e)
      | none => .ok ()
      let bound := s.counterOf t
      if c = 1 ∧ (!hPersist hv ∨ bound.isNone) then answer s (BitVec.ofNat 64 (2 ^ 63 + 2))
      else do
        let n := s.curCore
        let s1 := s.settleTask n
        if (s1.core n).task.isNone then .ok s1
        else if !(s1.core n).settledDown || !(([.ld, .ex, .st] : List Sq).all (s1.undoable n)) then .error (.wait .other)
        else do
          match s1.imageCause n t with
          | some c => .error (.trap c)
          | none => .ok ()
          let shown := s1.undoWaits n t
          let len := shown.imageLength n t
          let (s2, ls) ← s1.reach hv rightS 0 len 1 .write
          s2.writable ls
          let failed := fun (s : State) => answer s (BitVec.ofNat 64 (2 ^ 63 + 1))
          match (if c = 0 then (s2.nextSession t.ctx false).map (fun x => (x.1, none, x.2.1)) else bound.map (fun b => (s2, some b.1, b.2.value + 1))) with
          | none => failed s2
          | some (s3, idx, v) =>
            -- the image shows the waits as not begun; the task keeps them
            match ({ s3 with cores := shown.cores, gangs := shown.gangs, launches := shown.launches } : State).sealImage n t true idx v with
            | none => failed s2
            | some (u, bytes) =>
              let s4 := ({ s3 with tenants := u.tenants, draws := u.draws } : State).writeNow (ls.zip bytes)
              match idx with
              | none => answer s4 0
              | some i =>
                let gen := ((Store.find? s4.tenants t.tenant).map Tenant.gen).getD 0
                let k : Commit := ⟨i, some n, hv, t.tenant, t.ctx, gen, v, bytes⟩
                .ok (({ s4 with commits := s4.commits ++ [k] } : State).awaitMark .other (.save d.toNat)))

/-- The TC, the MC and the driver act for a context outside any core. -/
def State.serviceWho (s : State) (tenant ctx : Nat) : Who := ⟨Config.numCores, tenant, ctx, ((Store.find? s.ctxs ctx).map Context.part).getD 16⟩

/-- The bytes of an image object, read back through its handle. -/
def State.readImage (s : State) (h : BitVec 256) (off len : Nat) : Except Cause (State × List Byte) :=
  match s.serviceReach (s.serviceWho (hTenant h) (hContext h)) h rightS off len 1 .read with
  | .error c => .error c
  | .ok (s1, ls) =>
    match firstCause s1.readCause ls with
    | some c => .error c
    | none => .ok (s1, s1.readLocs ls)

/-- A root wrapped under the TC's persistence root, or unwrapped (R310, R333): the algorithm is open (log 39). -/
def State.wrapped (s : State) (root : BitVec 256) : BitVec 256 := root ^^^ Config.wrapMask s.persistRoot

/-- PERSISTENT_COMMIT (R334): the image is read back, and, where it reads as it was written and the store's answer is
good, the counter's next value is committed with its commit record, in one write. It fails at a counter that has reached its last
commit (R333), and where the counter is not at the value before the image's, since another image of it was committed first. A SAVE
that waits receives the value, or the failure (R149); that of a hard stop is reported. Of several the oldest comes first. -/
def execPersistentCommit (idx : Nat) (good : Bool) (s : State) : Host.Outcome State Fault Refusal :=
  .next (
    match s.commits.find? (fun k => k.counter == idx), Store.find? s.counters idx with
    | some k, some x =>
      let same := match s.readImage k.handle 0 k.image.length with
        | .ok (_, bs) => bs == k.image
        | .error _ => false
      let t := Store.find? s.tenants k.tenant
      let root := (t.bind (fun t => Store.find? t.imageRoots k.gen))
      let done := { s with commits := s.commits.erase k }
      let ok := good && same && decide (x.commits < Config.maxCommits) && root.isSome && k.value == x.value + 1
      let record : CommitRecord := ⟨k.tenant, (t.map Tenant.owner).getD 0, k.gen, s.wrapped (root.getD 0)⟩
      let y : Counter := { x with value := k.value, commits := x.commits + 1, record := some record }
      let s1 := if ok then { done with counters := Store.put idx y done.counters } else done
      match k.core with
      | none => s1.reply (.committed idx (if ok then some k.value else none))
      | some n => s1.modCore n (fun c => c.modSeq .ctl (fun q =>
          match q.mark with
          | some (.save d) => { q with mark := some (.saved d (if ok then BitVec.ofNat 64 k.value else BitVec.ofNat 64 (2 ^ 63 + 1))) }
          | _ => q))
    | _, _ => s)

/-- The number that stands for a hard-stopped task of a record (log 36). -/
def parkedNumber (key ring number : Nat) : Nat := 2 ^ 20 + (key * 2 ^ 32 + ring) * 2 ^ 32 + number

/-- Gives a party another number, in its gang, its launch, its context's slots and the words of the aperture. -/
def State.renumber (s : State) (t : Task) (a b : Nat) : State :=
  let ps := fun (l : List Party) => l.map (fun p => if p.core = a then { p with core := b } else p)
  let ns := fun (l : List Nat) => l.map (fun n => if n = a then b else n)
  let gangs := match Store.find? s.gangs t.gang with
    | none => s.gangs
    | some g =>
      let same := fun (x : Barrier) => Barrier.mk x.phase (ps x.members) (ps x.joins) (ps x.leaves) (ps x.arrived)
      Store.put t.gang { g.mapBarriers same with cores := ns g.cores, was := g.was.map (fun (p : Nat × Barrier) => (p.1, same p.2)) } s.gangs
  let launches := match t.launch.bind (fun l => (Store.find? s.launches l).map (fun x => (l, x))) with
    | none => s.launches
    | some (l, x) => Store.put l { x with cores := ns x.cores, arrived := ps x.arrived } s.launches
  let ctxs := match Store.find? s.ctxs t.ctx with
    | none => s.ctxs
    | some c => Store.put t.ctx { c with slots := c.slots.map (fun x => if x.2.2 = a then (x.1, x.2.1, b) else x) } s.ctxs
  let aperture := s.aperture.map (fun (p : Nat × ApWord) =>
    if p.1 / 8192 / 64 ≠ t.ctx then p
    else
      let loads := match Store.find? p.2.loads a with
        | none => p.2.loads
        | some k => Store.put b k (Store.erase a p.2.loads)
      (p.1, { p.2 with loads := loads, writers := ns p.2.writers }))
  { s with gangs := gangs, launches := launches, ctxs := ctxs, aperture := aperture }

/-- Step 6 of Table 15-10: the core is free; its task stays a party of its gang and launch (log 36). What it has written on this
core is ordered before the completion of its record (R256). -/
def State.park (s : State) (n : Nat) (t : Task) : State :=
  let c := s.core n
  let ended := fun (q : Sq) => (c.seqs.get q).run == .ended
  let id := parkedNumber (queueKey t.tenant t.queue) t.ring t.number.toNat
  let k : Parked := ⟨t, ⟨ended .ld, ended .ex, ended .st, ended .ctl⟩, c.copies.map (fun k => (k.oldMap, k.mapTime, k.patched)), c.me⟩
  let s1 := ((s.coverTask n).modCore n Core.vacate).renumber t n id
  ({ s1 with parked := Store.put id k s1.parked, faults := s1.faults.filter (fun f => f.unit.core != some n) } : State).settleInval n

/-- The collectives of a task are cancelled at every member (R362). -/
def State.cancelColls (s : State) (n : Nat) : State :=
  (s.core n).colls.foldl (fun (t : State) (p : Nat × Coll) => t.endColl n p.1 0x100) s

/-- A cause that ends the task: a sequencer has met a fault that is not restartable, or is to raise a cause at the
boundary at which it stops. -/
def State.deadCause (s : State) (n : Nat) : Option Cause :=
  [Sq.ld, Sq.ex, Sq.st, Sq.ctl].findSome? (fun q =>
    let x := (s.core n).seqs.get q
    if x.run = .halted ∧ !s.faults.any (fun f => f.unit == .seq n q) then some x.cause
    else if x.run = .ended then none else x.late)

/-- An abnormal end whose rill advance is still held is counted before the copy is recorded. -/
def Core.noteLanded (c : Core) : Core :=
  c.copies.foldl (fun (d : Core) k => if k.landed ∧ k.status ≠ 0
    then (d.modSeq k.sq (fun x => x.noteAbnormal k)).setCopy { k with status := 0 } else d) c

/-- One task is hard-stopped (R289): its image is sealed and reported, or, for the persistent class, written through a
handle and left to its commit. A task that meets its own end at the stop, or a row of which holds an error, has no image. -/
def State.stopOne (s : State) (n : Nat) (cause : Cause) (persist : Option (BitVec 256 × Nat)) (required : Bool) : State :=
  match (s.core n).task with
  | none => s
  | some t =>
    let s1 := (s.settleTask n).cancelColls n
    if (s1.core n).task.isNone then s1
    else match (s1.deadCause n).orElse (fun _ => s1.imageCause n t) with
      | some c => s1.endTask n (some c)
      | none =>
        let s2 := (s1.undoWaits n t).modCore n Core.noteLanded
        let report := fun (s : State) (r : Reply) => { s with replies := s.replies ++ [r] }
        match persist with
        | none =>
          match s2.nextSession t.ctx required with
          | none => (report s2 (.image n cause false [])).park n t
          | some (s3, v, removed) =>
            match s3.sealImage n t false none v with
            | none => (report s2 (.image n cause false [])).park n t
            | some (s4, bytes) => (report (report s4 (.image n cause true bytes)) (.preempted t.ctx cause removed)).park n t
        | some (h, idx) =>
          let v := ((Store.find? s2.counters idx).map Counter.value).getD 0 + 1
          match s2.sealImage n t false (some idx) v with
          | none => (report s2 (.image n cause false [])).park n t
          | some (s3, bytes) =>
            match s3.serviceReach (s3.serviceWho (hTenant h) (hContext h)) h rightS 0 bytes.length 1 .write with
            | .error _ => (report s3 (.image n cause false [])).park n t
            | .ok (s4, ls) =>
              let s5 := s4.writeLocs (ls.zip bytes)
              let gen := ((Store.find? s5.tenants t.tenant).map Tenant.gen).getD 0
              let s6 := { s5 with commits := s5.commits ++ [⟨idx, none, h, t.tenant, t.ctx, gen, v, bytes⟩] }
              (report (report s6 (.image n cause true bytes)) (.preempted t.ctx cause none)).park n t

/-- A task has a broadcast operation outstanding (R206). -/
def Core.broadcasting (c : Core) : Bool := (c.me.active.any (fun o => o.bcast.isSome)) || (c.me.pendingOp.any (fun o => o.bcast.isSome))

/-- The cores that a hard stop of one stops together with it: with a broadcast operation outstanding, every member of the
gang (R206). -/
def State.stoppedWith (s : State) (n : Nat) : List Nat :=
  match (s.core n).task with
  | none => []
  | some t =>
    let mine := ((Store.find? s.gangs t.gang).elim [n] Gang.cores).filter (fun m => decide (m < Config.numCores))
    if mine.any (fun m => (s.core m).broadcasting) then mine else [n]

/-- A hard stop can be carried out: every access of the tasks performs, and every wait can be ended. -/
def State.stoppable (s : State) (ns : List Nat) : Bool :=
  ns.all (fun n => [Sq.ld, Sq.ex, Sq.st, Sq.ctl].all (s.undoable n)
    && (((s.settleTask n).core n).settledDown || ((s.settleTask n).core n).task.isNone))

/-- A HARD STOP WITH A SESSION IMAGE (R289, R332): one that the Genil itself requires is never refused; a discretionary
one is, with 0xD2, where the live set is full. -/
def State.hardStop (s : State) (n : Nat) (cause : Cause) (required : Bool) : State :=
  let ns := s.stoppedWith n
  match (s.core n).task with
  | none => s
  | some t =>
    if !s.stoppable ns then s
    else
      let live := ((Store.find? s.ctxs t.ctx).map (fun x => x.live.length)).getD 0
      if !required ∧ Config.maxLive < live + ns.length then { s with replies := s.replies ++ [.preempted t.ctx 0xD2 none] }
      else ns.foldl (fun (u : State) m => u.stopOne m cause none required) s

/-- The counter of a task that the MC pages out or migrates: the lowest free one, which is bound to it (R333). -/
def State.pageCounter (s : State) (t : Task) : Option (State × Nat) :=
  ((List.range Config.numCounters).find? (fun i => ((Store.find? s.counters i).bind Counter.bound).isNone)).map (fun i =>
    let x := Store.getD s.counters i ⟨0, 0, none, false, none⟩
    ({ s with counters := Store.put i { x with bound := some (t.tenant, t.ctx, t.number.toNat), paged := true } s.counters }, i))

/-- HARD_STOP (R289): at the driver's request or on the MC's schedule. For page-out and migration the images are
persistent, each written through a PERSIST handle of the MC, in the order of the cores that stop together; without a fit
handle or a free counter the stop is refused with 0xD2 (log 35). -/
def execHardStop (core : Nat) (persist : Bool) (handles : List (BitVec 256)) (s : State) : Host.Outcome State Fault Refusal :=
  .next (
    match (s.core core).task with
    | none => s
    | some t =>
      if !persist then s.hardStop core 0xD1 false
      else
        let ns := s.stoppedWith core
        let refuse := { s with replies := s.replies ++ [.preempted t.ctx 0xD2 none] }
        let fit := fun (n : Nat) (h : BitVec 256) => hPersist h && (match (s.core n).task with
          | none => false
          | some u => (s.accessCause (hTenant h) h rightS 0 (s.imageLength n u) 1).isNone)
        if !s.stoppable ns then s
        else if handles.length < ns.length || !(ns.zip handles).all (fun p => fit p.1 p.2) then refuse
        else
          match ns.foldl (fun (acc : Option (State × List (Nat × BitVec 256 × Nat))) n =>
              acc.bind (fun a => ((a.1.core n).task.bind a.1.pageCounter).map (fun x => (x.1, a.2 ++ [(n, handles.getD a.2.length 0, x.2)])))) (some (s, [])) with
          | none => refuse
          | some (s1, plan) => plan.foldl (fun (u : State) p => u.stopOne p.1 0xD1 (some p.2) false) s1)

/-- An image as the TC has read and checked it. -/
structure Image where
  tenant : Nat
  ctx : Nat
  persistent : Bool
  idx : Nat
  counter : Nat
  queue : Nat
  ring : Nat
  number : Nat
  member : Nat
  gangSize : Nat
  /-- the header, and what follows it, decrypted -/
  head : List Byte
  body : List Byte
  deriving DecidableEq, Repr

/-- Check 1 of R330: magic, version, length and the limits of the header's fields. -/
def goodImageHeader (h : List Byte) (bytes : Nat) : Bool :=
  let n := numAt h
  n 0 4 == 0x4943584B && n 4 2 == 1 && decide (n 6 2 < 2) && decide (n 8 1 < 2) && decide (n 9 1 ≤ 4)
    && decide (n 0x0A 2 < Config.numTenants) && decide (n 0x0C 2 < Config.numContexts)
    && decide (n 0x0E 2 < Config.numCounters) && (n 8 1 == 1 || n 0x0E 2 == 0) && n 0x14 4 % 16 == 0
    && (n 8 1 == 0 || n 0x20 8 == 0) && decide (n 0x28 8 < 2 ^ 38)
    && decide (1 ≤ n 0x35 1) && decide (n 0x35 1 ≤ 16) && decide (n 0x34 1 < n 0x35 1)
    && n 0x50 4 % 256 == 0 && decide (n 0x50 4 ≤ 0xC0000)
    && (List.range 4).all (fun i => decide (14 ≤ n (0x54 + i) 1) && decide (n (0x54 + i) 1 ≤ 32))
    && decide (n 0x58 1 ≤ 16) && decide (4 ≤ n 0x59 1) && decide (n 0x59 1 ≤ 32) && n 0x5A 2 == 0 && n 0x90 112 == 0
    && n 0x6C 4 == 0x1000 + 0x4000 * n 9 1 + n 0x50 4 + n 0x14 4 + 16 && decide (n 0x6C 4 ≤ bytes)

/-- The image root under which an image opens (R314, R330, check 2), else 0x96. -/
def State.imageRoot (s : State) (h : List Byte) : Except Cause (BitVec 256) :=
  let gen := numAt h 0x10 4
  match Store.find? s.tenants (numAt h 0x0A 2) with
  | none => .error 0x96
  | some t =>
    let held := if gen = t.gen ∨ (t.older ∧ gen + 1 = t.gen) then Store.find? t.imageRoots gen else none
    let record := if numAt h 8 1 = 1 then (Store.find? s.counters (numAt h 0x0E 2)).bind Counter.record else none
    match record with
    | some r =>
      if r.gen = gen ∧ r.tenant = numAt h 0x0A 2 then (if r.owner = t.owner then .ok (s.wrapped r.root) else .error 0x96)
      else (match held with | some k => .ok k | none => .error 0x96)
    | none => (match held with | some k => .ok k | none => .error 0x96)

/-- The ciphertext of an image. -/
def imageCipher (all : List Byte) : List Byte := (all.drop 0x100).take (all.length - 0x110)

/-- The image key that a root gives for the context and generation of an image's header (Table 17-5). -/
def imageKeyOf (root : BitVec 256) (all : List Byte) : BitVec 256 := imageKey root (numAt all 0x0C 2) (numAt all 0x10 4)

/-- The tag of an image is good under a root (R329). -/
def tagGood (root : BitVec 256) (all : List Byte) : Bool :=
  Crypto.gcmTag (imageKeyOf root all) ((all.drop 0x60).take 12) (all.take 0x100) (imageCipher all) == all.drop (all.length - 16)

/-- Check 2 of R330 on a whole image: the tag is good under the root of a generation that no slot holds any more, and so the
image is of that generation, whatever its number (R314, Table 21-6; DESIGN CHOICE, log 35). -/
def State.bygone (s : State) (root : BitVec 256) (all : List Byte) : Bool := !tagGood root all && s.retired.any (fun r => tagGood r all)

/-- Checks 3 and 4 of R330, on a whole image and its root. -/
def State.checkImage (s : State) (root : BitVec 256) (all : List Byte) : Except Cause Image :=
  let head := all.take 0x100
  if !tagGood root all then .error 0x94
  else
    let counter := numAt head 0x18 8
    let persistent := numAt head 8 1 == 1
    let fresh := if persistent then ((Store.find? s.counters (numAt head 0x0E 2)).map Counter.value) == some counter
      else numAt head 0x20 8 == s.sessionEpoch.toNat
        && (((Store.find? s.ctxs (numAt head 0x0C 2)).map Context.live).getD []).contains counter
    if !fresh then .error 0x95
    else .ok {
      tenant := numAt head 0x0A 2, ctx := numAt head 0x0C 2, persistent := persistent, idx := numAt head 0x0E 2, counter := counter,
      queue := bitsOf (numAt head 0x28 8) 37 32, ring := numAt head 0x28 4, number := numAt head 0x30 4,
      member := numAt head 0x34 1, gangSize := numAt head 0x35 1, head := head, body := Crypto.gcmCrypt (imageKeyOf root all) ((head.drop 0x60).take 12) (imageCipher all) }

/-- The checks of R330 in their order, on the image that a handle names. A check of the handle itself, or a read that
fails, refuses with its cause. -/
def State.openImage (s : State) (h : BitVec 256) : Except Cause Image :=
  match s.readImage h 0 0x100 with
  | .error c => .error c
  | .ok (_, head) =>
    if !goodImageHeader head (hLen h) then .error 0x94
    else match s.imageRoot head with
      | .error c => .error c
      | .ok root =>
        match s.readImage h 0 (numAt head 0x6C 4) with
        | .error c => .error c
        | .ok (_, all) => if s.bygone root all then .error 0x96 else s.checkImage root all

/-- The number under which an image's task may be parked. -/
def Image.parked (i : Image) : Nat := parkedNumber (queueKey i.tenant i.queue) i.ring i.number

/-- The handle that an image names as its launch's code handle. -/
def Image.code (i : Image) : BitVec 256 := BitVec.ofNat 256 (numAt i.head 0x70 32)

/-- A number of an image's body; offsets are those of Table 17-9. -/
def Image.at' (i : Image) (off n : Nat) : Nat := numAt i.body (off - 0x100) n

/-- The task that an image restores (R330): as it was stopped, or as the header and the launch record give it. Where no record is
held, the code length and the superstep flag are read from the kernel header once a sequencer issues (log 35). -/
def State.imageTask (s : State) (i : Image) : Option Task :=
  match Store.find? s.parked i.parked with
  | some k => some k.task
  | none =>
    match Store.find? s.ctxs i.ctx with
    | none => none
    | some x =>
      let key := queueKey i.tenant i.queue
      let q := (Store.find? s.queues key).bind (fun q => if q.ctx = i.ctx then some q else none)
      let r := (q.bind (fun q => q.record i.ring)).bind (fun r => if r.phase = .running then some r else none)
      let d := r.bind Record.decl
      some {
        tenant := i.tenant, ctx := i.ctx, part := x.part, tdi := x.tdi, queue := i.queue, ring := i.ring,
        number := BitVec.ofNat 32 i.number, gang := 0, member := i.member, gangSize := i.gangSize,
        indices := (List.range 6).map (fun k => BitVec.ofNat 32 (numAt i.head (0x38 + 4 * k) 4)),
        prio := (r.map (fun r => recPrio r.bits)).getD 0,
        decl := {
          codeLen := (d.map Decl.codeLen).getD 0, sstep := (d.map Decl.sstep).getD true,
          scalars := ⟨numAt i.head 0x54 1, numAt i.head 0x55 1, numAt i.head 0x56 1, numAt i.head 0x57 1⟩,
          tiles := numAt i.head 9 1, rills := numAt i.head 0x58 1, handles := numAt i.head 0x59 1,
          barriers := BitVec.ofNat 32 (numAt i.head 0x5C 4), scratch := numAt i.head 0x50 4 },
        code := i.code, args := (r.map (fun r => [1, 2, 3].map (recHandle r.bits))).getD [],
        sigHandle := (r.map Record.sigHandle).getD ((q.map Queue.sigHandle).getD 0),
        area := (r.map Record.area).getD ((q.map Queue.area).getD 0),
        group := (r.map Record.group).getD ⟨0, 1, 0, [1, 1, 1, 1], []⟩, launch := none, unread := d.isNone }

/-- A sequencer as its block records it (Table 17-11); it reads the HDR's length and the REP's parcel from the code when it next
issues. It holds no granule of the block in which it stands, and reads them again, though it does not enter the block anew:
neither R75 nor the image says which it holds (DESIGN CHOICE, log 35). -/
def Image.seq (i : Image) (q : Sq) : SeqState :=
  let o := 0x100 + 0x200 * q.num
  let st := i.at' o 8
  let pc := st / 2 ^ 32
  let hdr := i.at' (o + 8) 4
  let passes := bitsOf (i.at' (o + 8) 8) 43 32
  let rep := i.at' (o + 0x10) 8
  let pb := i.at' (o + 0x18) 8
  let inBody := hdr != pc
  let cause : Cause := BitVec.ofNat 8 (bitsOf st 31 24)
  let ended := bitsOf st 23 20 == 3
  { SeqState.reset with
    regs := Vector.ofFn (fun (k : Fin 32) => BitVec.ofNat 64 (i.at' (o + 0x100 + 8 * k.val) 8)),
    preds := BitVec.ofNat 8 (i.at' (o + 0x20) 1), pc := pc, cause := cause, run := if ended then .ended else .running,
    late := if ended ∧ cause ≠ 0 then some cause else none,
    hdr := hdr, passes := passes, inBody := inBody, reread := inBody,
    rep := if rep / 2 ^ 63 = 1 then some ⟨rep % 2 ^ 32, repBits rep, bitsOf rep 46 40⟩ else none,
    pb := if pb / 2 ^ 63 = 1 then some ⟨pb % 2 ^ 32, pb.testBit 32, BitVec.ofNat 8 (bitsOf pb 40 33), bitsOf pb 44 41, bitsOf pb 48 45⟩ else none,
    rq := (List.range (i.at' (o + 0x78) 1)).map (fun k => ⟨0, some (BitVec.ofNat 64 (i.at' (o + 0x80 + 8 * k) 8)), 0⟩),
    abnormal := bitsOf (i.at' (o + 0x38) 8) 63 48, firstSeq := BitVec.ofNat 16 (bitsOf (i.at' (o + 0x38) 8) 31 16),
    firstStatus := BitVec.ofNat 8 (bitsOf (i.at' (o + 0x38) 8) 7 0), issued := BitVec.ofNat 32 (i.at' (o + 0x40) 4) }

/-- A restored task learns what the header of its kernel says that no record held: it belongs to the launch of its record only if it
is a superstep launch (R25, R34). -/
def State.learn (s : State) (d : Decl) : State :=
  match s.cur.task with
  | none => s
  | some t =>
    let t' : Task := { t with unread := false, decl := { t.decl with codeLen := d.codeLen, sstep := d.sstep }, launch := if d.sstep then t.launch else none }
    let s1 := s.modCur (fun c => { c with task := some t' })
    if d.sstep then s1 else s1.leaveLaunch s.curCore t.launch

/-- What a restore leaves the issuing sequencer to read from its code, with the checks of its own fetches: the kernel header, where no
record is held, the length of its block, and the word of its REP (R280, R330; DESIGN CHOICE, log 35). A header that is none has no
code behind it. -/
def State.rereadCode (s : State) : Except Stop State := do
  let s1 ← (if (s.cur.task.map Task.unread).getD false then do
      let (t, ps) ← s.parcels 32 0
      match parseHeader (ps.flatMap (fun p => bytesOf 2 p.toNat)) with
      | none => .error (.trap 0x05)
      | some h => .ok (t.learn h.decl)
    else .ok s)
  if !s1.seq.reread then .ok s1
  else do
    let (s2, l) ← s1.parcel (s1.seq.hdr + 1)
    let (s3, r) ← (match s2.seq.rep with
      | none => .ok (s2, 0)
      | some r => s2.parcel r.offset)
    .ok (s3.modSeq (fun x => { x with reread := false, length := bitsOf l.toNat 11 0, rep := x.rep.map (fun y => { y with parcel := r }) }))

/-- The unit at the pc of the issuing sequencer, once a restored one has read its code again. -/
noncomputable def State.issueUnit (s : State) : Except Stop (State × Fetched) := do
  let t ← s.rereadCode
  t.nextUnit

/-- A shape record and what follows it. -/
def takeShape (bs : List Byte) : (Nat × Shape) × List Byte :=
  let ctl : Word := BitVec.ofNat 64 (numAt bs 8 8)
  let n := bitsOf ctl.toNat 3 0
  let w := fun (k : Nat) => (BitVec.ofNat 64 (numAt bs k 8) : Word)
  let y : Shape := ⟨ctl, Vector.ofFn (fun (j : Fin 10) => if j.val < n
    then ⟨w (16 + 24 * j.val), w (24 + 24 * j.val), w (32 + 24 * j.val)⟩ else ⟨0, 0, 0⟩)⟩
  ((bitsOf (numAt bs 0 8) 3 0, y), bs.drop (16 + 24 * n))

/-- n shape records and what follows them. -/
def takeShapes : Nat → List Byte → List (Nat × Shape) × List Byte
  | 0, bs => ([], bs)
  | n + 1, bs =>
    let (y, rest) := takeShape bs
    let (ys, tl) := takeShapes n rest
    (y :: ys, tl)

/-- The copy that an LC word names (Table 5-6). -/
def copyModeOf (w : Nat) : CopyMode :=
  let m := bitsOf w 4 1
  if bitsOf w 28 24 = 0x1A then (match m with | 0 => .cpy | 1 => .cpyin | 2 => .cpyout | 3 => .cpyz | _ => .cpycv)
  else if m = 0 then .gather else .scatter

/-- Copy records and what follows them: each copy is reissued from its recorded element (R185, R289), with the mapping that it
had, and what it had written of lines with an error, where the stopped task is known (R252, R374). -/
def takeCopies : Nat → Nat → List (Bool × Nat × List Loc) → Nat → List Byte → List Copy × List Byte
  | 0, _, _, _, bs => ([], bs)
  | n + 1, id, maps, now, bs =>
    let w := numAt bs 0 4
    let mode := copyModeOf w
    let a := numAt bs 16 8
    let b := numAt bs 24 8
    let (y, rest) := takeShape (bs.drop 104)
    let k : Copy := {
      id := id, sq := Sq.ofNum (numAt bs 12 1), issue := BitVec.ofNat 32 (numAt bs 8 4), mode := mode, word := BitVec.ofNat 32 w,
      lit := BitVec.ofNat 32 (numAt bs 4 4), dst := BitVec.ofNat 256 (numAt bs 72 32), src := BitVec.ofNat 256 (numAt bs 40 32),
      soff := (match mode with | .gather => 0 | .scatter => b | _ => a),
      doff := (match mode with | .scatter => 0 | .cpyout => b % 2 ^ 48 | _ => b),
      extra := BitVec.ofNat 64 (match mode with | .gather => a | .scatter => a | .cpyout => b / 2 ^ 48 | _ => 0),
      shape := y.2, next := numAt bs 32 8, status := 0, loadDeps := [], storeDeps := [], touched := numAt bs 32 8 != 0,
      unverified := [], staged := [], patched := (maps.head?.map (fun m => m.2.2)).getD [], landed := false, fault := none,
      oldMap := (maps.head?.map Prod.fst).getD false, mapTime := (maps.head?.map (fun m => m.2.1)).getD now }
    let (ks, tl) := takeCopies n (id + 1) (maps.drop 1) now rest
    (k :: ks, tl)

/-- Mint records: each tag is outstanding and already answered (R328). -/
def takeMints : Nat → List Byte → Store MintReq
  | 0, _ => []
  | n + 1, bs =>
    Store.put (numAt bs 0 1) ⟨0, 0, 0, 0, some (numAt bs 1 1, BitVec.ofNat 256 (numAt bs 16 32))⟩ (takeMints n (bs.drop 48))

/-- A register set of the matrix engine. -/
def takeMeSet (bs : List Byte) : Vector Word 36 × Word × Word :=
  (Vector.ofFn (fun (j : Fin 36) => BitVec.ofNat 64 (numAt bs (8 * j.val) 8)), BitVec.ofNat 64 (numAt bs 0x120 8), BitVec.ofNat 64 (numAt bs 0x128 8))

/-- An operation of the matrix engine as an image records it: its handles are those its registers name (log 35), and the
rows of C that its committed row-steps have written are known from the nest (R205, R206). A broadcast operation forms its
rendezvous again, and the comparisons of R202 are made again (R206). -/
def restoreOp (x : Vector Word 36 × Word × Word) (hs : Vector (BitVec 256) 32) (prog : Nat) (bcast : Option Nat) (again : Bool) : MeOp :=
  let r := x.1
  let ah := hs[(mxReg r 0x18).toNat]?.getD 0
  let bh := hs[(mxReg r 0x1A).toNat]?.getD 0
  let f := mxFormats r ah bh
  let o : MeOp := {
    regs := r, rowMask := if (mxReg r 0x20).getLsbD 3 then some x.2.1 else none,
    colMask := if (mxReg r 0x21).getLsbD 3 then some x.2.2 else none, ah := ah, bh := bh, fmtA := f.1, fmtB := f.2,
    prog := prog, written := [], earlier := [], found := [], loadDeps := [], storeDeps := [], bcast := bcast, met := false, again := again, fault := none }
  { o with written := ((List.range prog).filter o.rowActive).foldl (fun (l : List Nat) j =>
      let row := (mxRow r j).toNat
      if l.contains row then l else l ++ [row]) [] }

/-- The number under which operations that had met form their rendezvous again, where the one that they had is not known: no
operation counts so far. -/
def metAgain : Nat := 2 ^ 64

/-- The matrix engine that an image records. Broadcast operations take again the place that they had, or, where it is not
known, those that have not met count anew from 0, apart from those that have (R206, log 36). -/
def restoreMe (i : Image) (ext : List Byte) (hs : Vector (BitVec 256) 32) (old : Option Me) : Me :=
  let flags := numAt ext 0 1
  let sets := fun (k : Nat) => takeMeSet (ext.drop (16 + 0x130 * k))
  let sh := if flags.testBit 0 then 1 else 0
  let ac := if flags.testBit 1 then 1 else 0
  let status := i.at' 0x0EA8 8
  let a := if flags.testBit 1 then some (sets sh) else none
  let p := if flags.testBit 2 then some (sets (sh + ac)) else none
  let group := fun (x : Vector Word 36 × Word × Word) => (mxReg x.1 0x23).toNat
  let known := fun (o : Option MeOp) => o.map (fun o => (o.bcast, o.met || o.again))
  let (abc, amet) := match a, old.bind (fun m => known m.active) with
    | some x, none => (if group x = 0 then none else some (if bitsOf status 55 52 = 3 then 0 else metAgain), bitsOf status 55 52 != 3 && group x != 0)
    | _, some k => k
    | none, none => (none, false)
  let behind := match a, p with
    | some x, some y => group x == group y && !amet
    | _, _ => false
  let (pbc, pmet) := match p, old.bind (fun m => known m.pendingOp) with
    | some y, none => (if group y = 0 then none else some (if behind then 1 else 0), false)
    | _, some k => k
    | none, none => (none, false)
  let count := fun (m : Store Nat) (x : Option (Vector Word 36 × Word × Word)) (b : Option Nat) (met : Bool) => match x, b with
    | some x, some k => if met then m else Store.put (group x) (k + 1) m
    | _, _ => m
  { Me.reset with
    shadow := if flags.testBit 0 then (sets 0).1 else Vector.replicate 36 0,
    active := a.map (fun x => restoreOp x hs (status % 2 ^ 40) abc amet),
    pendingOp := p.map (fun x => restoreOp x hs 0 pbc pmet),
    bcasts := match old with
      | some m => m.bcasts
      | none => count (count [] a abc amet) p pbc pmet }

/-- A held collective id whose status an image records (R362): it has made no write on this core, so its place in issue order is a
number that no COLL has. -/
def restoreColl (w : Nat) : Option Coll :=
  if w / 2 ^ 15 % 2 = 0 then none
  else some {
    order := 2 ^ 64, channel := 0, fmt := 0, src := 0, dst := 0, soff := 0, doff := 0, extents := [], l1 := 0, l2 := 0, louvre := false,
    exchange := false, lit := 0, held := true, started := false, nth := 0, chunks := [], passed := 0, gone := [], come := [], spoiled := none, drawn := none, slot := none, ended := some (BitVec.ofNat 9 w),
    cancelling := false, counters := [], cuts := [], formed := [], loadDeps := [], storeDeps := [], fault := none }

/-- The type of a tile code. -/
def tileTypeOf (n : Nat) : TileType :=
  match n with | 0 => .fp32 | 1 => .int32 | 2 => .bf16 | 3 => .fp16 | _ => .int8

/-- A rill of an image. -/
def restoreRill (i : Image) (w : Nat) : Option Rill :=
  let g := i.at' (0x0900 + 12 * w) 8
  let p := i.at' (0x0908 + 12 * w) 4
  if g = 0 then none
  else some ⟨bitsOf g 19 0, bitsOf g 39 20, bitsOf g 48 40, bitsOf p 7 0, bitsOf p 15 8, bitsOf p 24 16⟩

/-- A core as an image restores it (R330): what the image holds, with every taint set empty (R326). What its task has read before
is not known; ld reads nothing older than the restore (R230). -/
def Core.restore (c : Core) (t : Task) (i : Image) (seqs : Quad SeqState) (old : Option Me) (maps : List (Bool × Nat × List Loc)) (cycle writes : Nat) : Core :=
  let b := { c.startTask t (Quad.all 0) [] cycle writes with base := writes }
  let hs := Vector.ofFn (fun (k : Fin 32) => BitVec.ofNat 256 (i.at' (0x0A00 + 32 * k.val) 32))
  let T := t.decl.tiles
  let S := t.decl.scratch
  let base := 0x1000 + 0x4000 * T
  let ext := i.body.drop (base + S - 0x100)
  let flags := numAt ext 0 1
  let nsets := (if flags.testBit 0 then 1 else 0) + (if flags.testBit 1 then 1 else 0) + (if flags.testBit 2 then 1 else 0)
  let (shapes, r1) := takeShapes (numAt ext 1 1) (ext.drop (16 + 0x130 * nsets))
  let (copies, r2) := takeCopies (numAt ext 2 2) b.nextId maps writes r1
  let rows := (List.range (64 * T)).foldl (fun (d : Core) r => d.setRow r (BitVec.ofNat 2048 (i.at' (0x1000 + 256 * r) 256))) b
  Core.tick { rows with
    seqs := seqs, handles := hs,
    tileType := Vector.ofFn (fun (k : Fin 4) => tileTypeOf (i.at' (0x0EA0 + k.val) 1)),
    vm := BitVec.ofNat 256 (i.at' 0x0E80 32),
    kmask := Vector.ofFn (fun (k : Fin 8) => BitVec.ofNat 64 (i.at' (0x0E00 + 8 * k.val) 8)),
    layouts := Vector.ofFn (fun (k : Fin 8) => BitVec.ofNat 64 (i.at' (0x0E40 + 8 * k.val) 8)),
    fpmode := BitVec.ofNat 2 (i.at' (0x100 + 0x200 + 0x28) 8), fpflags := BitVec.ofNat 5 (i.at' (0x100 + 0x200 + 0x30) 8),
    shapes := shapes.foldl (fun (v : Vector Shape 16) y => v.setIfInBounds y.1 y.2) (Vector.replicate 16 Shape.unset),
    rills := Vector.ofFn (fun (w : Fin 16) => restoreRill i w.val),
    tokens := Vector.ofFn (fun (q : Fin 12) => i.at' (0x09C0 + 2 * q.val) 2),
    ccnt := BitVec.ofNat 32 (i.at' 0x0EA4 4),
    scratch := Memory.writeN (Memory.clear rows.scratch 0 S) 0 ((i.body.drop (base - 0x100)).take S),
    scrubbed := ((List.range ((S + 63) / 64)).filter (fun r => decide (rows.watermark ≤ r) && !rows.scrubbed.contains r)) ++ rows.scrubbed,
    me := restoreMe i ext hs old, copies := copies, nextId := b.nextId + copies.length,
    mints := takeMints (numAt ext 4 1) r2,
    colls := (List.range 16).foldl (fun (m : Store Coll) k => match restoreColl (i.at' (0x100 + 0x600 + 0x48 + 2 * k) 2) with
      | none => m
      | some x => Store.put k x m) [] }

/-- The barriers that an image shows for its core, added to those of the gang it restores (Table 17-12). -/
def Gang.addBarriers (g : Gang) (n : Nat) (i : Image) : Gang :=
  let h := (List.range 32).foldl (fun (g : Gang) j =>
    let w := i.at' (0x0EB0 + 8 * j) 8
    let ps := fun (lo : Nat) => [Sq.ld, Sq.ex, Sq.st, Sq.ctl].filterMap (fun q => if w.testBit (lo + q.num) then some (Party.mk n q) else none)
    if w = 0 then g
    else
      let b := g.barrier j
      { g with barriers := Store.put j { phase := BitVec.ofNat 32 w, members := b.members ++ ps 32, joins := b.joins ++ ps 36,
                                         leaves := b.leaves ++ ps 40, arrived := b.arrived ++ ps 44 } g.barriers }) g
  { h with was := h.barriers }

/-- No access goes through a handle that has been revoked since an image was sealed (R309): a copy of one ends with 0x74, and an
operation of the matrix engine is aborted, as a sweep would have done (R307). -/
def State.dropRevoked (s : State) (n tenant : Nat) : State :=
  let gone := s.handleGone tenant
  let hit := fun (o : MeOp) => gone o.ah || gone o.bh
  let s1 := s.modCore n (fun c => { c with copies := c.copies.map (fun (k : Copy) =>
    if gone k.dst || (k.mode.reads && gone k.src) then { k with status := 0x74, staged := [] } else k) })
  let m := (s1.core n).me
  if m.active.any hit || m.pendingOp.any hit then (s1.abortMe n hit).raiseLate n .ex 0x74 else s1

/-- A core's rows that an image holds are written: what had struck them is gone (R315, R373). -/
def State.mendRows (s : State) (n rows : Nat) : State :=
  let keep := fun (r : Nat) => r / 16384 != n || decide (rows ≤ r % 16384)
  { s with badRows := s.badRows.filter keep, lostRows := s.lostRows.filter keep }

/-- One image goes to a core. The task joins its gang and launch again where it was stopped from them; otherwise it
belongs to the gang that is restored with it, and to the launch of its record's other restored tasks. -/
def State.restoreOne (s : State) (n gangId : Nat) (i : Image) (t : Task) (seqs : Quad SeqState) : State :=
  let s0 := s.enterCluster (n / Config.clusterCores) t.tenant
  match Store.find? s0.parked i.parked with
  | some k =>
    let s1 := (s0.modCore n (fun c => c.restore t i seqs (some k.me) k.maps s.cycle s.writes)).renumber t i.parked n
    ({ s1 with parked := Store.erase i.parked s1.parked }.mendRows n (t.decl.scratch / 64)).dropRevoked n t.tenant
  | none =>
    let other := (s0.running.find? (fun p => p.2.tenant == t.tenant && p.2.queue == t.queue && p.2.ring == t.ring && p.2.launch.isSome)).bind (fun p => p.2.launch)
    let steps := 2 * i.at' 0x0FB0 4 + i.at' 0x0FB4 4 % 2
    let launch := if t.decl.sstep then some (other.getD gangId) else none
    let t' := { t with gang := gangId, launch := launch }
    let g := Store.getD s0.gangs gangId ⟨[], [], [], []⟩
    let s1 := s0.modCore n (fun c => c.restore t' i seqs none [] s.cycle s.writes)
    let s2 := { s1 with
      gangs := Store.put gangId (Gang.addBarriers { g with cores := g.cores ++ [n] } n i) s1.gangs,
      launches := (match launch with
        | none => s1.launches
        | some l =>
          let x := Store.getD s1.launches l ⟨[], steps, []⟩
          Store.put l { x with cores := x.cores ++ [n] } s1.launches) }
    ((s2.mendRows n (t.decl.scratch / 64)).dropRevoked n t.tenant).modQueue (queueKey t.tenant t.queue) (fun q => q.modRecord t.ring (fun r =>
      if r.phase = .running then { r with live := r.live + 1 } else r))

/-- Every member of a gang is restored at once (R330): all that are parked of a gang the Genil knows, else every member. -/
def State.wholeGang (s : State) (is : List Image) : Bool :=
  match is with
  | [] => false
  | i :: _ =>
    is.all (fun j => j.tenant == i.tenant && j.ctx == i.ctx && j.gangSize == i.gangSize) && (is.map Image.member).Nodup
      && match Store.find? s.parked i.parked with
        | some k => is.all (fun j => (Store.find? s.parked j.parked).map (fun x => x.task.gang) == some k.task.gang)
            && (s.parked.filter (fun (p : Nat × Parked) => p.2.task.gang == k.task.gang)).length == is.length
        | none => is.all (fun j => (Store.find? s.parked j.parked).isNone) && is.length == i.gangSize

/-- Cores for the members of a gang: of the cluster in which other members still run, else the lowest that suffices. -/
def State.restoreSeats (s : State) (t : Task) (count : Nat) (known : Bool) : Option (List Nat) :=
  let free := s.freeCores t.part (queueKey t.tenant t.queue) t.ring t.tenant false
  let mates := if known then ((Store.find? s.gangs t.gang).elim [] Gang.cores).filter (fun m => decide (m < Config.numCores)) else []
  match mates with
  | m :: _ =>
    let cs := free.filter (fun n => n / Config.clusterCores == m / Config.clusterCores)
    if count ≤ cs.length then some (cs.take count) else none
  | [] => chooseCores free none count

/-- What an accepted restore does to the counters (R332, R333): a session counter leaves its live set, and a counter bound
for a page-out is freed. -/
def State.useCounter (s : State) (i : Image) : State :=
  if i.persistent then
    match Store.find? s.counters i.idx with
    | none => s
    | some x => if x.paged then { s with counters := Store.put i.idx { x with bound := none, paged := false, record := none } s.counters } else s
  else match Store.find? s.ctxs i.ctx with
    | none => s
    | some x => { s with ctxs := Store.put i.ctx { x with live := x.live.filter (· != i.counter) } s.ctxs }

/-- The task and the sequencers of an image of a context that there is. -/
def State.imagePlan (s : State) (i : Image) : Option (Image × Task × Quad SeqState) :=
  (s.imageTask i).map (fun t => (i, t, ⟨i.seq .ld, i.seq .ex, i.seq .st, i.seq .ctl⟩))

/-- Of a gang restored where its tasks are not known, a pending broadcast operation that agrees with one that a peer of the same set
runs is taken to be of its rendezvous, of which the image does not tell (R206; DESIGN CHOICE, log 36). -/
def State.rejoin (s : State) (cores : List Nat) : State :=
  let set := fun (o : MeOp) => (mxReg o.regs 0x23).toNat
  let runs := cores.filterMap (fun n => (s.core n).me.active.bind (fun o => if o.again then some o else none))
  cores.foldl (fun (u : State) n => u.modMe n (fun m => match m.pendingOp with
    | none => m
    | some p =>
      if p.bcast.isSome && !p.again && !m.active.any (fun o => o.bcast.isSome && set o == set p) && runs.any (fun o => set o == set p && o.agrees p)
      then { m with pendingOp := some { p with bcast := some metAgain, again := true }, bcasts := Store.erase (set p) m.bcasts }
      else m)) s

/-- The TC answers a RESTORE with a status and, where it refuses an image, the cause (R299, R330). -/
def State.restoreReply (s : State) (status : Nat) (cause : Cause) : State := { s with replies := s.replies ++ [.restored status cause] }

/-- The images of a gang's members are restored together onto free cores. Images of no whole gang, or of a context
that there is not, are answered as malformed, and where too few cores are free as a resource exhausted (log 35). -/
def State.restoreImages (s : State) (images : List Image) : State :=
  let is := sortKey Image.member images
  match is.mapM s.imagePlan with
  | none => s.restoreReply 2 0
  | some [] => s.restoreReply 2 0
  | some ((i, t, q) :: rest) =>
    if !s.wholeGang is then s.restoreReply 2 0
    else match s.restoreSeats t is.length (Store.find? s.parked i.parked).isSome with
      | none => s.restoreReply 3 0
      | some cores =>
        let s1 := is.foldl (fun (u : State) i => u.useCounter i) s
        let s2 := State.restoreReply { s1 with nextGang := s1.nextGang + 1 } 0 0
        let s3 := (cores.zip ((i, t, q) :: rest)).foldl (fun (u : State) p => u.restoreOne p.1 s.nextGang p.2.1 p.2.2.1 p.2.2.2) s2
        State.settleRotations (if (Store.find? s.parked i.parked).isSome then s3 else s3.rejoin cores)

/-- RESTORE (R299, R330), from the MC alone: the images are checked, and refused at the first failure, with status 1 and its
cause (log 39), or restored. -/
def execRestore (r : Request (List (BitVec 256))) (s : State) : Host.Outcome State Fault Refusal :=
  .next (
    if r.who ≠ .mc then s.restoreReply 1 0
    else match r.topic.mapM s.openImage with
      | .error c => s.restoreReply 1 c
      | .ok images => s.restoreImages images)

end Sys2Proof.Machine
end

