-- ==== Sys2Proof/Machine/Sched.lean ====
section
/-!
DEFINITION. Scheduling events: the queue and fault-ring registers (R259, R260, R271, R284, R285), second-stage faults
(R286), invalidations (R252 to R254), tokens (R272, R273), power caps (R276), watchdogs (R39, R288, R292), pre-emption
(R288), migration and slices (R293 to R296), queue and partition configuration (R258, R339), host accesses and the
function-level reset (R291).
-/
namespace Sys2Proof.Machine

/-- The queue of a number that a TDI's registers show (R259). -/
def State.tdiQueue (s : State) (tdi q : Nat) : Option (Nat × Queue) :=
  List.find? (fun (p : Nat × Queue) => p.1 % 64 == q && p.2.tdi == tdi) s.queues

/-- A TDI accepts queue configuration, records and TC requests (R321). -/
def State.tdiAccepts (s : State) (tdi : Nat) : Bool := (s.tdi tdi).state == .locked || (s.tdi tdi).state == .run

/-- QTAIL_WRITE (R260). A TDI that is not locked accepts no work, and discards the write (R321; log 38). -/
def execQtailWrite (tdi q value : Nat) (s : State) : Host.Outcome State Fault Refusal :=
  .next (
    match s.tdiQueue tdi q with
    | none => s
    | some (key, x) =>
      let t : BitVec 32 := BitVec.ofNat 32 value
      let d := (t - x.head).toNat
      if !s.tdiAccepts tdi || x.error || decide (2 ^ x.ringLog < d) || decide (d < (x.tail - x.head).toNat)
      then s.modQueue key (fun x => { x with ovf := true })
      else s.appendRecords key (t - x.tail).toNat)

/-- QSTATE_OVF_CLEAR (R259). -/
def execQstateOvfClear (tdi q : Nat) (s : State) : Host.Outcome State Fault Refusal :=
  .next (match s.tdiQueue tdi q with
    | none => s
    | some (key, _) => s.modQueue key (fun x => { x with ovf := false }))

/-- QCTL_RESET (R271): the queue is to be reset, and starts no further record. -/
def execQctlReset (tdi q : Nat) (s : State) : Host.Outcome State Fault Refusal :=
  .next (match s.tdiQueue tdi q with
    | none => s
    | some (key, _) => s.modQueue key (fun x => { x with resetPending := true }))

/-- QUEUE_RESET_COMPLETE (R271): every started record has completed; the others complete with ABORTED. -/
def execQueueResetComplete (tdi q : Nat) (s : State) : Host.Outcome State Fault Refusal :=
  .next (
    match s.tdiQueue tdi q with
    | none => s
    | some (key, x) =>
      if !x.resetPending || x.records.any (fun r => r.phase.started && r.phase != .complete) then s
      else (s.abortRecords key x.records).modQueue key (fun x =>
        { x with head := x.tail, records := [], error := false, ovf := false, bad := 0, resetPending := false }))

/-- A unit is halted no longer: a sequencer reissues its instruction, an engine resumes where it stands (R285). -/
def State.unhalt (s : State) (u : FaultUnit) : State :=
  match u with
  | .seq n q => s.modCore n (fun c => c.modSeq q (fun x => if x.run = .halted then { x with run := .running } else x))
  | .copy n id => s.modCore n (fun c => match c.copy? id with
      | none => c
      | some k => c.setCopy { k with fault := none })
  | .me n => s.modMe n (fun m => { m with active := m.active.map (fun o => { o with fault := none }) })
  | .coll n id => s.modCore n (fun c => c.modColl id (fun k => { k with fault := none }))
  | .candidate _ _ => s

/-- A halted unit goes on (R285); its core has made progress (R39). -/
def State.resumeUnit (s : State) (u : FaultUnit) : State :=
  match u.core with
  | none => s.unhalt u
  | some n => (s.unhalt u).modCore n (fun c => { c with lastActive := s.cycle })

/-- A fault is no longer outstanding. -/
def State.dropFault (s : State) (id : Nat) : State := { s with faults := s.faults.filter (fun f => f.id != id) }

/-- Writes the faults held for a TDI to its ring, oldest first, while it has room; where places in FSTAT come free, the units
whose faults found none raise them afresh (R285). -/
def State.writeHeld (s : State) (tdi : Nat) : State :=
  let s1 := s.faults.foldl (fun (t : State) f => if f.tdi = tdi ∧ f.held ∧ !f.beyond then t.writeRing f else t) s
  if Config.maxHeld ≤ s1.fstat tdi then s1
  else s1.faults.foldl (fun (t : State) f => if f.tdi = tdi ∧ f.beyond then (t.dropFault f.id).resumeUnit f.unit else t) s1

/-- REGISTER_WRITE (R284, Table 15-7): FRBASE, FRSIZE and FRCONS; a value with a reserved bit, or an unaligned base, is
discarded (log 38). Space that frees takes faults that are held. -/
def execRegisterWrite (tdi off value : Nat) (s : State) : Host.Outcome State Fault Refusal :=
  .next (
    let t := s.tdi tdi
    let put := fun (x : Tdi) => State.writeHeld { s with tdis := Store.put tdi x s.tdis } tdi
    if Config.numTdis ≤ tdi then s
    else match off with
    | 0x00 => if value < 2 ^ 57 ∧ value % 4096 = 0 then put { t with frbase := BitVec.ofNat 64 value } else s
    | 0x08 => if value = 0 ∨ (4 ≤ value ∧ value ≤ 12) then put { t with frsize := value } else s
    | 0x14 => put { t with frcons := BitVec.ofNat 32 value }
    | _ => s)

/-- The fault of an id that the guest of a TDI was given, or will be. -/
def State.guestFault (s : State) (tdi id : Nat) : Option FaultRec := s.faults.find? (fun f => f.id == id && f.tdi == tdi && f.info.toGuest && !f.beyond)

/-- FRES with action 0 (R285). An id that names no halted unit is ignored. -/
def execFresRetry (tdi id : Nat) (s : State) : Host.Outcome State Fault Refusal :=
  .next (match s.guestFault tdi id with
    | none => s
    | some f => ((s.dropFault id).resumeUnit f.unit).writeHeld tdi)

/-- FRES with action 1 (R285): the task ends with FAULT and that cause. -/
def execFresEndTask (tdi id : Nat) (s : State) : Host.Outcome State Fault Refusal :=
  .next (match s.guestFault tdi id with
    | none => s
    | some f => match f.unit.core with
      | none => s
      | some n => ((s.dropFault id).failTask n f.info.cause).writeHeld tdi)

/-- SECOND_STAGE_FAULT_SERVICE (R286): the MC supplies a frame or remaps, with its table writes and owner records, and the
unit tries again; a candidate's read is made again (R261). Unresolved, it ends the task, or the candidate, with FAULT. The MC's
writes wait for a page that is being copied (R295). -/
def execSecondStageFaultService (id : Nat) (resolved : Bool) (writes : List (Nat × Word)) (owners : List (Nat × Nat)) (s : State) :
    Host.Outcome State Fault Refusal :=
  .next (
    match s.faults.find? (fun f => f.id == id && !f.info.toGuest) with
    | none => s
    | some f =>
      let s1 := s.dropFault id
      if resolved && s.mcWaits writes then s
      else if resolved then
        let s2 := (s1.mcWrites writes).setOwners owners
        match f.unit with
        | .candidate key _ => (s2.checkCandidate key).evaluate key
        | u => s2.resumeUnit u
      else match f.unit with
        | .candidate key ring => s1.completeRecord key ring 0x13 f.info.cause 0
        | u => match u.core with
          | none => s1
          | some n => s1.failTask n f.info.cause)

/-- INVALIDATION (R252, R254): it is that of the partition to which the core belongs. A marker stands behind every copy already
issued, which translates with the old mapping, that from the last invalidation that had reached the core on; a core without a task
acknowledges on arrival. One that arrives while others are pending is one more, with its own bound. -/
def execInvalidation (core : Nat) (s : State) : Host.Outcome State Fault Refusal :=
  .next (
    match s.clusterPart (core / Config.clusterCores) with
    | none => s
    | some part =>
      let made := ((Store.find? s.parts part).map Partition.mapped).getD 0
      State.settleInval (State.modCore { s with writes := s.writes + 1 } core (fun c => { c with
        invals := c.invals ++ [⟨part, Quad.all false, false, s.cycle, s.writes + 1⟩], mapped := s.writes + 1,
        copies := c.copies.map (fun (k : Copy) => if k.oldMap then k else { k with oldMap := true, mapTime := Nat.max c.mapped made }) })) core)

/-- A tenant has a running or a dispatchable task in a partition (R273). -/
def State.tenantBusy (s : State) (part tenant : Nat) : Bool :=
  s.running.any (fun r => r.2.part == part && r.2.tenant == tenant) || !(s.tenantOrder part tenant 0).isEmpty

/-- TOKEN_BORROW (R273). -/
def execTokenBorrow (part tenant : Nat) (s : State) : Host.Outcome State Fault Refusal :=
  .next (
    match (Store.find? s.parts part).bind (fun p => (Store.find? p.accounts tenant).map (fun a => (p, a))) with
    | none => s
    | some (p, a) =>
      let idle := p.accounts.filter (fun (x : Nat × Account) => x.1 != tenant && decide (0 < x.2.balance) && !s.tenantBusy part x.1)
      let lender := idle.find? (fun x => idle.all (fun y => decide (y.2.balance ≤ x.2.balance)))
      match lender with
      | none => s
      | some (m, l) =>
        if 0 < a.balance || (s.tenantOrder part tenant 0).isEmpty || 2 * a.budget ≤ a.borrowed || 8 * a.budget ≤ a.debt then s
        else
          let x := Nat.min (Nat.min 4096 l.balance.toNat) (Nat.min (2 * a.budget - a.borrowed) (8 * a.budget - a.debt))
          let lent : Account := { l with balance := l.balance - x }
          let got : Account := { a with balance := a.balance + x, borrowed := a.borrowed + x, debt := a.debt + x }
          s.modPart part (fun p => { p with accounts := Store.put m lent (Store.put tenant got p.accounts) }))

/-- Cycles of an arbitration period, 100 µs. -/
def periodCycles : Nat := 100 * Config.cyclesPerMicro

/-- An account at a period boundary (R272). -/
def Account.refill (a : Account) : Account :=
  let pay := Nat.min a.debt (a.budget / 2)
  { a with debt := a.debt - pay, balance := min a.balance 0 + a.budget - pay, borrowed := 0 }

/-- ARBITRATION_PERIOD (R272, R274): debts are repaid and balances refilled; a record that has had a dispatchable task
undispatched for the whole period rises. -/
def execArbitrationPeriod (part : Nat) (s : State) : Host.Outcome State Fault Refusal :=
  .next (
    match Store.find? s.parts part with
    | none => s
    | some p =>
      if s.cycle < p.period + periodCycles then s
      else
        let s1 := s.modPart part (fun p => { p with
          period := p.period + periodCycles, accounts := p.accounts.map (fun (a : Nat × Account) => (a.1, a.2.refill)) })
        let rise := fun (q : Queue) (r : Record) =>
          if s.dispatchable q r && decide (r.since ≤ p.period) then { r with periods := r.periods + 1 } else r
        { s1 with queues := s1.queues.map (fun (x : Nat × Queue) =>
            if x.2.part != part then x else (x.1, { x.2 with records := x.2.records.map (rise x.2) })) })

/-- POWER_CAP_TICK (R276), with the estimated power of the last 10 µs. -/
def execPowerCapTick (part watts : Nat) (s : State) : Host.Outcome State Fault Refusal :=
  .next (s.modPart part (fun p =>
    if p.cap = 0 then p
    else if p.cap < watts then { p with level := Nat.min 63 (p.level + Nat.max 1 ((64 * (watts - p.cap) + p.cap - 1) / p.cap)) }
    else if 100 * watts < 95 * p.cap then { p with level := p.level - 1 }
    else p))

/-- DEADLOCK_WATCHDOG (R39): the condition has held for 4,096 cycles, and every task of the gang ends with 0xA5. -/
def execDeadlockWatchdog (gang : Nat) (s : State) : Host.Outcome State Fault Refusal :=
  .next (
    match Store.find? s.gangs gang with
    | none => s
    | some g =>
      if g.cores.all (fun n => decide (n < Config.numCores) && (s.core n).stuck && decide ((s.core n).lastActive + Config.deadlockCycles ≤ s.cycle))
      then g.cores.foldl (fun (t : State) n => if ((t.core n).task.map Task.gang) = some gang then t.endTask n (some 0xA5) else t) s
      else s)

/-- A bound of a partition, in microseconds, as cycles. -/
def State.boundOf (s : State) (part : Nat) (f : Partition → Nat) : Nat := ((Store.find? s.parts part).map f).getD 0 * Config.cyclesPerMicro

/-- QUIESCENT_POINT_WATCHDOG (R254, R292): the oldest invalidation that the core has not acknowledged has reached its bound. -/
def execQuiescentPointWatchdog (core : Nat) (s : State) : Host.Outcome State Fault Refusal :=
  .next (
    match (s.core core).invals.head?, (s.core core).task with
    | some i, some t => if i.since + s.boundOf t.part Partition.quiescentBound ≤ s.cycle then s.hardStop core 0xD5 true else s
    | _, _ => s)

/-- Changes a context. -/
def State.modCtx (s : State) (ctx : Nat) (f : Context → Context) : State :=
  match Store.find? s.ctxs ctx with
  | none => s
  | some c => { s with ctxs := Store.put ctx (f c) s.ctxs }

/-- The cores that run tasks of a context. -/
def State.coresOf (s : State) (ctx : Nat) : List Nat := (s.running.filter (fun r => r.2.ctx == ctx)).map Prod.fst

/-- SLICE_END_PREEMPTION (R288, step 1). -/
def execSliceEndPreemption (ctx : Nat) (s : State) : Host.Outcome State Fault Refusal :=
  .next (s.modCtx ctx (fun c => if c.draining.isNone && !c.drained then { c with draining := some (s.cycle, false) } else c))

/-- DRAIN_COMPLETE (R288): all tasks have ended; the walker positions stand in the records. -/
def execDrainComplete (ctx : Nat) (s : State) : Host.Outcome State Fault Refusal :=
  .next (
    match (Store.find? s.ctxs ctx).bind Context.draining with
    | none => s
    | some (_, hard) =>
      if !(s.coresOf ctx).isEmpty then s
      else
        let s1 := s.modCtx ctx (fun c => { c with draining := none, drained := true })
        { s1 with replies := s1.replies ++ [.preempted ctx (if hard then 0xD2 else 0xD0) none] })

/-- DRAIN_WATCHDOG (R288): tasks remain after the drain bound; 0xD2 is reported and they are hard-stopped. -/
def execDrainWatchdog (ctx : Nat) (s : State) : Host.Outcome State Fault Refusal :=
  .next (
    match Store.find? s.ctxs ctx with
    | none => s
    | some c =>
      match c.draining with
      | some (since, false) =>
        if (s.coresOf ctx).isEmpty || s.cycle < since + s.boundOf c.part Partition.drainBound || !s.stoppable (s.coresOf ctx) then s
        else
          let s1 := s.modCtx ctx (fun c => { c with draining := some (since, true) })
          let s2 := { s1 with replies := s1.replies ++ [.preempted ctx 0xD2 none] }
          (s.coresOf ctx).foldl (fun (t : State) n => t.hardStop n 0xD2 true) s2
      | _ => s)

/-- CONTEXT_RESUME (R288). -/
def execContextResume (ctx : Nat) (s : State) : Host.Outcome State Fault Refusal :=
  .next (s.modCtx ctx (fun c => if c.drained then { c with drained := false } else c))

/-- The cores of a partition that run tasks. -/
def State.coresIn (s : State) (part : Nat) : List Nat := (s.running.filter (fun r => r.2.part == part)).map Prod.fst

/-- A partition's queues, contexts, accounts and stopped tasks have left the module. -/
def State.partLeaves (s : State) (part : Nat) : State :=
  let gone := s.parked.filter (fun (p : Nat × Parked) => p.2.task.part == part)
  let gangs := gone.map (fun (p : Nat × Parked) => p.2.task.gang)
  let launches := gone.filterMap (fun (p : Nat × Parked) => p.2.task.launch)
  let ctxs := (s.ctxs.filter (fun (c : Nat × Context) => c.2.part == part)).map Prod.fst
  let s1 := ctxs.foldl (fun (t : State) c => t.keepSlots c (fun _ _ => false)) s
  State.modPart { s1 with
    parked := s1.parked.filter (fun (p : Nat × Parked) => p.2.task.part != part),
    gangs := s1.gangs.filter (fun (g : Nat × Gang) => !gangs.contains g.1),
    launches := s1.launches.filter (fun (g : Nat × Launch) => !launches.contains g.1),
    queues := s1.queues.filter (fun (q : Nat × Queue) => q.2.part != part),
    ctxs := s1.ctxs.filter (fun (c : Nat × Context) => c.2.part != part) } part (fun p => { p with accounts := [], dirty := [] })

/-- The MC sends pages of a partition to another module under link encryption, each in frames of 4 KiB striped over the open ports
(R294, R337, R339). A page with an error that ECC or its tag finds is no good data and is not sent (R374; log 20). -/
def State.sendPages (s : State) (part : Nat) (pages : List Nat) : State :=
  pages.foldl (fun (t : State) g =>
    match t.engineRead ((List.range Config.pageBytes).map (fun i => Loc.hbm (g * Config.pageBytes + i))) with
    | .error _ => t
    | .ok bs => (Crypto.pieces 4096 bs.length bs).zipIdx.foldl (fun (u : State) p => u.frameOut (u.openPorts part) part p.2 p.1) t) s

/-- MIGRATION (R294, R364): the final part, after the rounds in which the MC reads the bitmap: every task is hard-stopped,
each with a persistent image through one of the MC's handles, the last dirty pages are sent, and the items of Table 15-11
leave the module. The hard stops cancel the collectives. -/
def execMigration (part : Nat) (handles : List (BitVec 256)) (s : State) : Host.Outcome State Fault Refusal :=
  .next (
    match Store.find? s.parts part with
    | none => s
    | some _ =>
      let ns := s.coresIn part
      let fit := fun (n : Nat) (h : BitVec 256) => hPersist h && (match (s.core n).task with
        | none => false
        | some u => (s.accessCause (hTenant h) h rightS 0 (s.imageLength n u) 1).isNone)
      if !s.stoppable ns || handles.length < ns.length || !(ns.zip handles).all (fun p => fit p.1 p.2) then s
      else
        match (ns.zip handles).foldl (fun (acc : Option State) p =>
            acc.bind (fun t => match (t.core p.1).task with
              | none => some t
              | some u => (t.pageCounter u).map (fun x => x.1.stopOne p.1 0xD1 (some (p.2, x.2)) true))) (some s) with
        | none => s
        | some s1 =>
          let dirty := ((Store.find? s1.parts part).map Partition.dirty).getD []
          let qs := (s1.queues.filter (fun (q : Nat × Queue) => q.2.part == part)).map (fun (q : Nat × Queue) =>
            (q.1, { q.2 with records := q.2.records.map (fun r => { r with live := 0 }) }))
          let accounts := ((Store.find? s1.parts part).map Partition.accounts).getD []
          State.partLeaves ((s1.sendPages part dirty).reply (.migrated part dirty qs accounts)) part)

/-- A ring of a launch queue has a place and a size (R258). -/
def goodRing (base log : Nat) : Bool := base % 256 == 0 && decide (base < 2 ^ 57) && decide (1 ≤ log) && decide (log ≤ 16)

/-- The target of a migration binds the items of Table 15-11 to its own partition, and dispatch goes on from them (R294): queues,
accounts and contexts that it does not have, each of a tenant, a context and a TDI that there are (R1). -/
def State.bindMigrated (s : State) (part : Nat) (queues : List (Nat × Queue)) (accounts : List (Nat × Account)) (ctxs : List (Nat × Context)) : State :=
  match Store.find? s.parts part with
  | none => s
  | some _ =>
    let new := ctxs.filter (fun c => decide (c.1 < Config.numContexts) && decide (c.2.tenant < Config.numTenants)
      && decide (c.2.tdi < Config.numTdis) && (Store.find? s.ctxs c.1).isNone && c.2.part == part)
    let s1 := { s with ctxs := new.foldl (fun (m : Store Context) (c : Nat × Context) => Store.put c.1 { c.2 with live := [], slots := [] } m) s.ctxs }
    let mine := queues.filter (fun q => (Store.find? s.queues q.1).isNone && q.2.part == part && goodRing q.2.ringBase q.2.ringLog
      && ((Store.find? s1.ctxs q.2.ctx).map (fun c => decide (c.tenant < Config.numTenants) && q.1 / 64 == c.tenant && q.2.tdi == c.tdi)).getD false)
    State.modPart { s1 with queues := mine.foldl (fun (m : Store Queue) (q : Nat × Queue) => Store.put q.1 q.2 m) s1.queues } part
      (fun p => { p with accounts := (accounts.filter (fun a => decide (a.1 < Config.numTenants))).foldl (fun (m : Store Account) (a : Nat × Account) => Store.put a.1 a.2 m) p.accounts })

/-- The physical slice behind a slice of a partition. -/
def Partition.physical (p : Partition) (slice : Nat) : Nat := Store.getD p.sliceMap slice slice

/-- No partition uses a physical slice, as its own or as the place of a slice that has moved or moves. -/
def State.sliceFree (s : State) (n : Nat) : Bool :=
  s.parts.all (fun (p : Nat × Partition) => p.2.slices.all (fun k => p.2.physical k != n) && p.2.moving.all (fun m => m.target != n))

/-- SLICE_MOVE (R295): a slice begins to move to a free physical slice; every page is Old. -/
def execSliceMove (part slice target : Nat) (s : State) : Host.Outcome State Fault Refusal :=
  .next (s.modPart part (fun p =>
    if p.slices.contains slice && decide (target < Config.numSlices) && s.sliceFree target && p.moving.all (fun m => m.slice != slice)
    then { p with moving := p.moving ++ [⟨slice, target, 0, false⟩] } else p))

/-- Moves a range of device-physical memory with its owner records, scrub bits, poison and failed tags; the old places
are unscrubbed. Both ends are multiples of 64 KiB. -/
def State.moveRange (s : State) (src dst len : Nat) : State :=
  let inR := fun (a : Nat) => decide (src ≤ a) && decide (a < src + len)
  let moved := s.hbm.filter (fun c => inR c.1)
  let base := Memory.clear (Memory.clear s.hbm dst (dst + len)) src (src + len)
  let lines := fun (l : List Nat) => (l.filter (fun x => !inR (x * 64) && !(decide (dst ≤ x * 64) && decide (x * 64 < dst + len))))
    ++ (l.filter (fun x => inR (x * 64))).map (fun x => x - src / 64 + dst / 64)
  let page := fun (p : Nat) => inR (p * Config.pageBytes)
  let owners := s.pages.filter (fun (p : Nat × Owner) => page p.1)
  let kept := s.pages.filter (fun (p : Nat × Owner) => !page p.1
    && !(decide (dst ≤ p.1 * Config.pageBytes) && decide (p.1 * Config.pageBytes < dst + len)))
  { s with
    hbm := moved.foldl (fun (m : Store Byte) c => Memory.write m (c.1 - src + dst) c.2) base,
    pages := owners.foldl (fun (m : Store Owner) p => Store.put (p.1 - src / Config.pageBytes + dst / Config.pageBytes) p.2 m) kept,
    poison := lines s.poison, badLines := lines s.badLines }

/-- SLICE_MOVE_PAGE (R295): the next page of a moving slice turns from Old to Copying, or, once copied, to New. Past the
last page the slice has moved. The writes of service units that waited then apply to the new page. -/
def execSliceMovePage (part slice : Nat) (s : State) : Host.Outcome State Fault Refusal :=
  .next (
    match (Store.find? s.parts part).bind (fun p => (p.moving.find? (fun m => m.slice == slice)).map (fun m => (p, m))) with
    | none => s
    | some (p, m) =>
      let put := fun (s : State) (m' : SliceMoving) => s.modPart part (fun p => { p with
        moving := p.moving.map (fun x => if x.slice = slice then m' else x) })
      if !m.copying then put s { m with copying := true }
      else
        let off := m.next * Config.pageBytes
        let s1 := s.moveRange (p.physical slice * Config.sliceBytes + off) (m.target * Config.sliceBytes + off) Config.pageBytes
        let s2 := if m.next + 1 < slicePages then put s1 { m with next := m.next + 1, copying := false }
          else s1.modPart part (fun p => { p with
            moving := p.moving.filter (fun x => x.slice != slice), sliceMap := Store.put slice m.target p.sliceMap })
        s2.tdis.foldl (fun (t : State) (x : Nat × Tdi) => t.writeHeld x.1) s2.writeWaiting)

/-- LEGACY_SLICE_COPY (R296): every task of the partition is hard-stopped, the slice copied, the slice table rewritten, and
the tasks restored, gang by gang. -/
def execLegacySliceCopy (part slice target : Nat) (s : State) : Host.Outcome State Fault Refusal :=
  .next (
    match Store.find? s.parts part with
    | none => s
    | some p =>
      let ns := s.coresIn part
      let room := ns.all (fun n => match (s.core n).task with
        | none => true
        | some t => decide ((((Store.find? s.ctxs t.ctx).map (fun x => x.live.length)).getD 0) + (s.coresOf t.ctx).length ≤ Config.maxLive))
      if !p.slices.contains slice || !decide (target < Config.numSlices) || !s.sliceFree target || p.moving.any (fun m => m.slice == slice)
          || !s.stoppable ns || !room then s
      else
        let s1 := ns.foldl (fun (t : State) n => t.stopOne n 0xD1 none false) s
        let s2 := (s1.moveRange (p.physical slice * Config.sliceBytes) (target * Config.sliceBytes) Config.sliceBytes).modPart part
          (fun p => { p with sliceMap := Store.put slice target p.sliceMap })
        let images := (s1.replies.drop s.replies.length).filterMap (fun r => match r with
          | .image _ _ true bs => (match s2.imageRoot (bs.take 0x100) with
              | .ok root => (match s2.checkImage root bs with | .ok i => some i | .error _ => none)
              | .error _ => none)
          | _ => none)
        let gangOf := fun (i : Image) => ((Store.find? s2.parked i.parked).map (fun k => k.task.gang)).getD 0
        let gangs := images.foldl (fun (l : List Nat) i => if l.contains (gangOf i) then l else l ++ [gangOf i]) []
        gangs.foldl (fun (t : State) g => t.restoreImages (images.filter (fun i => gangOf i == g))) s2)

/-- The pages of a partition's slices in order: page i of the bitmap (R293). -/
def Partition.page (p : Partition) (i : Nat) : Option Nat := (p.slices[i / slicePages]?).map (fun k => k * slicePages + i % slicePages)

/-- DIRTY_BITMAP_READ (R293, R294): 64 bits of the bitmap are read and cleared at once, in a round of a migration, which sends
the pages that were dirty to the target module. -/
def execDirtyBitmapRead (part word : Nat) (s : State) : Host.Outcome State Fault Refusal :=
  .next (
    match Store.find? s.parts part with
    | none => s
    | some p =>
      let pages := (List.range 64).filterMap (fun i => (p.page (64 * word + i)).map (fun g => (i, g)))
      let set := pages.filter (fun x => p.dirty.contains x.2)
      let w := set.foldl (fun (v : Nat) x => v + 2 ^ x.1) 0
      let s1 := s.modPart part (fun p => { p with dirty := p.dirty.filter (fun g => !(pages.map Prod.snd).contains g) })
      (s1.sendPages part (set.map Prod.snd)).reply (.dirty (BitVec.ofNat 64 w)))

/-- A configuration of a launch queue is valid (R258). -/
def State.goodSetup (s : State) (c : QueueSetup) : Bool :=
  decide (c.tenant < Config.numTenants) && decide (c.queue < 64) && decide (c.ctx < Config.numContexts) && decide (c.tdi < Config.numTdis)
    && s.tdiAccepts c.tdi && (Store.find? s.parts c.part).isSome
    && goodRing c.ringBase c.ringLog
    && c.areaLen % 8 == 0 && decide (c.areaLen ≤ hLen c.sigHandle)
    && hRights c.sigHandle &&& (rightR ||| rightW ||| rightA) == (rightR ||| rightW ||| rightA)
    && (match Store.find? s.ctxs c.ctx with
        | none => true
        | some x => x.tenant == c.tenant && x.part == c.part && x.tdi == c.tdi)

/-- QUEUE_CONFIGURE (R258, R277): the queue is assigned to the context, which comes to be where it is new. The ring
indices and the records go on; the energy counter is zeroed (log 38). -/
def execQueueConfigure (cfg : QueueSetup) (s : State) : Host.Outcome State Fault Refusal :=
  .next (
    if !s.goodSetup cfg then s
    else
      let key := queueKey cfg.tenant cfg.queue
      let old := Store.find? s.queues key
      let q : Queue := {
        ctx := cfg.ctx, part := cfg.part, tdi := cfg.tdi, ringBase := cfg.ringBase, ringLog := cfg.ringLog, sigHandle := cfg.sigHandle,
        area := cfg.areaLen, tail := (old.map Queue.tail).getD 0, head := (old.map Queue.head).getD 0,
        error := (old.map Queue.error).getD false, ovf := (old.map Queue.ovf).getD false, energy := 0,
        bad := (old.map Queue.bad).getD 0, resetPending := (old.map Queue.resetPending).getD false, records := (old.map Queue.records).getD [] }
      let c : Context := match Store.find? s.ctxs cfg.ctx with
        | some x => { x with root := cfg.root }
        | none => ⟨cfg.tenant, cfg.part, cfg.tdi, cfg.root, none, false, [], []⟩
      { s with queues := Store.put key q s.queues, ctxs := Store.put cfg.ctx c s.ctxs })

/-- SET_BUDGET (R272): a new budget takes effect in balances at the next period boundary. There are 1,024 tenants (R1). -/
def execSetBudget (part tenant tokens : Nat) (s : State) : Host.Outcome State Fault Refusal :=
  .next (s.modPart part (fun p =>
    let a : Account := Store.getD p.accounts tenant ⟨0, 0, 0, 0, 0⟩
    if Config.numTenants ≤ tenant then p else { p with accounts := Store.put tenant { a with budget := tokens } p.accounts }))

/-- SET_POWER_CAP (R276): a set of caps is accepted only if their sum plus 520 W lies within 2,400 W. -/
def execSetPowerCap (caps : List (Nat × Nat)) (s : State) : Host.Outcome State Fault Refusal :=
  .next (
    let t := caps.foldl (fun (t : State) c => t.modPart c.1 (fun p => { p with cap := c.2 })) s
    if t.parts.foldl (fun (n : Nat) (p : Nat × Partition) => n + p.2.cap) 0 + 520 ≤ 2400 then t else s)

/-- SET_SLOT_QUOTA (R380): a set of quotas is accepted only if they sum to at most 512; the quotas of partitions of other modules
count too. -/
def execSetSlotQuota (quotas : List (Nat × Nat)) (s : State) : Host.Outcome State Fault Refusal :=
  .next (
    let q := quotas.foldl (fun (m : Store Nat) c => Store.put c.1 c.2 m) s.quotas
    if (q.map Prod.snd).foldl (· + ·) 0 ≤ Config.planeSlots then { s with quotas := q } else s)

/-- Units of 64 MiB in the cistern of a stack, 6 GiB (Table 0-1). The slices of R5 take all 48 GiB of every stack, and no handle
reaches the cistern (R341): the model gives it room of its own, by its shares alone, and no addresses (DESIGN CHOICE, log 41). -/
def cisternUnits : Nat := 96

/-- SET_CISTERN_SHARE (R341): never below one unit for a partition that owns ports. -/
def execSetCisternShare (part stack units : Nat) (s : State) : Host.Outcome State Fault Refusal :=
  .next (
    let t := s.modPart part (fun p =>
      if decide (8 ≤ stack) || (!p.ports.isEmpty && units == 0) then p
      else { p with cistern := p.cistern.zipIdx.map (fun (x : Nat × Nat) => if x.2 = stack then units else x.1) })
    if t.parts.foldl (fun (n : Nat) (p : Nat × Partition) => n + p.2.cistern.getD stack 0) 0 ≤ cisternUnits then t else s)

/-- The resources of a new partition exist and belong to no other (R339). -/
def State.goodPartition (s : State) (c : PartSetup) : Bool :=
  let apart := fun (f : Partition → List Nat) (l : List Nat) (n : Nat) =>
    l.Nodup && l.all (fun x => decide (x < n) && s.parts.all (fun (p : Nat × Partition) => !(f p.2).contains x))
  decide (c.part < 16) && (Store.find? s.parts c.part).isNone && apart Partition.clusters c.clusters Config.numClusters
    && apart Partition.slices c.slices Config.numSlices && c.slices.all s.sliceFree && apart Partition.ports c.ports 16
    && decide (c.modules.length ≤ 64) && decide (c.rank < Nat.max 1 c.modules.length)

/-- Fresh keys of the links of ports for a generation, beside those of other generations (R310, R361): agreed with the peer module,
free values. -/
def State.portKeys (s : State) (ports : List Nat) (gen : Nat) (keys : Store (BitVec 256)) : Store (BitVec 256) :=
  ports.foldl (fun (m : Store (BitVec 256)) p => Store.put (gen * 16 + p) (Config.randomKey (s.draws + p)) m) keys

/-- PARTITION_CREATE (R339, R276, R341, R380): throttle level 0, no cap, no quota, 64 MiB of cistern on every stack; the MC
builds the second-stage tables, with writes that wait for a page that is being copied (R295), and sets the owner records. -/
def execPartitionCreate (cfg : PartSetup) (s : State) : Host.Outcome State Fault Refusal :=
  .next (
    if !s.goodPartition cfg || s.mcWaits cfg.writes then s
    else
      let p : Partition := {
        clusters := cfg.clusters, slices := cfg.slices, ports := cfg.ports, root := cfg.root, modules := cfg.modules, rank := cfg.rank,
        cap := 0, level := 0, cistern := List.replicate 8 1, startTimeout := cfg.startTimeout.getD Config.startTimeout,
        drainBound := cfg.drainBound.getD Config.drainBound, quiescentBound := cfg.quiescentBound.getD Config.quiescentBound, acked := [], invalsDone := 0, mapped := s.writes, dirty := [], moving := [], sliceMap := [], accounts := [], lastTenant := 0, period := s.cycle,
        linkGen := 0, linkOlder := false, linkUpdated := [], linkKeys := s.portKeys cfg.ports 0 [] }
      (State.mcWrites { s with parts := Store.put cfg.part p s.parts, draws := s.draws + 16 } cfg.writes).setOwners cfg.owners)

/-- HOST_ACCESS (R293, R166): the host reads or writes device memory through a TDI, at guest-physical addresses of the
partition of the TDI's contexts (log 38). Of each 32-byte granule it may miss the writes that no release has covered up to it
(R248, R255). -/
def execHostAccess (tdi addr len : Nat) (write : Bool) (data : List Byte) (s : State) : Host.Outcome State Fault Refusal :=
  .next (
    match List.find? (fun (c : Nat × Context) => c.2.tdi == tdi) s.ctxs with
    | none => s
    | some (_, c) =>
      if Config.numTdis ≤ tdi then s else
      let acc := if write then Acc.write else Acc.read
      let place := fun (i : Nat) => match s.secondStage c.part (addr + i) with
        | .error _ => none
        | .ok l => if l.perm.allows acc then some (if l.perm.d then Loc.discarded else physLoc false l.addr) else none
      let n := if write then data.length else len
      match (List.range n).mapM place with
      | none => s
      | some ls =>
        if write then (if s.copying ls || ls.contains .discarded then s
          else s.writeFrom [Config.hostAgent] Strength.plain (ls.zip data))
        else match firstCause s.readCause ls with
          | some _ => s
          | none =>
            let miss := fun (i : Nat) => (Config.pick s.draws).testBit ((addr + i) / 32 - addr / 32)
            { s.draw with replies := s.replies ++ [.read (ls.zipIdx.map (fun p => s.readMissing (miss p.2) p.1))] })

/-- A peer module writes this module's memory through a context (R293, R340): both stages apply, and a write that they do not
permit is dropped. -/
def State.peerWrite (s : State) (ctx va : Nat) (data : List Byte) : State :=
  match Store.find? s.ctxs ctx with
  | none => s
  | some c =>
    match s.locateRange ⟨Config.peerAgent, c.tenant, ctx, c.part⟩ false .write false .fresh (data.length / Config.pageBytes + 2) va data.length with
    | .error _ => s
    | .ok (_, ls) => if s.copying ls || ls.contains .discarded then s
        else s.writeFrom [Config.peerAgent] Strength.plain (ls.zip data)

/-- A migrating partition's page of a slice comes to this module (R294). -/
def State.takePage (s : State) (part idx : Nat) (data : List Byte) : State :=
  match (Store.find? s.parts part).bind (fun p => p.page idx) with
  | none => s
  | some g =>
    if data.length ≠ Config.pageBytes then s
    else if s.copying [Loc.hbm (g * Config.pageBytes)] then s
    else s.writeFrom [Config.peerAgent] Strength.plain (((List.range Config.pageBytes).map (fun i => Loc.hbm (g * Config.pageBytes + i))).zip data)

/-- ENDS A CONTEXT as an FLR does (R291): its tasks, running or stopped, are gone with every engine operation, its queues
are as after reset, its images and commits in progress are invalid, and the cores that ran it are scrubbed. No status
word is written and no signal decremented. -/
def State.endContext (s : State) (ctx : Nat) : State :=
  let ns := s.coresOf ctx
  let gone := s.parked.filter (fun (p : Nat × Parked) => p.2.task.ctx == ctx)
  let tasks := ns.filterMap (fun n => (s.core n).task) ++ gone.map (fun (p : Nat × Parked) => p.2.task)
  let gangs := tasks.map Task.gang
  let launches := tasks.filterMap Task.launch
  let keys := (s.queues.filter (fun (q : Nat × Queue) => q.2.ctx == ctx)).map Prod.fst
  let s1 := ns.foldl (fun (t : State) n => (t.scrubCore n (((t.core n).task.map Task.tenant).getD 0)).settleInval n) (s.keepSlots ctx (fun _ _ => false))
  { s1 with
    parked := s1.parked.filter (fun (p : Nat × Parked) => p.2.task.ctx != ctx),
    gangs := s1.gangs.filter (fun (g : Nat × Gang) => !gangs.contains g.1),
    launches := s1.launches.filter (fun (g : Nat × Launch) => !launches.contains g.1),
    queues := s1.queues.filter (fun (q : Nat × Queue) => q.2.ctx != ctx),
    cores := s1.cores.map (fun (p : Nat × Core) => if p.2.claim.any (fun k => keys.contains k.1) then (p.1, { p.2 with claim := none }) else p),
    faults := s1.faults.filter (fun f => match f.unit with
      | .candidate key _ => !keys.contains key
      | u => !(u.core.any ns.contains)),
    commits := s1.commits.filter (fun k => k.ctx != ctx),
    ctxs := Store.erase ctx s1.ctxs,
    dies := s1.dies.map (fun (d : Die) => { d with tlb := d.tlb.filter (fun e => e.ctx != ctx) }) }

/-- The contexts of a TDI. -/
def State.ctxsOf (s : State) (tdi : Nat) : List Nat := (s.ctxs.filter (fun (c : Nat × Context) => c.2.tdi == tdi)).map Prod.fst

/-- Ends contexts; of each, a pre-emption in progress hears 0xD3 (R291). -/
def State.endContexts (s : State) (ctxs : List Nat) : State :=
  ctxs.foldl (fun (t : State) c =>
    let pre := (((Store.find? t.ctxs c).bind Context.draining).isSome) || t.commits.any (fun k => k.ctx == c)
    let u := t.endContext c
    if pre then { u with replies := u.replies ++ [.preempted c 0xD3 none] } else u) s

/-- Ends every context of a TDI (R291). -/
def State.endTdi (s : State) (tdi : Nat) : State := s.endContexts (s.ctxsOf tdi)

/-- FLR (R291). -/
def execFlr (tdi : Nat) (s : State) : Host.Outcome State Fault Refusal := .next (s.endTdi tdi)

end Sys2Proof.Machine
end

