-- ==== Sys2Proof/Machine/Trust.lean ====
section
/-!
DEFINITION. Trust events: requests to the TC (Table 17-1), revocation sweeps (R307, R363), key rotation (R312), scrub
walks (R319, R320), streams (R322), counters (R333), fuse counters (R335), TDISP and SPDM (R321, R323), and the Eutor
links with their keys (R324, R337, R338, R361).
-/
namespace Sys2Proof.Machine

/-- Who may make a request of the TC (Table 17-1). -/
structure Asks where
  driver : Bool
  tenant : Bool
  mc : Bool
  deriving DecidableEq, Repr

/-- The TC takes a request (R299, R321): from the MC; or through a session of a TDI that is locked or runs, the driver's, or a
verifier's, which stands for the tenant whose owner identity it has presented. R299 ties a driver's session to its TDI and no
request of it to a tenant but MINT, which R304 does: any driver's session may ask for any (DESIGN CHOICE, log 39). -/
def State.asked (s : State) (w : Requester) (may : Asks) (tenant : Nat) : Bool :=
  match w with
  | .mc => may.mc
  | .session id =>
    match Store.find? s.sessions id with
    | none => false
    | some x => s.tdiAccepts x.tdi && (match x.owner with
      | none => may.driver
      | some o => may.tenant && (Store.find? s.tenants tenant).all (fun t => t.owner == o))

/-- The TDI of a requester's session. -/
def State.sessionTdi (s : State) : Requester → Option Nat
  | .mc => none
  | .session id => (Store.find? s.sessions id).map Session.tdi

/-- The owner identity that a session has presented. -/
def State.sessionOwner (s : State) : Requester → BitVec 384
  | .mc => 0
  | .session id => ((Store.find? s.sessions id).bind Session.owner).getD 0

/-- A sweep names a handle (R307): of its tenant, and with its serial in the current epoch, or of an earlier epoch for a
revoke-all. -/
def State.sweepNames (s : State) (x : Sweep) (h : BitVec 256) : Bool :=
  let epoch := ((Store.find? s.tenants x.tenant).map Tenant.epoch).getD 0
  hValid h && hTenant h == x.tenant && (if x.all then hEpoch h != epoch else hSerial h == x.serial && hEpoch h == epoch)

/-- A serial is revoked when the list is full (R306). -/
def State.listFull (s : State) (x : Sweep) : Bool :=
  match Store.find? s.tenants x.tenant with
  | none => false
  | some t => !x.all && decide (Config.maxRevoked ≤ t.revoked.length)

/-- Step 1 of Table 17-6: the serial is listed, or the epoch advances, with a new sealing key where it wraps (R303, R306).
Started records whose own handles are revoked dispatch nothing further (R267). -/
def State.sweepEnter (s : State) (x : Sweep) : State :=
  match Store.find? s.tenants x.tenant with
  | none => s
  | some t =>
    let t' : Tenant :=
      if x.all then { t with
        epoch := t.epoch + 1, nextSerial := 1, revoked := [],
        sealKey := if t.epoch = 255 then Config.randomKey s.draws else t.sealKey }
      else { t with revoked := if t.revoked.contains x.serial then t.revoked else t.revoked ++ [x.serial] }
    let s1 := { s.draw with tenants := Store.put x.tenant t' s.tenants }
    let keys := (s1.queues.filter (fun (q : Nat × Queue) => q.1 / 64 == x.tenant)).map (fun (q : Nat × Queue) => (q.1, q.2.records))
    keys.foldl (fun (u : State) k => k.2.foldl (fun (u : State) r =>
      if r.phase.started && r.phase != .complete && (List.range 4).any (fun i => s1.sweepNames x (recHandle r.bits i))
      then (u.modQueue k.1 (fun q => q.modRecord r.ring (fun r => { r with revoked := true }))).settleRecord k.1 r.ring
      else u) u) s1

/-- The cores that run tasks of a tenant. -/
def State.tenantCores (s : State) (tenant : Nat) : List Nat := (s.running.filter (fun r => r.2.tenant == tenant)).map Prod.fst

/-- A copy stands at a 4 KiB boundary of its destination addresses, or at its end (R185). -/
def State.atBoundary (s : State) (n : Nat) (k : Copy) : Bool :=
  let es := k.shape.extents
  let place := fun (i : Nat) => ((hBase k.dst : Int) + k.sides.2.at' (coords es i) (s.rowOf n k (coords es i))) / 4096
  decide (k.units ≤ k.next) || k.next == 0 || place k.next != place (k.next - 1)

/-- A running copy gets on to its next boundary, as far as it can: a fault or a stall stops it (R185). -/
def State.runToBoundary (s : State) (n id : Nat) : Nat → State
  | 0 => s
  | f + 1 =>
    match (s.core n).copy? id with
    | none => s
    | some k =>
      if k.fault.isSome || s.atBoundary n k then s
      else
        let t := s.runCopy n id 1
        if ((t.core n).copy? id).any (fun k' => decide (k.next < k'.next)) then State.runToBoundary t n id f else t

/-- The copies of a core that a sweep names and that have not ended. -/
def State.sweptCopies (s : State) (x : Sweep) (n : Nat) : List Copy :=
  (s.core n).copies.filter (fun k => k.status == 0 && !k.landed && (s.sweepNames x k.dst || (k.mode.reads && s.sweepNames x k.src)))

/-- Step 2 for the copies of a core: those that have not touched memory end with 0x74; how many. -/
def State.sweepCopies (s : State) (x : Sweep) (n : Nat) : State × Nat :=
  let ks := (s.sweptCopies x n).filter (fun k => !k.touched)
  (ks.foldl (fun (t : State) k => t.abandonCopy n k.id 0x74) s, ks.length)

/-- Step 3 for a running copy: it stops at a boundary, or where a fault has halted it, and ends with 0x74; one that has come to its
end performs its writes. One that a page being copied, a row not verified or a SAVE holds up has yet to stop; whether it has
stopped. -/
def State.stopCopy (s : State) (n id : Nat) : State × Bool :=
  match (s.core n).copy? id with
  | none => (s, true)
  | some k =>
    if (s.core n).saving then (s, false)
    else
      let sealed := k.mode == .cpyin || k.mode == .cpyout
      let t := if k.fault.isSome || sealed then s else s.runToBoundary n id k.units
      match (t.core n).copy? id with
      | none => (t, true)
      | some k' =>
        if t.copyHeld k' then (t, false)
        else if k'.fault.isNone && decide (k'.units ≤ k'.next) then (t.flushAll n id, true)
        else if k'.fault.isSome || sealed || t.atBoundary n k' then (t.abandonCopy n id 0x74, true)
        else (t, false)

/-- Step 3 for the copies of a core; whether all have stopped. -/
def State.stopCopies (s : State) (x : Sweep) (n : Nat) : State × Bool :=
  (s.sweptCopies x n).foldl (fun (acc : State × Bool) k => let (t, b) := acc.1.stopCopy n k.id; (t, acc.2 && b)) (s, true)

/-- Step 3 for the matrix engine and the collectives of a core (R307, R363). -/
def State.sweepEngines (s : State) (x : Sweep) (n : Nat) : State :=
  let hit := fun (o : MeOp) => s.sweepNames x o.ah || s.sweepNames x o.bh
  let m := (s.core n).me
  let s1 := if (m.active.any hit) || (m.pendingOp.any hit) then (s.abortMe n hit).raiseLate n .ex 0x74 else s
  (s1.core n).colls.foldl (fun (t : State) (p : Nat × Coll) =>
    if p.2.ended.isNone && (s.sweepNames x p.2.src || s.sweepNames x p.2.dst) then t.endColl n p.1 0x74 else t) s1

/-- A preload of a handle that a sweep names is still to be read. -/
def State.sweptPreload (s : State) (x : Sweep) (w : WeightBlock) : Bool := w.bytes.isEmpty && s.sweepNames x w.handle

/-- Step 5 for the preloads of a core (R210, R307): each that the sweep names is read, or, where its read fails, is gone. -/
def State.sweepPreloads (s : State) (x : Sweep) (n : Nat) : State :=
  if (s.core n).saving then s
  else
    let read := fun (acc : State × List WeightBlock) (w : WeightBlock) =>
      if !(s.sweptPreload x w && (s.core n).fillable w) then (acc.1, acc.2 ++ [w])
      else match acc.1.readBlock n w with
        | .ok (t, w') => (t, acc.2 ++ [w'])
        | .error .stall => (acc.1, acc.2 ++ [w])
        | .error _ => acc
    let (t, ws) := (s.core n).me.preloads.foldl read (s, [])
    t.modMe n (fun m => { m with preloads := ws })

/-- Step 5 for a core: every access that a check before the sweep let through has performed. -/
def State.sweepDone (s : State) (x : Sweep) (n : Nat) : Bool :=
  (s.core n).still && !(s.core n).me.preloads.any (s.sweptPreload x)
    && !(s.core n).copies.any (fun k => !k.staged.isEmpty && s.sweepNames x k.dst)

/-- Step 5 for the service units: no write through a handle that the sweep names waits for a page that is being copied (R295). -/
def State.sweepWaits (s : State) (x : Sweep) : Bool := s.waiting.any (fun d => s.sweepNames x d.handle)

/-- Step 4 for a core: V is cleared in every handle register that the sweep names; how many. -/
def State.sweepHandles (s : State) (x : Sweep) (n : Nat) : State × Nat :=
  let hs := (s.core n).handles
  let k := hs.toList.countP (s.sweepNames x)
  if k = 0 then (s, 0)
  else (s.modCore n (fun c => { c with moved := some (s.cycle, 4), handles := c.handles.map (fun h => if s.sweepNames x h then h &&& ~~~((1 : BitVec 256) <<< 191) else h) }), k)

/-- REVOCATION_SWEEP (R307): the next step of the tenant's oldest sweep is taken. At the last, the counts are reported: to
the ctl that waits, or to the requester. -/
def execRevocationSweep (tenant : Nat) (s : State) : Host.Outcome State Fault Refusal :=
  .next (
    match List.find? (fun (p : Nat × Sweep) => p.2.tenant == tenant && !p.2.done) s.sweeps with
    | none => s
    | some (id, x) =>
      let ns := s.tenantCores tenant
      let put := fun (s : State) (x : Sweep) => { s with sweeps := Store.put id x s.sweeps }
      match x.stage with
      | 0 =>
        if !s.listFull x then put (s.sweepEnter x) { x with stage := 1 }
        else if x.external then (State.reply { s with sweeps := Store.erase id s.sweeps } (.revoked 1 0 0)).sealTo x.session (.revoked 1 0 0)
        else put s { x with refused := true, done := true }
      | 1 =>
        let (t, k) := ns.foldl (fun (acc : State × Nat) n => let (u, j) := acc.1.sweepCopies x n; (u, acc.2 + j)) (s, 0)
        put t { x with stage := 2, copies := k }
      | 2 =>
        let (t, all) := ns.foldl (fun (acc : State × Bool) n => let (u, b) := acc.1.stopCopies x n; (u, acc.2 && b)) (s, true)
        if !all then t else put (ns.foldl (fun (t : State) n => t.sweepEngines x n) t) { x with stage := 3 }
      | 3 =>
        let (t, k) := ns.foldl (fun (acc : State × Nat) n => let (u, j) := acc.1.sweepHandles x n; (u, acc.2 + j)) (s, 0)
        put t { x with stage := 4, regs := k }
      | _ =>
        let t := ns.foldl (fun (t : State) n => (t.drained n).sweepPreloads x n) s
        if !ns.all (t.sweepDone x) || t.sweepWaits x then t
        else if x.external then (State.reply { t with sweeps := Store.erase id t.sweeps } (.revoked 0 x.regs x.copies)).sealTo x.session (.revoked 0 x.regs x.copies)
        else put t { x with done := true })

/-- REVOKE through the TC (R299, R307): a serial is a number of 32 bits (Table 17-2), and another is malformed; a full list refuses as
the policy does (R306). -/
def execRevoke (r : Request Nat) (serial : Nat) (all : Bool) (s : State) : Host.Outcome State Fault Refusal :=
  .next (
    if !s.asked r.who ⟨true, true, false⟩ r.topic then s.reply (.revoked 1 0 0)
    else if !all ∧ 2 ^ 32 ≤ serial then s.reply (.revoked 2 0 0)
    else
      let (t, id) := s.beginSweep r.topic serial all false r.who.number
      if ((Store.find? t.sweeps id).map Sweep.refused).getD true then State.reply { t with sweeps := Store.erase id t.sweeps } (.revoked 1 0 0) else t)

/-- ROTATE through the TC (R299, R312): answered as KROT, with a status: 3 while a rotation runs, since a slot holds no third
generation, and 1 for another refusal (log 39). -/
def execRotate (r : Request Nat) (s : State) : Host.Outcome State Fault Refusal :=
  .next (
    if !s.asked r.who ⟨true, true, false⟩ r.topic then s.reply (.rotated 1 (BitVec.ofNat 64 (2 ^ 63 + 2)))
    else match s.beginRotation r.topic false with
      | (t, .ok g) => t.reply (.rotated 0 (BitVec.ofNat 64 g))
      | (t, .error e) => t.reply (.rotated (if e = 1 then 3 else 1) (BitVec.ofNat 64 (2 ^ 63 + e))))

/-- ROTATION_PAGE_CONVERT (R312, step 2): the slice's walker converts the page at its mark. -/
def execRotationPageConvert (slice : Nat) (s : State) : Host.Outcome State Fault Refusal :=
  .next (
    match List.find? (fun (p : Nat × Tenant) => p.2.rotating && (Store.find? p.2.marks slice).isSome) s.tenants with
    | none => s
    | some (n, t) =>
      let lo := Store.getD t.marks slice 0
      let s1 := match s.nextMark t.slot slice lo with
        | none => s
        | some m =>
          let page := slice * slicePages + m
          { s with pages := Store.put page { s.owner page with newer := true } s.pages }
      let marks := match s1.nextMark t.slot slice lo with
        | none => Store.erase slice t.marks
        | some m => Store.put slice m t.marks
      State.settleRotation { s1 with tenants := Store.put n { t with marks := marks } s1.tenants } n)

/-- BANK_ROW_REKEY (R312, step 3). -/
def execBankRowRekey (core : Nat) (s : State) : Host.Outcome State Fault Refusal :=
  .next (State.settleRotations (s.modCore core (fun c =>
    { c with bankMark := c.bankMark.bind (fun m => if m + 1 < 16384 then some (m + 1) else none) })))

/-- ZERO_WALK_ROW (R319): the row at the watermark is written with zeros, unless a write has scrubbed it before. -/
def execZeroWalkRow (core : Nat) (s : State) : Host.Outcome State Fault Refusal :=
  .next (
    let c := s.core core
    let w := c.watermark
    if 16384 ≤ w ∨ Config.numCores ≤ core then s
    else if c.scrubbed.contains w then s.modCore core (fun c => { c with watermark := w + 1, scrubbed := c.scrubbed.filter (· != w) })
    else
      let s1 := s.modCore core (fun c => { c with watermark := w + 1, scratch := Memory.clear c.scratch (64 * w) (64 * w + 64) })
      { s1 with badRows := s1.badRows.filter (fun r => r != core * 16384 + w), lostRows := s1.lostRows.filter (fun r => r != core * 16384 + w) })

/-- HBM_SCRUB_PAGE (R320): an unscrubbed page is written with zeros, and its scrub bit cleared. -/
def execHbmScrubPage (page : Nat) (s : State) : Host.Outcome State Fault Refusal :=
  .next (
    let o := s.owner page
    if !o.scrub || Config.hbmBytes / Config.pageBytes ≤ page then s
    else
      let lines := Config.pageBytes / 64
      State.markPage { s with
        pages := Store.put page { o with scrub := false } s.pages,
        hbm := Memory.clear s.hbm (page * Config.pageBytes) ((page + 1) * Config.pageBytes),
        poison := s.poison.filter (fun l => l / lines != page), badLines := s.badLines.filter (fun l => l / lines != page) } page)

/-- A policy is well formed (R305): at most eight ranges, each within the address space. -/
def goodPolicy (p : TenantPolicy) : Bool :=
  decide (p.ranges.length ≤ 8) && p.ranges.all (fun r => decide (r.1 ≤ r.2) && decide (r.2 < 2 ^ 57)) && decide (p.maxCounters ≤ Config.numCounters)

/-- BIND (Table 17-1), from a tenant's session, whose identity is recorded: the lowest free key slot, a new sealing key,
generation 1 with its keys, epoch 0. -/
def execBind (w : Requester) (tenant : Nat) (pol : TenantPolicy) (s : State) : Host.Outcome State Fault Refusal :=
  .next (
    if (Store.find? s.tenants tenant).isSome || !s.asked w ⟨false, true, false⟩ tenant then s.reply (.status 1)
    else if Config.numTenants ≤ tenant ∨ !goodPolicy pol then s.reply (.status 2)
    else match (List.range Config.numTenants).find? (fun k => s.tenants.all (fun (p : Nat × Tenant) => p.2.slot != k)) with
      | none => s.reply (.status 3)
      | some slot =>
        let t : Tenant := {
          slot := slot, owner := s.sessionOwner w, policy := pol, epoch := 0, sealKey := Config.randomKey s.draws, nextSerial := 1, revoked := [],
          gen := 1, older := false, rotating := false, imageRoots := [(1, Config.randomKey (s.draws + 5))], keys := [(1, s.newKeys)], seals := [],
          marks := [] }
        State.reply { s with tenants := Store.put tenant t s.tenants, draws := s.draws + 6 } (.status 0))

/-- POLICY (R305), from the session of the tenant's owner. -/
def execPolicy (w : Requester) (tenant : Nat) (pol : TenantPolicy) (s : State) : Host.Outcome State Fault Refusal :=
  .next (
    match Store.find? s.tenants tenant with
    | none => s.reply (.status 1)
    | some t =>
      if !s.asked w ⟨false, true, false⟩ tenant then s.reply (.status 1)
      else if !goodPolicy pol then s.reply (.status 2)
      else State.reply { s with tenants := Store.put tenant { t with policy := pol } s.tenants } (.status 0))

/-- The sweeps of a tenant that is unbound are over: those asked for through the TC are answered. -/
def State.dropSweeps (s : State) (tenant : Nat) : State :=
  let mine := s.sweeps.filter (fun (p : Nat × Sweep) => p.2.tenant == tenant && p.2.external)
  mine.foldl (fun (t : State) p => t.sealTo p.2.session (.revoked 0 p.2.regs p.2.copies)) { s with
    sweeps := s.sweeps.filter (fun (p : Nat × Sweep) => p.2.tenant != tenant),
    replies := s.replies ++ mine.map (fun (p : Nat × Sweep) => .revoked 0 p.2.regs p.2.copies) }

/-- UNBIND (Table 17-1): the tenant's contexts end as by an FLR, its slot is zeroised, and its pages and bank rows are
scrubbed. -/
def execUnbind (r : Request Nat) (s : State) : Host.Outcome State Fault Refusal :=
  .next (
    match Store.find? s.tenants r.topic with
    | none => s.reply (.status 1)
    | some t =>
      if !s.asked r.who ⟨false, true, true⟩ r.topic then s.reply (.status 1)
      else
        let ctxs := (s.ctxs.filter (fun (c : Nat × Context) => c.2.tenant == r.topic)).map Prod.fst
        let s1 := (s.endContexts ctxs).dropSweeps r.topic
        let held := (List.range Config.numCores).filter (fun n => s1.holdsRows n r.topic)
        let s2 := held.foldl (fun (u : State) n => u.scrubCore n r.topic) s1
        let mine := (s2.pages.filter (fun (p : Nat × Owner) => p.2.slot == some t.slot)).map Prod.fst
        let lines := Config.pageBytes / 64
        let s3 := { s2 with
          tenants := Store.erase r.topic s2.tenants,
          retired := s2.retired ++ t.imageRoots.map Prod.snd,
          clusterTenant := s2.clusterTenant.filter (fun (k : Nat × Nat) => k.2 != r.topic),
          streams := s2.streams.filter (fun (x : Nat × Stream) => x.2.tenant != r.topic),
          pages := s2.pages.map (fun (p : Nat × Owner) => if p.2.slot = some t.slot then (p.1, ⟨none, false, true⟩) else p),
          hbm := s2.hbm.filter (fun c => !mine.contains (c.1 / Config.pageBytes)),
          poison := s2.poison.filter (fun l => !mine.contains (l / lines)),
          badLines := s2.badLines.filter (fun l => !mine.contains (l / lines)) }
        (mine.foldl (fun (u : State) g => (u.forgetPage g).markPage g) s3).reply (.status 0))

/-- MINT for the driver (R299, R304): as HREQ with the driver's masks, for a context of the TDI of the driver's session, from which
TENANT, CONTEXT, SLOT and EPOCH are filled; another TDI's context is refused with 1. The statuses are those of Table 17-1 (log 39). -/
def execMint (r : Request Nat) (ctx base len rights fmt flags : Nat) (s : State) : Host.Outcome State Fault Refusal :=
  .next (
    if !s.asked r.who ⟨true, false, false⟩ r.topic then s.reply (.minted 1 0)
    else match Store.find? s.ctxs ctx with
    | none => s.reply (.minted 2 0)
    | some c =>
      let q : MintAsk := ⟨base % 2 ^ 57, len, BitVec.ofNat 8 rights, BitVec.ofNat 8 flags, fmt,
        decide (2 ^ 57 ≤ base) || decide (256 ≤ rights) || decide (32 ≤ flags)⟩
      if s.sessionTdi r.who ≠ some c.tdi then s.reply (.minted 1 0)
      else if c.tenant ≠ r.topic then s.reply (.minted 2 0)
      else
        let (t, st, h) := s.mint r.topic ctx c.part true q
        let answer := match st with
          | 0 => 0
          | 1 => 1
          | 2 => if q.reserved || decide (2 ^ 57 < base + Nat.max len 1) then 2 else 1
          | 3 => 2
          | _ => 3
        t.reply (.minted answer h))

/-- STREAM_OPEN (R322). The identifiers are one space for the module, so that one that is open for a tenant is refused to another with
3; R322 does not say whose they are (DESIGN CHOICE, log 39). An unbound or another's tenant is refused with 1, and an identifier or a
last value that is no such number with 2 (DESIGN CHOICE, log 39). -/
def execStreamOpen (r : Request Nat) (stream : Nat) (outward : Bool) (key : BitVec 256) (last : Nat) (s : State) : Host.Outcome State Fault Refusal :=
  .next (
    if (Store.find? s.tenants r.topic).isNone || !s.asked r.who ⟨false, true, false⟩ r.topic then s.reply (.status 1)
    else if 65536 ≤ stream ∨ 2 ^ 64 ≤ last then s.reply (.status 2)
    else if (Store.find? s.streams stream).isSome then s.reply (.status 3)
    else State.reply { s with streams := Store.put stream ⟨r.topic, outward, key, last⟩ s.streams } (.status 0))

/-- A copy of a core runs on a stream of its tenant. -/
def State.usesStream (s : State) (n stream tenant : Nat) : Bool :=
  let c := s.core n
  (c.task.map Task.tenant) == some tenant && c.copies.any (fun k =>
    (k.mode == .cpyout && k.extra.toNat == stream) || (k.mode == .cpyin && s.importStream n k == some stream))

/-- STREAM_CLOSE (R322): once no copy of the stream runs, its key is erased. Another tenant's stream is refused with 1, and one that is
not open with 2 (DESIGN CHOICE, log 39). -/
def execStreamClose (r : Request Nat) (stream : Nat) (s : State) : Host.Outcome State Fault Refusal :=
  .next (
    match Store.find? s.streams stream with
    | none => s.reply (.status 2)
    | some x =>
      if x.tenant ≠ r.topic ∨ !s.asked r.who ⟨false, true, false⟩ r.topic then s.reply (.status 1)
      else if s.cores.any (fun (p : Nat × Core) => s.usesStream p.1 stream r.topic) then s
      else State.reply { s with streams := Store.erase stream s.streams } (.status 0))

/-- COUNTER_BIND (R333): the lowest free counter, within the policy's limit. -/
def execCounterBind (r : Request Nat) (ctx task : Nat) (s : State) : Host.Outcome State Fault Refusal :=
  .next (
    match Store.find? s.tenants r.topic with
    | none => s.reply (.counter 1 0)
    | some t =>
      let own := s.counters.filter (fun (p : Nat × Counter) => !p.2.paged)
      let mine := own.countP (fun (p : Nat × Counter) => (p.2.bound.map Prod.fst) == some r.topic)
      if !s.asked r.who ⟨true, false, false⟩ r.topic || own.any (fun (p : Nat × Counter) => p.2.bound == some (r.topic, ctx, task)) || t.policy.maxCounters ≤ mine then s.reply (.counter 1 0)
      else match (List.range Config.numCounters).find? (fun i => ((Store.find? s.counters i).bind Counter.bound).isNone) with
        | none => s.reply (.counter 3 0)
        | some i =>
          let x := Store.getD s.counters i ⟨0, 0, none, false, none⟩
          State.reply { s with counters := Store.put i { x with bound := some (r.topic, ctx, task), paged := false } s.counters } (.counter 0 i))

/-- COUNTER_READ (R299). -/
def execCounterRead (r : Request Nat) (s : State) : Host.Outcome State Fault Refusal :=
  .next (if !s.asked r.who ⟨true, false, false⟩ 0 then s.reply (.counter 1 0) else if Config.numCounters ≤ r.topic then s.reply (.counter 2 0)
    else s.reply (.counter 0 (((Store.find? s.counters r.topic).map Counter.value).getD 0)))

/-- The value of a fuse counter: the pairs of which a fuse reads blown (R335). -/
def Fuse.value (f : Fuse) : Nat := (List.range 128).countP (fun i => (f.a ||| f.b).getLsbD i)

/-- FUSE_ADVANCE (R335): with a verified manifest whose security version is high enough, both fuses of the next pair are
blown. Where power is lost within it, at most one of them is. A bad signature or a low version is refused with 1, a counter that
does not exist with 2, and one that stands at 128 with 3 (DESIGN CHOICE, log 39). -/
def execFuseAdvance (r : Request Nat) (version : Nat) (signed cut : Bool) (s : State) : Host.Outcome State Fault Refusal :=
  .next (
    if r.who ≠ .mc then s.reply (.status 1)
    else match s.fuses[r.topic]? with
    | none => s.reply (.status 2)
    | some f =>
      let v := f.value
      let bit : BitVec 128 := (1 : BitVec 128) <<< v
      if !signed || version < v + 1 then s.reply (.status 1)
      else if 128 ≤ v then s.reply (.status 3)
      else if cut then
        let g : Fuse := if Config.halfBlown s.draws then { f with a := f.a ||| bit } else f
        { s.draw with fuses := s.fuses.setIfInBounds r.topic g, powered := false }
      else State.reply { s with fuses := s.fuses.setIfInBounds r.topic ⟨f.a ||| bit, f.b ||| bit⟩ } (.status 0))

/-- TDI_ERROR (R321): every context ends as by an FLR. -/
def execTdiError (tdi : Nat) (s : State) : Host.Outcome State Fault Refusal :=
  .next (
    let s1 := s.endTdi tdi
    if Config.numTdis ≤ tdi then s else { s1 with tdis := Store.put tdi { s1.tdi tdi with state := .error } s1.tdis })

/-- TDISP_MESSAGE (R321): 0 CONFIG_UNLOCKED, 1 CONFIG_LOCKED, 2 RUN; the interface locks, starts and stops in TDISP's order, and
starts only once its IDE stream is established. -/
def execTdispMessage (tdi target : Nat) (s : State) : Host.Outcome State Fault Refusal :=
  .next (
    let t := s.tdi tdi
    let put := fun (x : TdiState) => { s with tdis := Store.put tdi { t with state := x } s.tdis }
    if Config.numTdis ≤ tdi then s
    else match target, t.state with
      | 1, .unlocked => put .locked
      | 2, .locked => if t.stream then put .run else s
      | 0, _ => put .unlocked
      | _, _ => s)

/-- One entry of the topology evidence (Table 17-8). -/
def Link.evidence (l : Link) : List Byte :=
  match l.peer with
  | some (c, p) => bytesOf 48 c.toNat ++ [BitVec.ofNat 8 p]
  | none => List.replicate 48 0 ++ [0xFF]

/-- The context through which a TDI is known to belong to a tenant and a partition. -/
def State.tdiContext (s : State) (tdi : Nat) : Option Context := (List.find? (fun (c : Nat × Context) => c.2.tdi == tdi) s.ctxs).map Prod.snd

/-- The numbers of lists, each behind its length. -/
def listed (xs : List (List Nat)) : List Nat := xs.flatMap (fun l => l.length :: l)

/-- A policy as numbers. -/
def policyNumbers (p : TenantPolicy) : List Nat :=
  [p.hreqRights.toNat, p.hreqFlags.toNat, p.mintRights.toNat, p.mintFlags.toNat, p.permitRevoke.toNat, p.permitRotate.toNat, p.maxCounters]
    ++ listed [p.ranges.flatMap (fun r => [r.1, r.2])]

/-- The code of a TDISP state. -/
def TdiState.code : TdiState → Nat
  | .unlocked => 0 | .locked => 1 | .run => 2 | .error => 3

/-- What a measurement block holds before it is hashed (Table 17-8): firmware images, or a configuration in a form of the part's
own. -/
def State.measurement (s : State) (tdi n : Nat) : List Byte :=
  let x := s.tdiContext tdi
  match n with
  | 5 => Config.measured 5 (match x.bind (fun c => Store.find? s.parts c.part) with
      | some p => listed [p.clusters, p.slices, p.ports, p.modules, [p.rank]]
      | none => [])
  | 6 => Config.measured 6 (match x.bind (fun c => Store.find? s.tenants c.tenant) with
      | some t => policyNumbers t.policy
      | none => [])
  | 8 => Config.measured 8 [tdi, (s.tdi tdi).state.code, (s.tdi tdi).stream.toNat]
  | n => ((s.firmware[n - 1]?).map Firmware.image).getD []

/-- The answer to an SPDM request (R323): a measurement block (Table 17-8), or, for index 0, the certificate chain (log 39). The
blocks are digests, but the fuse counters and the topology evidence are given raw. -/
def State.spdmBlock (s : State) (tdi index : Nat) : Option (List Byte) :=
  match index with
  | 0 => some s.certificates
  | 4 => some (s.fuses.toList.map (fun f => BitVec.ofNat 8 f.value))
  | 7 => some (s.links.toList.flatMap Link.evidence)
  | n => if n ≤ 8 then some (Crypto.sha384 (s.measurement tdi n)) else none

/-- A number of up to 512 bits drawn at random. -/
def State.drawn512 (s : State) : Nat := (Config.randomKey s.draws).toNat + 2 ^ 256 * (Config.randomKey (s.draws + 1)).toNat

/-- The TC signs an exchange with its identity key, by ECDSA on brainpoolP384r1 with SHA-384 (R323): what the requester sent, and
what the TC answers. -/
def State.signed (s : State) (theirs ours : List Byte) : State :=
  let fresh := Crypto.brainpool.scalar s.drawn512
  State.reply { s with draws := s.draws + 2 } (.signed ours
    (Crypto.brainpool.sign (Crypto.brainpool.scalar s.identity.toNat) fresh (Config.transcript theirs ours)))

/-- A SESSION IS SET UP (R323): ECDHE on secp384r1, with the requester's share and a fresh one of the TC's, which it signs; the key
is that of the shared secret. A share that is no point of the curve sets up nothing. The identity of a requester is the SHA-384
of its certificate (Table 17-1). -/
def State.openSession (s : State) (id tdi : Nat) (cert : Option (List Byte)) (x y : Nat) : State :=
  if Config.numTdis ≤ tdi ∨ (Store.find? s.sessions id).isSome ∨ !Crypto.secp384.holds x y then s
  else
    let own := Crypto.secp384.scalar s.drawn512
    let share := fun (p : Crypto.Point) => Crypto.beBytes 48 (p.getD (0, 0)).1 ++ Crypto.beBytes 48 (p.getD (0, 0)).2
    let key := Config.sessionKey (Crypto.secp384.xOf own (some (x, y)))
    let owner := cert.map (fun bs => BitVec.ofNat 384 (numOf (Crypto.sha384 bs)))
    State.signed { s with sessions := Store.put id ⟨tdi, owner, key, 0, 0⟩ s.sessions, draws := s.draws + 2 } (share (some (x, y)))
      (share (Crypto.secp384.mul 384 own (some (Crypto.secp384.gx, Crypto.secp384.gy))))

/-- SPDM_MESSAGE through a TDI (R323): GET_MEASUREMENTS, or, for index 0, GET_CERTIFICATE; with a nonce the answer is signed, as
that of a CHALLENGE is (log 39). After a failed bring-up only GET_MEASUREMENTS is answered, with the failing step (R372). -/
def execSpdmMessage (m : Measure) (s : State) : Host.Outcome State Fault Refusal :=
  .next (
    match s.failedStep, m.nonce with
    | some k, _ => if m.index = 0 then s else s.reply (.measurement [BitVec.ofNat 8 k])
    | none, none => match s.spdmBlock m.tdi m.index with
      | none => s
      | some bs => s.reply (.measurement bs)
    | none, some v => match s.spdmBlock m.tdi m.index with
      | none => s
      | some bs => s.signed (bytesOf 32 v.toNat) bs)

/-- LINK_OPEN (R324): only after mutual authentication. The sender's sequence numbers go on (R337). -/
def execLinkOpen (port : Nat) (authentic : Bool) (peer : BitVec 384) (peerPort : Nat) (s : State) : Host.Outcome State Fault Refusal :=
  .next (if authentic then { s with links := modAt s.links port (fun l => ⟨some (peer, peerPort), l.sent, 0⟩) }
    else { s with links := modAt s.links port (fun l => { l with peer := none }) })

/-- The partition that owns a port (R339). -/
def State.portPart (s : State) (port : Nat) : Option (Nat × Partition) := List.find? (fun (p : Nat × Partition) => p.2.ports.contains port) s.parts

/-- A place is at a peer module. -/
def Loc.isPeer : Loc → Bool
  | .peer _ _ => true
  | _ => false

/-- A core's peer accesses with a frame outstanding end with 0x93 (R338): a load or store raises it in its sequencer, and
a copy of peer memory ends with it. Which accesses had a frame on the link is a free value (log 39). -/
def State.dropPeer (s : State) (n : Nat) : State :=
  let c := s.core n
  let on := fun (id : Nat) => Config.pick (s.draws + 2 ^ 80 * (id + 1)) % 2 == 0
  let loads := c.loads.filter (fun l => l.locs.any Loc.isPeer && !l.performed && on l.id)
  let stores := c.stores.filter (fun x => x.locs.any Loc.isPeer && on x.id)
  let s1 := loads.foldl (fun (t : State) l =>
    (t.modCore n (fun d => { (d.modLoad l.id (fun x => { x with delivered := true })).performLoad l.id with lastActive := s.cycle })).raiseLate n l.sq 0x93) s
  let s2 := stores.foldl (fun (t : State) x =>
    (t.modCore n (fun d => { d with stores := d.stores.filter (fun e => e.id != x.id), lastActive := s.cycle })).raiseLate n x.sq 0x93) s1
  (c.copies.filter (fun k => (hPeer k.dst || (k.mode.reads && hPeer k.src)) && k.touched && k.status == 0 && !k.landed && on k.id)).foldl (fun (t : State) k =>
    t.abandonCopy n k.id 0x93) s2

/-- A link closes after the last failed replay (R338): the peer accesses and the collectives that have a frame outstanding on it
end with 0x93. Which collectives have one, of those with chunks still to pass, is a free value (log 39). -/
def State.closeLink (s : State) (port : Nat) : State :=
  let s1 := { s.draw with
    links := modAt s.links port (fun l => ⟨none, l.sent, 0⟩),
    lifetime := { s.lifetime with retrains := s.lifetime.retrains.zipIdx.map (fun (p : Nat × Nat) => if p.2 = port then Nat.min (p.1 + 1) (2 ^ 32 - 1) else p.1) } }
  match s.portPart port with
  | none => s1
  | some (part, _) => (s1.coresIn part).foldl (fun (t : State) n =>
      let g := (t.core n).group
      (t.core n).colls.foldl (fun (u : State) (p : Nat × Coll) =>
        if p.2.ended.isNone && p.2.started && p.2.travels g && !p.2.passedAll g && Config.pick (s.draws + 2 ^ 82 * (n * 16 + p.1 + 1)) % 2 == 0
        then u.endColl n p.1 0x93 else u) (t.dropPeer n)) s1

/-- The tag of a frame that arrives at a port is good (R337). -/
def Partition.goodFrame (p : Partition) (port : Nat) (f : Frame) (tag : List Byte) : Bool :=
  goodPayload f.payload && Crypto.gcmTag (p.linkKey f.gen port) (frameIv port true f.seq) (frameHeader f) f.payload == tag

/-- FRAME_RECEIVE (R337, R338, R361): a tag that fails is replayed up to 8 times, and then the link closes. A contribution under
a generation that is not held ends its collective with 0xC2; a result frame that is not under the newest counts as one whose
tag fails (log 39). -/
def execFrameReceive (port : Nat) (frame : Frame) (tag : List Byte) (core id : Nat) (result : Bool) (s : State) : Host.Outcome State Fault Refusal :=
  .next (
    match s.links[port]?, Store.find? s.parts frame.part with
    | some l, some p =>
      if l.peer.isNone || !p.ports.contains port then s
      else if !result && !p.holdsGen frame.gen then
        (if ((s.core core).task.map Task.part) != some frame.part then s else s.endColl core id 0xC2)
      else if (if result then frame.gen == p.linkGen else true) && p.goodFrame port frame tag then
        { s with links := modAt s.links port (fun l => { l with fails := 0 }) }
      else if l.fails < 8 then { s with links := modAt s.links port (fun l => { l with fails := l.fails + 1 }) }
      else s.closeLink port
    | _, _ => s)

/-- LINK_KEY_UPDATE (R361): the first link that is updated begins the new generation; its sender uses it from here on. -/
def execLinkKeyUpdate (part port : Nat) (s : State) : Host.Outcome State Fault Refusal :=
  .next (State.modPart { s with draws := s.draws + 16 } part (fun p =>
    if !p.ports.contains port then p
    else if !p.linkOlder then { p with linkGen := p.linkGen + 1, linkOlder := true, linkUpdated := [port], linkKeys := s.portKeys [port] (p.linkGen + 1) p.linkKeys }
    else if p.linkUpdated.contains port then p
    else { p with linkUpdated := p.linkUpdated ++ [port], linkKeys := s.portKeys [port] p.linkGen p.linkKeys }))

/-- LINK_KEY_RETIRE (R361): every link has acknowledged the successor. The accumulators of the partition's slots are zeroed
(R318): what this module has put into rounds that are not complete counts as zero. -/
def execLinkKeyRetire (part : Nat) (s : State) : Host.Outcome State Fault Refusal :=
  .next (
    match Store.find? s.parts part with
    | none => s
    | some p =>
      if !p.linkOlder || !p.ports.all p.linkUpdated.contains then s
      else
        let s1 := s.modPart part (fun p => { p with
          linkOlder := false, linkUpdated := [], linkKeys := p.linkKeys.filter (fun (k : Nat × BitVec 256) => k.1 / 16 == p.linkGen) })
        { s1 with aperture := s1.aperture.map (fun (w : Nat × ApWord) =>
            if (Store.find? s1.ctxs (w.1 / 8192 / 64)).map Context.part ≠ some part then w
            else (w.1, { w.2 with puts := w.2.puts.zipIdx.map (fun (x : Word × Nat) => if w.2.results.length ≤ x.2 then 0 else x.1) })) })

/-- The tenant that holds a key slot. -/
def State.slotTenant (s : State) (slot : Nat) : Option Tenant := (List.find? (fun (p : Nat × Tenant) => p.2.slot == slot) s.tenants).map Prod.snd

/-- The keys under which a page stands (R311, R313): those of the generation that its generation bit names. -/
def State.pageKeys (s : State) (page : Nat) : Option SlotKeys :=
  let o := s.owner page
  if o.scrub then none
  else (o.slot.bind s.slotTenant).bind (fun t => Store.find? t.keys (if t.older && !o.newer then t.gen - 1 else t.gen))

/-- The tag of the ciphertext of a line at an address, under the tag key: over the address and the ciphertext (Table 17-7; the
width of the address, log 5). -/
def tagAt (k : SlotKeys) (addr : Nat) (cipher : List Byte) : List Byte := (Crypto.cmac k.tag (bytesOf 16 addr ++ cipher)).take 4

/-- The tag of an HBM line's ciphertext. -/
def lineTag (k : SlotKeys) (line : Nat) (cipher : List Byte) : List Byte := tagAt k (64 * line) cipher

/-- What the HBM holds of a line: its ciphertext and its tag (Table 17-7). -/
def State.storedLine (s : State) (line : Nat) : Option (List Byte × List Byte) :=
  (s.pageKeys (line / 1024)).map (fun k =>
    let ct := Crypto.xts false k.data1 k.data2 (64 * line) (Memory.readN s.hbm (64 * line) 64)
    (ct, lineTag k line ct))

/-- Ciphertext and a tag are written into a line (R315, R317): the line then reads as what the ciphertext stands for, and passes
its check where the tag is right for it, whoever made it and whenever. -/
def State.writeLine (s : State) (line : Nat) (cipher tag : List Byte) : State :=
  match s.pageKeys (line / 1024) with
  | none => s
  | some k =>
    let bs := Crypto.xts true k.data1 k.data2 (64 * line) (cipher.take 64)
    if cipher.length ≠ 64 then s
    else { s with
      hbm := Memory.writeN s.hbm (64 * line) bs, writes := s.writes + 1,
      badLines := if lineTag k line cipher = tag then s.badLines.filter (· != line) else if s.badLines.contains line then s.badLines else s.badLines ++ [line],
      past := s.past.filter (fun p => match p.loc with | .hbm a => s.hbmAddr a / 64 != line | _ => true) }

/-- A line of the staging chunks of a collective in the cistern: its address, the keys of its tenant's newest generation, and its
plaintext (R315, R341; the place in the cistern and the generation, log 41). -/
def State.chunkLine (s : State) (core id line : Nat) : Option (Nat × SlotKeys × List Byte) :=
  match Store.find? (s.core core).colls id, (s.core core).task.bind (fun t => Store.find? s.tenants t.tenant) with
  | some k, some t =>
    match k.chunks[line / 64]?, Store.find? t.keys t.gen with
    | some bs, some keys => some (Config.cisternAddr core id (k.passed + line / 64) + line % 64 * 64, keys,
        ((bs.drop (line % 64 * 64)) ++ List.replicate 64 0).take 64)
    | _, _ => none
  | _, _ => none

/-- What the cistern holds of a line of a staging chunk: its ciphertext and its tag (Table 17-7). -/
def State.storedChunk (s : State) (core id line : Nat) : Option (List Byte × List Byte) :=
  (s.chunkLine core id line).map (fun x =>
    let ct := Crypto.xts false x.2.1.data1 x.2.1.data2 x.1 x.2.2
    (ct, tagAt x.2.1 x.1 ct))

/-- Ciphertext and a tag are written into a line of a staging chunk (R315, R317): the chunk then holds what the ciphertext stands
for, and fails as it leaves unless the tag is right for it. -/
def State.writeChunk (s : State) (core id line : Nat) (cipher tag : List Byte) : State :=
  match s.chunkLine core id line with
  | none => s
  | some (addr, keys, _) =>
    if cipher.length ≠ 64 then s
    else
      let text := Crypto.xts true keys.data1 keys.data2 addr cipher
      let change := fun (bs : List Byte) =>
        (bs.take (line % 64 * 64) ++ text ++ bs.drop (line % 64 * 64 + 64)).take bs.length
      s.modCore core (fun c => c.modColl id (fun k => { k with
        chunks := k.chunks.zipIdx.map (fun (p : List Byte × Nat) => if p.2 = line / 64 then change p.1 else p.1),
        spoiled := if tagAt keys addr cipher = tag ∨ k.spoiled = some 0xE1 then k.spoiled else some 0x91 }))

/-- The key of a scratchpad row (Tables 17-5 and 17-7): the bank key of tenant and core, or, for the share of the cluster window,
the cluster-window key; of the newer generation once the bank walker has passed the row (R312, R313). -/
def State.rowKey (s : State) (core row : Nat) : Option (BitVec 256) :=
  match (s.core core).lastTenant.bind (Store.find? s.tenants) with
  | none => none
  | some t =>
    let older := t.older && (s.core core).bankMark.any (fun m => decide (m ≤ row))
    (Store.find? t.keys (if older then t.gen - 1 else t.gen)).map (fun k =>
      Crypto.kdf k.bankRoot (bytesOf 4 (if 0xC0000 ≤ 64 * row then 0x10000 + core / Config.clusterCores else core)))

/-- What a bank holds of a row: the bank cipher's text and its tag (Table 17-7); the cipher's rounds are open (log 39). -/
def State.storedRow (s : State) (core row : Nat) : Option (List Byte × BitVec 24) :=
  (s.rowKey core row).map (fun k =>
    let ct := Config.bankCipher k core row (Memory.readN (s.core core).scratch (64 * row) 64)
    (ct, Config.bankTag k core row ct))

end Sys2Proof.Machine
end

