-- ==== Sys2Proof/Machine/Platform.lean ====
section
/-!
DEFINITION. Platform events: power and thermal limits (R366 to R370), reset and bring-up (R371, R372), soft errors (R373,
R374), the lifetime record (R375 to R377), and what comes from outside.
-/
namespace Sys2Proof.Machine

/-- One more, up to the largest value of n bits (R375: counts saturate). -/
def sat (n v : Nat) : Nat := Nat.min (v + 1) (2 ^ n - 1)

/-- Counts one more at a place of a list of 32-bit counts. -/
def countAt (xs : List Nat) (i : Nat) : List Nat := xs.zipIdx.map (fun (p : Nat × Nat) => if p.2 = i then sat 32 p.1 else p.1)

/-- The largest throttle time in units of 10 µs, of which 100,000 make the second that the record counts (Table 21-5). -/
def timeLimit : Nat := 100000 * 2 ^ 32 - 1

/-- Counts 10 µs in a bin of throttle time. -/
def timeAt (xs : List Nat) (i : Nat) : List Nat := xs.zipIdx.map (fun (p : Nat × Nat) => if p.2 = i then Nat.min (p.1 + 1) timeLimit else p.1)

/-- Changes the lifetime record. -/
def State.modLife (s : State) (f : Lifetime → Lifetime) : State := { s with lifetime := f s.lifetime }

/-- The bin of a throttle level (Table 21-5): bin 0 is level 0, and bin 1 levels 1 to 7. The table names nine ranges for eight
bins: the last two, 48 to 55 and 56 to 63, share bin 7 (DESIGN CHOICE, log 40). -/
def levelBin (q : Nat) : Nat := if q = 0 then 0 else Nat.min 7 (q / 8 + 1)

/-- The highest level among the partitions of a die; a cluster lies on die cluster / 8. -/
def State.dieLevel (s : State) (die : Nat) : Nat :=
  s.parts.foldl (fun (m : Nat) (p : Nat × Partition) => if p.2.clusters.any (fun c => c / 8 == die) then Nat.max m p.2.level else m) 0

/-- Counts 10 µs of every die in the power throttle bins (Table 21-5). -/
def State.countPower (s : State) : State :=
  s.modLife (fun l => { l with power := (List.range Config.numDies).foldl (fun (x : List Nat) d => timeAt x (levelBin (s.dieLevel d))) l.power })

/-- MODULE_LIMITER_TICK (R366, R367), with the average power of the last 10 µs and the running average of 1 s, in watts. A
tick is 10 µs, and 10 ms are a thousand of them. -/
def execModuleLimiterTick (watts10us watts1s : Nat) (s : State) : Host.Outcome State Fault Refusal :=
  .next (
    let run := if 2400 < watts10us then s.excursion + 1 else 0
    let above := decide (2700 < watts10us) || decide (1000 ≤ run) || decide (2400 < watts1s)
    let level := fun (p : Partition) => if p.cap ≠ 0 then p else { p with level := if above then Nat.min 63 (p.level + 1) else p.level - 1 }
    State.countPower { s with excursion := run, parts := s.parts.map (fun (p : Nat × Partition) => (p.1, level p.2)) })

/-- The thermal level after 10 µs at a temperature (R370). -/
def nextThermal (qt degrees : Nat) : Nat := if 105 ≤ degrees then Nat.min 63 (qt + 1) else if degrees < 100 then qt - 1 else qt

/-- THERMAL_LEVEL_TICK (R370), with the die's hottest junction in degrees Celsius. -/
def execThermalLevelTick (die degrees : Nat) (s : State) : Host.Outcome State Fault Refusal :=
  .next (
    match s.dies[die]? with
    | none => s
    | some d =>
      let q := nextThermal d.qt degrees
      let s1 := { s with dies := modAt s.dies die (fun d => { d with qt := q }) }
      s1.modLife (fun l => { l with thermal := timeAt l.thermal (levelBin q) }))

/-- The better saved copy (R375): the higher save sequence. -/
def State.saved (s : State) : Option Lifetime :=
  match s.saved0, s.saved1 with
  | some a, some b => if b.saveSeq ≤ a.saveSeq then some a else some b
  | some a, none => some a
  | none, b => b

/-- A record with one more thermal trip (Table 21-5). -/
def Lifetime.trip (l : Lifetime) : Lifetime := { l with trips := sat 8 l.trips }

/-- THERMAL_TRIP (R370): power is removed from every die. The trip is recorded in the record in memory and in the copies,
so that it outlives the loss of power (log 40). -/
def execThermalTrip (s : State) : Host.Outcome State Fault Refusal :=
  .next { s with
    powered := false, lifetime := s.lifetime.trip,
    saved0 := if s.saved0.isNone && s.saved1.isNone then some Lifetime.zero.trip else s.saved0.map Lifetime.trip,
    saved1 := s.saved1.map Lifetime.trip }

/-- SUPPLY_DROOP (R368): issue on the die is gated for 64 cycles, and the droop is counted. -/
def execSupplyDroop (die : Nat) (s : State) : Host.Outcome State Fault Refusal :=
  .next (
    let s1 := { s with dies := modAt s.dies die (fun d => { d with droopUntil := s.cycle + 64 }) }
    s1.modLife (fun l => { l with droops := countAt l.droops die }))

/-- The temperature bin of Table 21-5. -/
def tempBin (degrees : Nat) : Nat := if degrees < 45 then 0 else if 115 ≤ degrees then 15 else (degrees - 40) / 5

/-- JUNCTION_TEMPERATURE_SAMPLE (R375): one second passes; the package's hottest junction is counted in its bin. -/
def execJunctionTemperatureSample (degrees : Nat) (s : State) : Host.Outcome State Fault Refusal :=
  .next (s.modLife (fun l => { l with temps := countAt l.temps (tempBin degrees), seconds := sat 64 l.seconds }))

/-- The record without its digest (Table 21-5): 0x950 bytes. Replays and scratchpad corrections of core n share a word. -/
def lifeBody (l : Lifetime) (fuses : List Nat) : List Byte :=
  let words := fun (xs : List Nat) => xs.flatMap (bytesOf 4)
  let core := fun n => Store.getD l.replays n 0 * 2 ^ 20 + Store.getD l.corrections n 0
  [0x4B, 0x58, 0x4C, 0x46] ++ bytesOf 4 1 ++ bytesOf 8 l.saveSeq ++ bytesOf 8 l.seconds
    ++ fuses.flatMap (bytesOf 1) ++ bytesOf 4 (l.coldResets + l.trips * 2 ^ 16)
    ++ words l.temps ++ words l.droops ++ words (l.power.map (· / 100000)) ++ words (l.thermal.map (· / 100000)) ++ words l.retrains
    ++ (l.hbmCorrected.zip l.hbmUncorrectable).flatMap (fun (p : Nat × Nat) => bytesOf 4 p.1 ++ bytesOf 4 p.2)
    ++ (List.range Config.numCores).flatMap (fun n => bytesOf 4 (core n)) ++ words l.checks ++ List.replicate 16 0

/-- The record with its digest (Table 21-5): 2,432 bytes. -/
def lifeBytes (l : Lifetime) (fuses : List Nat) : List Byte := lifeBody l fuses ++ Crypto.sha384 (lifeBody l fuses)

/-- LIFE_READ (R376): the record as it stands, with a digest computed anew. -/
def execLifeRead (s : State) : Host.Outcome State Fault Refusal :=
  .next (s.reply (.life (lifeBytes s.lifetime (s.fuses.toList.map Fuse.value))))

/-- Drops the fractions of a second, which a copy does not hold (R375). -/
def wholeSeconds (xs : List Nat) : List Nat := xs.map (fun v => v / 100000 * 100000)

/-- LIFETIME_SAVE (R375, R377): the record goes to the copies in turn; not while a persistent commit is under way. -/
def execLifetimeSave (s : State) : Host.Outcome State Fault Refusal :=
  .next (
    if !s.commits.isEmpty then s
    else
      let l : Lifetime := { s.lifetime with saveSeq := sat 64 s.lifetime.saveSeq, fuses := s.fuses.toList.map Fuse.value }
      let copy : Lifetime := { l with power := wholeSeconds l.power, thermal := wholeSeconds l.thermal }
      if l.saveSeq % 2 = 0 then { s with lifetime := l, saved0 := some copy } else { s with lifetime := l, saved1 := some copy })

/-- The HBM stack of a line: a stack holds four slices (R5). -/
def stackOf (line : Nat) : Nat := line * 64 / Config.sliceBytes / 4

/-- A place of the HBM exists (R5). -/
def goodLine (line : Nat) : Bool := decide (line * 64 < Config.hbmBytes)

/-- A line was corrected (Table 21-4). -/
def State.lineCorrected (s : State) (line : Nat) : State :=
  s.modLife (fun l => { l with hbmCorrected := countAt l.hbmCorrected (stackOf line) })

/-- A line holds an error beyond correction: it is poisoned (R373, R374). -/
def State.lineLost (s : State) (line : Nat) : State :=
  State.modLife { s with poison := if s.poison.contains line then s.poison else s.poison ++ [line] }
    (fun l => { l with hbmUncorrectable := countAt l.hbmUncorrectable (stackOf line) })

/-- PATROL_SCRUB (R373, R374): what the patrol finds in a line: 0 nothing, 1 an error that ECC corrects, more an error that
it does not. -/
def execPatrolScrub (line errs : Nat) (s : State) : Host.Outcome State Fault Refusal :=
  .next (
    if !goodLine line then s
    else match errs with
      | 0 => s
      | 1 => s.lineCorrected line
      | _ => s.lineLost line)

/-- A row of a scratchpad that is scrubbed, and so holds something (R319). -/
def State.rowScrubbed (s : State) (core row : Nat) : Bool :=
  decide (core < Config.numCores) && decide (row < 16384) && (decide (row < (s.core core).watermark) || (s.core core).scrubbed.contains row)

/-- Counts one more for a core in a field of n bits (Table 21-5). -/
def bump (n : Nat) (m : Store Nat) (core : Nat) : Store Nat := Store.put core (sat n (Store.getD m core 0)) m

/-- A chunk that stands in the cistern fails with a cause when it leaves: an error in it comes before its tag (R373). -/
def State.spoilChunk (s : State) (c id : Nat) (cause : Cause) : State :=
  s.modCore c (fun x => x.modColl id (fun k =>
    if k.chunks.isEmpty ∨ k.spoiled = some 0xE1 then k else { k with spoiled := some cause }))

/-- A soft error or a tampering (R155, R315, R373, Table 21-4): what ECC or a replay corrects is counted and nothing else;
what it does not correct is found by the next reader. -/
def State.strike (s : State) : Strike → State
  | .rowCorrected c => if c < Config.numCores then s.modLife (fun l => { l with corrections := bump 20 l.corrections c }) else s
  | .rowLost c r => if s.rowScrubbed c r then { s with lostRows := s.lostRows ++ [c * 16384 + r] } else s
  | .rowTampered c r => if s.rowScrubbed c r then { s with badRows := s.badRows ++ [c * 16384 + r] } else s
  | .lineCorrected l => if goodLine l then s.lineCorrected l else s
  | .lineLost l => if goodLine l then s.lineLost l else s
  | .lineTampered l => if goodLine l then { s with badLines := s.badLines ++ [l] } else s
  | .lineWritten l ct tag => if goodLine l then s.writeLine l ct tag else s
  | .chunkTampered c id => s.spoilChunk c id 0x91
  | .chunkWritten c id l ct tag => s.writeChunk c id l ct tag
  | .chunkLost c id st => State.modLife (s.spoilChunk c id 0xE1) (fun l => { l with hbmUncorrectable := countAt l.hbmUncorrectable st })
  | .linkRetried n => { s with dieLinks := Store.put n (Store.getD s.dieLinks n 0 + 1) s.dieLinks }
  | .replayed c => if c < Config.numCores then s.modLife (fun l => { l with replays := bump 12 l.replays c }) else s
  | .registerLost c q => if (s.core c).task.isSome then s.raiseLate c q 0xE2 else s
  | .linkLost c q => if (s.core c).task.isSome then s.raiseLate c q 0xE3 else s

/-- Step 2 of bring-up: the other fuse of every pair that reads half blown is blown again (R335). -/
def Fuse.whole (f : Fuse) : Fuse := ⟨f.a ||| f.b, f.a ||| f.b⟩

/-- The step of bring-up that loads the firmware which a fuse counter guards (Table 21-3). -/
def loadStep (i : Nat) : Nat := match i with | 0 => 3 | 1 => 5 | _ => 10

/-- The step at which bring-up fails (R335, R372): one that a free value names (log 40), or one whose firmware has a security
version below its fuse counter. -/
def State.bootFailure (s : State) : Option Nat :=
  let low := fun (i : Nat) => decide (Config.firmwareVersion s.draws i < (s.fuses[i]?.map Fuse.value).getD 0)
  [1, 2, 3, 4, 5, 6, 7, 8, 9, 10].find? (fun k => Config.bringUp s.draws == some k || [0, 1, 2].any (fun i => loadStep i == k && low i))

/-- The state to which both resets bring the module (R371, R372). It keeps the persistent counters, the fuse counters, the
copies of the lifetime record, the TC's keys from manufacture, and what lies outside the module; every tenant is unbound. What a step of Table 21-3 does
is done where no earlier step and not the step itself has failed: step 2 makes the fuses whole, steps 3, 5 and 10 load firmware,
step 4 draws the session epoch, and step 8 takes the better copy of the record. -/
def State.restart (s : State) : State :=
  let failed := s.bootFailure
  let done := fun (k : Nat) => failed.all (fun f => decide (k < f))
  { State.reset with
    counters := s.counters,
    fuses := if done 2 then s.fuses.map Fuse.whole else s.fuses,
    saved0 := s.saved0,
    saved1 := s.saved1,
    lifetime := if done 8 then s.saved.getD Lifetime.zero else Lifetime.zero,
    host := s.host,
    file := s.file,
    peer := s.peer,
    sessionEpoch := if done 4 then Config.sessionEpoch s.draws else s.sessionEpoch,
    firmware := Vector.ofFn (fun (i : Fin 3) => if done (loadStep i.val) then ⟨Config.firmwareVersion s.draws i.val, Config.firmwareImage s.draws i.val⟩ else ⟨0, []⟩),
    persistRoot := s.persistRoot,
    identity := s.identity,
    certificates := s.certificates,
    failedStep := failed,
    retired := s.retired ++ s.tenants.flatMap (fun (p : Nat × Tenant) => p.2.imageRoots.map Prod.snd),
    draws := s.draws + 1,
    agenda := s.agenda,
    replies := s.replies }

/-- COLD_RESET (R371, R372): the application of power, counted in the lifetime record once step 8 has read it. -/
def execColdReset (s : State) : Host.Outcome State Fault Refusal :=
  .next (s.restart.modLife (fun l => if s.bootFailure.all (fun f => decide (8 < f)) then { l with coldResets := sat 16 l.coldResets } else l))

/-- WARM_RESET (R371): the assertion of PERST#. -/
def execWarmReset (s : State) : Host.Outcome State Fault Refusal := .next s.restart

/-- POWER_LOSS (R372): the module stops; the counters, the fuses and the saved copies keep what they hold. -/
def execPowerLoss (s : State) : Host.Outcome State Fault Refusal := .next { s with powered := false }

/-- After a failed bring-up the TC answers measurements alone, until the next reset (R372); the regulators still remove power at
a thermal trip (R370). -/
def survivesBringUp : Instr → Bool
  | .spdmMessage _ => true
  | .coldReset => true
  | .warmReset => true
  | .powerLoss => true
  | .thermalTrip => true
  | _ => false

/-- What comes from outside, where no operation of the opcode table stands for it. -/
def State.outside (s : State) : Outside → State
  | .peerStore rank addr data =>
    if rank < 64 ∧ addr + data.length ≤ 2 ^ 50 then s.writePeers (data.zipIdx.map (fun p => (rank * 2 ^ 50 + addr + p.2, p.1))) else s
  | .peerWrite ctx va data => s.peerWrite ctx va data
  | .peersLoaded ctx slot word =>
    let w := s.apWord (apKey ctx slot word)
    if w.peersLoaded < w.results.length then s.setApWord (apKey ctx slot word) { w with peersLoaded := w.peersLoaded + 1 } else s
  | .peerCancel group channel nth =>
    let key := group * 16 + channel
    if channel < 16 ∧ Store.getD s.collCounts key 0 ≤ nth then { s with collGone := (key, nth) :: s.collGone } else s
  | .peerLinks down => { s with peersDown := down }
  | .poolDrawn part n planes => s.drawOutside part n planes
  | .poolFreed n planes => s.freeOutside n planes
  | .sessionOpen id tdi cert x y => s.openSession id tdi cert x y
  | .sessionClose id => { s with sessions := Store.erase id s.sessions }
  | .ideStream tdi => if tdi < Config.numTdis then { s with tdis := Store.put tdi { s.tdi tdi with stream := true } s.tdis } else s
  | .migratedPage part idx data => s.takePage part idx data
  | .migrated part queues accounts ctxs => s.bindMigrated part queues accounts ctxs
  | .payload part port data => match s.sealFrame part port data with
    | none => s
    | some (t, f, tag) => t.reply (.frame port f tag)

end Sys2Proof.Machine
end

