-- ==== Sys2Proof/Machine/Cycle.lean ====
section
/-!
DEFINITION. Cycles: the turn that comes next, what happens when a cycle ends, the order of a core's moves within one cycle
(R7, R15, R16, R173), and what holds a sequencer back at an instruction boundary (R15, R149, R276, R368).
-/
namespace Sys2Proof.Machine

/-- The turn to take: the next that the agenda lists, or a free one (R379). -/
def State.turn (s : State) : Turn :=
  match s.agenda with
  | t :: _ => t
  | [] => Config.chooseTurn s.draws

/-- The core of a move and the move's place within a cycle: ld, ex, st, ctl, and then its copies and completions (R7, R16). -/
def Move.place : Move → Option (Nat × Nat)
  | .issue c q => some (c, q.num)
  | .copy c _ _ => some (c, 4)
  | .op (.copyCompletion c _) => some (c, 4)
  | .op (.collectiveCompletion c _ _ _) => some (c, 4)
  | _ => none

/-- The agent on whose behalf a move writes (R227). -/
def Move.actor : Move → Nat
  | .issue c _ => c
  | .copy c _ _ => c
  | _ => Config.serviceAgent

/-- A move can still take place in the cycle in which its core last moved: a sequencer that stands behind the last in the
cycle's order, or a further completion (R7, R15, R16, R173). -/
def State.inCycle (s : State) (m : Move) : Bool :=
  match m.place with
  | none => true
  | some (n, r) => match (s.core n).moved with
    | none => true
    | some (t, k) => t != s.cycle || decide (k < r) || (k == 4 && r == 4)

/-- The cycles that pass before the turn's move: one where it names none and its core's place in this cycle is past. -/
def State.turnCycles (s : State) : Nat := if s.turn.cycles = 0 ∧ !s.inCycle s.turn.move then 1 else s.turn.cycles

/-- A cycle ends: barrier phases turn, and every core and gang keeps what the next cycle reads as it now stands (R8, R33, R124,
R128, R133, R135). -/
def State.endCycle (s : State) : State :=
  State.tickGangs { s with cores := s.cores.map (fun (p : Nat × Core) => (p.1, p.2.tick)) }

/-- A core that runs a task has moved at a place of this cycle. -/
def State.noteMove (s : State) (m : Move) : State :=
  let s1 := { s with actor := m.actor }
  match m.place with
  | none => s1
  | some (n, r) => if (s.core n).task.isSome then s1.modCore n (fun c => { c with moved := some (s.cycle, r) }) else s1

/-- Cycles pass: at their end what a cycle settles is settled, and they are charged to the tenants whose tasks run (R272). -/
def State.pass (s : State) (n : Nat) : State :=
  let s1 := if n = 0 then s else s.endCycle
  State.charge { s1 with cycle := s1.cycle + n } n

/-- The state in which a turn is taken: the agenda and the draws have moved on, and its cycles have passed. -/
def State.begin (s : State) : State :=
  State.noteMove (State.pass { s with agenda := s.agenda.drop 1, draws := s.draws + 1 } s.turnCycles) s.turn.move

/-- The SPDM session over which a request of the TC comes (R299). -/
def sessionOf : Instr → Option Nat
  | .bind w _ _ => w.number
  | .policy w _ _ => w.number
  | .unbind r => r.who.number
  | .mint r _ _ _ _ _ _ => r.who.number
  | .revoke r _ _ => r.who.number
  | .rotate r => r.who.number
  | .streamOpen r _ _ _ _ => r.who.number
  | .streamClose r _ => r.who.number
  | .counterBind r _ _ => r.who.number
  | .counterRead r => r.who.number
  | .restore r => r.who.number
  | .fuseAdvance r _ _ _ => r.who.number
  | _ => none

/-- The TC has received a message over a session (R299). -/
def State.hears (s : State) (id : Nat) : State :=
  match Store.find? s.sessions id with
  | none => s
  | some x => { s with sessions := Store.put id { x with heard := x.heard + 1 } s.sessions }

/-- The answer that a request gets at once leaves over its session (R299, R323). -/
def State.answers (before s : State) (id : Nat) : State :=
  match (s.replies.drop before.replies.length).getLast? with
  | none => s
  | some r => s.sealTo (some id) r

/-- The majors that a throttle level and a droop hold back: 0x30 to 0x37, of ex (R276, R368). -/
def throttled (i : Instr) : Bool :=
  match encode i with
  | a :: b :: _ => decide (0x30 ≤ majorOf (wordOfParcels a b)) && decide (majorOf (wordOfParcels a b) ≤ 0x37)
  | _ => false

/-- The issuing sequencer stands still while a SAVE of its core's ctl waits for its commit (R149). -/
def State.standsStill (s : State) : Bool := s.curSq != .ctl && s.cur.saving

end Sys2Proof.Machine
end

