-- ==== Sys2Proof/Machine/Scalar.lean ====
section
/-!
DEFINITION. The scalar instructions: short forms, ALU with and without literal, immediates, literals and predicates
(R41, R42, R102 to R113). Under a literal, operand b is the literal sign-extended (R105); the reuse hint U never
changes a result (R251) and is not read.
-/
namespace Sys2Proof.Machine

/-- High half of the signed product (R105). -/
def mulHigh (a b : Word) : Word := BitVec.ofInt 64 (a.toInt * b.toInt / 2 ^ 64)
/-- High half of the unsigned product (R105). -/
def mulHighU (a b : Word) : Word := BitVec.ofNat 64 (a.toNat * b.toNat / 2 ^ 64)
/-- A zero divisor traps with 0xB0 (R42). -/
def divideBy (f : Word → Word → Word) (a b : Word) : Except Stop Word := if b = 0 then .error (.trap 0xB0) else .ok (f a b)
/-- The shift amount: modulo 64 (R41). -/
def amount (b : Word) : Nat := b.toNat % 64
/-- A sum or difference clamped to the signed 64-bit range (R41). -/
def clamp64 (v : Int) : Word :=
  BitVec.ofInt 64 (if v < -9223372036854775808 then -9223372036854775808 else if 9223372036854775807 < v then 9223372036854775807 else v)
/-- Leading zeros (R105). -/
def leadingZeros (a : Word) : Word := BitVec.ofNat 64 (if a = 0 then 64 else 63 - Nat.log2 a.toNat)
/-- Trailing zeros (R105). -/
def trailingZeros (a : Word) : Word := BitVec.ofNat 64 (((List.range 64).find? a.getLsbD).getD 64)
/-- One bits (R105). -/
def onesCount (a : Word) : Word := BitVec.ofNat 64 ((List.range 64).filter a.getLsbD).length
/-- The width that SEXT and ZEXT take from b, 0 read as 64 (R106). -/
def extWidth (b : Word) : Nat := if b.toNat % 64 = 0 then 64 else b.toNat % 64
/-- SEXT (R106). -/
def signExt (a b : Word) : Word := BitVec.ofInt 64 (signedOf (extWidth b) a.toNat)
/-- ZEXT (R106). -/
def zeroExt (a b : Word) : Word := BitVec.ofNat 64 (a.toNat % 2 ^ extWidth b)
/-- BFX (R106). -/
def extractField (a b : Word) : Word := BitVec.ofNat 64 (a.toNat / 2 ^ (b.toNat % 64) % 2 ^ (bitsOf b.toNat 13 8 + 1))
/-- BFI (R106): bits of the field above 63 are dropped. -/
def insertField (d a b : Word) : Word :=
  let m : Word := BitVec.ofNat 64 ((2 ^ (bitsOf b.toNat 13 8 + 1) - 1) * 2 ^ (b.toNat % 64))
  (d &&& ~~~m) ||| ((a <<< (b.toNat % 64)) &&& m)

/-- NOP takes an issue cycle (R120). -/
def execNop (s : State) : Host.Outcome State Fault Refusal := finish s (.ok (s.retire 1))
/-- Short MOV (R104). -/
def execMov (d a : BitVec 5) (s : State) : Host.Outcome State Fault Refusal := finish s (s.alu1 1 d.toNat a.toNat id)
/-- Short ADD: d := d op a (R104). -/
def execAddShort (d a : BitVec 5) (s : State) : Host.Outcome State Fault Refusal :=
  finish s (s.alu2 1 d.toNat d.toNat a.toNat (fun x y => .ok (x + y)))
/-- Short SUB: d := d op a (R104). -/
def execSubShort (d a : BitVec 5) (s : State) : Host.Outcome State Fault Refusal :=
  finish s (s.alu2 1 d.toNat d.toNat a.toNat (fun x y => .ok (x - y)))
/-- Short AND: d := d op a (R104). -/
def execAndShort (d a : BitVec 5) (s : State) : Host.Outcome State Fault Refusal :=
  finish s (s.alu2 1 d.toNat d.toNat a.toNat (fun x y => .ok (x &&& y)))
/-- Short OR: d := d op a (R104). -/
def execOrShort (d a : BitVec 5) (s : State) : Host.Outcome State Fault Refusal :=
  finish s (s.alu2 1 d.toNat d.toNat a.toNat (fun x y => .ok (x ||| y)))
/-- Short XOR: d := d op a (R104). -/
def execXorShort (d a : BitVec 5) (s : State) : Host.Outcome State Fault Refusal :=
  finish s (s.alu2 1 d.toNat d.toNat a.toNat (fun x y => .ok (x ^^^ y)))
/-- ADDI6 (R104). -/
def execAddi6 (d : BitVec 5) (i : BitVec 6) (s : State) : Host.Outcome State Fault Refusal :=
  finish s (s.alu1 1 d.toNat d.toNat (fun x => x + sext64 i))
/-- Short SHLI (R104). -/
def execShliShort (d : BitVec 5) (n : BitVec 6) (s : State) : Host.Outcome State Fault Refusal :=
  finish s (s.alu1 1 d.toNat d.toNat (fun x => x <<< n.toNat))
/-- Short SHRI: arithmetic with x = 1 (R104). -/
def execShriShort (d : BitVec 5) (x : BitVec 1) (n : BitVec 5) (s : State) : Host.Outcome State Fault Refusal :=
  finish s (s.alu1 1 d.toNat d.toNat (fun v => if x = 1 then v.sshiftRight n.toNat else v >>> n.toNat))
/-- LI6 (R104). -/
def execLi6 (d : BitVec 5) (i : BitVec 6) (s : State) : Host.Outcome State Fault Refusal :=
  finish s (s.constant 1 d.toNat (sext64 i))
/-- Short PMOV: pd := pa XOR negate (R113). -/
def execPmov (d : BitVec 3) (n : BitVec 1) (a : BitVec 3) (s : State) : Host.Outcome State Fault Refusal :=
  finish s (s.predOp 1 d.toNat (s.pred a.toNat ^^ (n == 1)))
/-- ADD modulo 2^64 (R105). -/
def execAdd (d a b : BitVec 5) (_u : BitVec 1) (s : State) : Host.Outcome State Fault Refusal :=
  finish s (s.alu2 2 d.toNat a.toNat b.toNat (fun x y => .ok (x + y)))
/-- ADD modulo 2^64 (R105), with a literal as operand b. -/
def execAddLit (d a : BitVec 5) (_u : BitVec 1) (lit : BitVec 32) (s : State) : Host.Outcome State Fault Refusal :=
  finish s (s.aluLit d.toNat a.toNat lit (fun x y => .ok (x + y)))
/-- SUB modulo 2^64 (R105). -/
def execSub (d a b : BitVec 5) (_u : BitVec 1) (s : State) : Host.Outcome State Fault Refusal :=
  finish s (s.alu2 2 d.toNat a.toNat b.toNat (fun x y => .ok (x - y)))
/-- SUB modulo 2^64 (R105), with a literal as operand b. -/
def execSubLit (d a : BitVec 5) (_u : BitVec 1) (lit : BitVec 32) (s : State) : Host.Outcome State Fault Refusal :=
  finish s (s.aluLit d.toNat a.toNat lit (fun x y => .ok (x - y)))
/-- MUL: low half of the product (R105). -/
def execMul (d a b : BitVec 5) (_u : BitVec 1) (s : State) : Host.Outcome State Fault Refusal :=
  finish s (s.alu2 2 d.toNat a.toNat b.toNat (fun x y => .ok (x * y)))
/-- MUL: low half of the product (R105), with a literal as operand b. -/
def execMulLit (d a : BitVec 5) (_u : BitVec 1) (lit : BitVec 32) (s : State) : Host.Outcome State Fault Refusal :=
  finish s (s.aluLit d.toNat a.toNat lit (fun x y => .ok (x * y)))
/-- MULH (R105). -/
def execMulh (d a b : BitVec 5) (_u : BitVec 1) (s : State) : Host.Outcome State Fault Refusal :=
  finish s (s.alu2 2 d.toNat a.toNat b.toNat (fun x y => .ok (mulHigh x y)))
/-- MULH (R105), with a literal as operand b. -/
def execMulhLit (d a : BitVec 5) (_u : BitVec 1) (lit : BitVec 32) (s : State) : Host.Outcome State Fault Refusal :=
  finish s (s.aluLit d.toNat a.toNat lit (fun x y => .ok (mulHigh x y)))
/-- MULHU (R105). -/
def execMulhu (d a b : BitVec 5) (_u : BitVec 1) (s : State) : Host.Outcome State Fault Refusal :=
  finish s (s.alu2 2 d.toNat a.toNat b.toNat (fun x y => .ok (mulHighU x y)))
/-- MULHU (R105), with a literal as operand b. -/
def execMulhuLit (d a : BitVec 5) (_u : BitVec 1) (lit : BitVec 32) (s : State) : Host.Outcome State Fault Refusal :=
  finish s (s.aluLit d.toNat a.toNat lit (fun x y => .ok (mulHighU x y)))
/-- DIV (R42). -/
def execDiv (d a b : BitVec 5) (_u : BitVec 1) (s : State) : Host.Outcome State Fault Refusal :=
  finish s (s.alu2 2 d.toNat a.toNat b.toNat (fun x y => divideBy BitVec.sdiv x y))
/-- DIV (R42), with a literal as operand b. -/
def execDivLit (d a : BitVec 5) (_u : BitVec 1) (lit : BitVec 32) (s : State) : Host.Outcome State Fault Refusal :=
  finish s (s.aluLit d.toNat a.toNat lit (fun x y => divideBy BitVec.sdiv x y))
/-- DIVU (R42). -/
def execDivu (d a b : BitVec 5) (_u : BitVec 1) (s : State) : Host.Outcome State Fault Refusal :=
  finish s (s.alu2 2 d.toNat a.toNat b.toNat (fun x y => divideBy (· / ·) x y))
/-- DIVU (R42), with a literal as operand b. -/
def execDivuLit (d a : BitVec 5) (_u : BitVec 1) (lit : BitVec 32) (s : State) : Host.Outcome State Fault Refusal :=
  finish s (s.aluLit d.toNat a.toNat lit (fun x y => divideBy (· / ·) x y))
/-- REM (R42). -/
def execRem (d a b : BitVec 5) (_u : BitVec 1) (s : State) : Host.Outcome State Fault Refusal :=
  finish s (s.alu2 2 d.toNat a.toNat b.toNat (fun x y => divideBy BitVec.srem x y))
/-- REM (R42), with a literal as operand b. -/
def execRemLit (d a : BitVec 5) (_u : BitVec 1) (lit : BitVec 32) (s : State) : Host.Outcome State Fault Refusal :=
  finish s (s.aluLit d.toNat a.toNat lit (fun x y => divideBy BitVec.srem x y))
/-- REMU (R42). -/
def execRemu (d a b : BitVec 5) (_u : BitVec 1) (s : State) : Host.Outcome State Fault Refusal :=
  finish s (s.alu2 2 d.toNat a.toNat b.toNat (fun x y => divideBy (· % ·) x y))
/-- REMU (R42), with a literal as operand b. -/
def execRemuLit (d a : BitVec 5) (_u : BitVec 1) (lit : BitVec 32) (s : State) : Host.Outcome State Fault Refusal :=
  finish s (s.aluLit d.toNat a.toNat lit (fun x y => divideBy (· % ·) x y))
/-- AND (R105). -/
def execAnd (d a b : BitVec 5) (_u : BitVec 1) (s : State) : Host.Outcome State Fault Refusal :=
  finish s (s.alu2 2 d.toNat a.toNat b.toNat (fun x y => .ok (x &&& y)))
/-- AND (R105), with a literal as operand b. -/
def execAndLit (d a : BitVec 5) (_u : BitVec 1) (lit : BitVec 32) (s : State) : Host.Outcome State Fault Refusal :=
  finish s (s.aluLit d.toNat a.toNat lit (fun x y => .ok (x &&& y)))
/-- OR (R105). -/
def execOr (d a b : BitVec 5) (_u : BitVec 1) (s : State) : Host.Outcome State Fault Refusal :=
  finish s (s.alu2 2 d.toNat a.toNat b.toNat (fun x y => .ok (x ||| y)))
/-- OR (R105), with a literal as operand b. -/
def execOrLit (d a : BitVec 5) (_u : BitVec 1) (lit : BitVec 32) (s : State) : Host.Outcome State Fault Refusal :=
  finish s (s.aluLit d.toNat a.toNat lit (fun x y => .ok (x ||| y)))
/-- XOR (R105). -/
def execXor (d a b : BitVec 5) (_u : BitVec 1) (s : State) : Host.Outcome State Fault Refusal :=
  finish s (s.alu2 2 d.toNat a.toNat b.toNat (fun x y => .ok (x ^^^ y)))
/-- XOR (R105), with a literal as operand b. -/
def execXorLit (d a : BitVec 5) (_u : BitVec 1) (lit : BitVec 32) (s : State) : Host.Outcome State Fault Refusal :=
  finish s (s.aluLit d.toNat a.toNat lit (fun x y => .ok (x ^^^ y)))
/-- ANDN: a AND NOT b (R105). -/
def execAndn (d a b : BitVec 5) (_u : BitVec 1) (s : State) : Host.Outcome State Fault Refusal :=
  finish s (s.alu2 2 d.toNat a.toNat b.toNat (fun x y => .ok (x &&& ~~~y)))
/-- ANDN: a AND NOT b (R105), with a literal as operand b. -/
def execAndnLit (d a : BitVec 5) (_u : BitVec 1) (lit : BitVec 32) (s : State) : Host.Outcome State Fault Refusal :=
  finish s (s.aluLit d.toNat a.toNat lit (fun x y => .ok (x &&& ~~~y)))
/-- SHL by b mod 64 (R105). -/
def execShl (d a b : BitVec 5) (_u : BitVec 1) (s : State) : Host.Outcome State Fault Refusal :=
  finish s (s.alu2 2 d.toNat a.toNat b.toNat (fun x y => .ok (x <<< amount y)))
/-- SHL by b mod 64 (R105), with a literal as operand b. -/
def execShlLit (d a : BitVec 5) (_u : BitVec 1) (lit : BitVec 32) (s : State) : Host.Outcome State Fault Refusal :=
  finish s (s.aluLit d.toNat a.toNat lit (fun x y => .ok (x <<< amount y)))
/-- SHR by b mod 64 (R105). -/
def execShr (d a b : BitVec 5) (_u : BitVec 1) (s : State) : Host.Outcome State Fault Refusal :=
  finish s (s.alu2 2 d.toNat a.toNat b.toNat (fun x y => .ok (x >>> amount y)))
/-- SHR by b mod 64 (R105), with a literal as operand b. -/
def execShrLit (d a : BitVec 5) (_u : BitVec 1) (lit : BitVec 32) (s : State) : Host.Outcome State Fault Refusal :=
  finish s (s.aluLit d.toNat a.toNat lit (fun x y => .ok (x >>> amount y)))
/-- SAR by b mod 64 (R105). -/
def execSar (d a b : BitVec 5) (_u : BitVec 1) (s : State) : Host.Outcome State Fault Refusal :=
  finish s (s.alu2 2 d.toNat a.toNat b.toNat (fun x y => .ok (x.sshiftRight (amount y))))
/-- SAR by b mod 64 (R105), with a literal as operand b. -/
def execSarLit (d a : BitVec 5) (_u : BitVec 1) (lit : BitVec 32) (s : State) : Host.Outcome State Fault Refusal :=
  finish s (s.aluLit d.toNat a.toNat lit (fun x y => .ok (x.sshiftRight (amount y))))
/-- ROT left by b mod 64 (R105). -/
def execRot (d a b : BitVec 5) (_u : BitVec 1) (s : State) : Host.Outcome State Fault Refusal :=
  finish s (s.alu2 2 d.toNat a.toNat b.toNat (fun x y => .ok (x.rotateLeft (amount y))))
/-- ROT left by b mod 64 (R105), with a literal as operand b. -/
def execRotLit (d a : BitVec 5) (_u : BitVec 1) (lit : BitVec 32) (s : State) : Host.Outcome State Fault Refusal :=
  finish s (s.aluLit d.toNat a.toNat lit (fun x y => .ok (x.rotateLeft (amount y))))
/-- MIN, signed (R105). -/
def execMin (d a b : BitVec 5) (_u : BitVec 1) (s : State) : Host.Outcome State Fault Refusal :=
  finish s (s.alu2 2 d.toNat a.toNat b.toNat (fun x y => .ok (if x.slt y then x else y)))
/-- MIN, signed (R105), with a literal as operand b. -/
def execMinLit (d a : BitVec 5) (_u : BitVec 1) (lit : BitVec 32) (s : State) : Host.Outcome State Fault Refusal :=
  finish s (s.aluLit d.toNat a.toNat lit (fun x y => .ok (if x.slt y then x else y)))
/-- MAX, signed (R105). -/
def execMax (d a b : BitVec 5) (_u : BitVec 1) (s : State) : Host.Outcome State Fault Refusal :=
  finish s (s.alu2 2 d.toNat a.toNat b.toNat (fun x y => .ok (if x.slt y then y else x)))
/-- MAX, signed (R105), with a literal as operand b. -/
def execMaxLit (d a : BitVec 5) (_u : BitVec 1) (lit : BitVec 32) (s : State) : Host.Outcome State Fault Refusal :=
  finish s (s.aluLit d.toNat a.toNat lit (fun x y => .ok (if x.slt y then y else x)))
/-- MINU (R105). -/
def execMinu (d a b : BitVec 5) (_u : BitVec 1) (s : State) : Host.Outcome State Fault Refusal :=
  finish s (s.alu2 2 d.toNat a.toNat b.toNat (fun x y => .ok (if x.ult y then x else y)))
/-- MINU (R105), with a literal as operand b. -/
def execMinuLit (d a : BitVec 5) (_u : BitVec 1) (lit : BitVec 32) (s : State) : Host.Outcome State Fault Refusal :=
  finish s (s.aluLit d.toNat a.toNat lit (fun x y => .ok (if x.ult y then x else y)))
/-- MAXU (R105). -/
def execMaxu (d a b : BitVec 5) (_u : BitVec 1) (s : State) : Host.Outcome State Fault Refusal :=
  finish s (s.alu2 2 d.toNat a.toNat b.toNat (fun x y => .ok (if x.ult y then y else x)))
/-- MAXU (R105), with a literal as operand b. -/
def execMaxuLit (d a : BitVec 5) (_u : BitVec 1) (lit : BitVec 32) (s : State) : Host.Outcome State Fault Refusal :=
  finish s (s.aluLit d.toNat a.toNat lit (fun x y => .ok (if x.ult y then y else x)))
/-- SEXT (R106). -/
def execSext (d a b : BitVec 5) (_u : BitVec 1) (s : State) : Host.Outcome State Fault Refusal :=
  finish s (s.alu2 2 d.toNat a.toNat b.toNat (fun x y => .ok (signExt x y)))
/-- SEXT (R106), with a literal as operand b. -/
def execSextLit (d a : BitVec 5) (_u : BitVec 1) (lit : BitVec 32) (s : State) : Host.Outcome State Fault Refusal :=
  finish s (s.aluLit d.toNat a.toNat lit (fun x y => .ok (signExt x y)))
/-- ZEXT (R106). -/
def execZext (d a b : BitVec 5) (_u : BitVec 1) (s : State) : Host.Outcome State Fault Refusal :=
  finish s (s.alu2 2 d.toNat a.toNat b.toNat (fun x y => .ok (zeroExt x y)))
/-- ZEXT (R106), with a literal as operand b. -/
def execZextLit (d a : BitVec 5) (_u : BitVec 1) (lit : BitVec 32) (s : State) : Host.Outcome State Fault Refusal :=
  finish s (s.aluLit d.toNat a.toNat lit (fun x y => .ok (zeroExt x y)))
/-- BFX (R106). -/
def execBfx (d a b : BitVec 5) (_u : BitVec 1) (s : State) : Host.Outcome State Fault Refusal :=
  finish s (s.alu2 2 d.toNat a.toNat b.toNat (fun x y => .ok (extractField x y)))
/-- BFX (R106), with a literal as operand b. -/
def execBfxLit (d a : BitVec 5) (_u : BitVec 1) (lit : BitVec 32) (s : State) : Host.Outcome State Fault Refusal :=
  finish s (s.aluLit d.toNat a.toNat lit (fun x y => .ok (extractField x y)))
/-- SELP by p0 (R105). -/
def execSelp (d a b : BitVec 5) (_u : BitVec 1) (s : State) : Host.Outcome State Fault Refusal :=
  finish s (s.alu2 2 d.toNat a.toNat b.toNat (fun x y => .ok (if s.pred 0 then x else y)))
/-- SELP by p0 (R105), with a literal as operand b. -/
def execSelpLit (d a : BitVec 5) (_u : BitVec 1) (lit : BitVec 32) (s : State) : Host.Outcome State Fault Refusal :=
  finish s (s.aluLit d.toNat a.toNat lit (fun x y => .ok (if s.pred 0 then x else y)))
/-- ADDSAT (R41). -/
def execAddsat (d a b : BitVec 5) (_u : BitVec 1) (s : State) : Host.Outcome State Fault Refusal :=
  finish s (s.alu2 2 d.toNat a.toNat b.toNat (fun x y => .ok (clamp64 (x.toInt + y.toInt))))
/-- ADDSAT (R41), with a literal as operand b. -/
def execAddsatLit (d a : BitVec 5) (_u : BitVec 1) (lit : BitVec 32) (s : State) : Host.Outcome State Fault Refusal :=
  finish s (s.aluLit d.toNat a.toNat lit (fun x y => .ok (clamp64 (x.toInt + y.toInt))))
/-- SUBSAT (R41). -/
def execSubsat (d a b : BitVec 5) (_u : BitVec 1) (s : State) : Host.Outcome State Fault Refusal :=
  finish s (s.alu2 2 d.toNat a.toNat b.toNat (fun x y => .ok (clamp64 (x.toInt - y.toInt))))
/-- SUBSAT (R41), with a literal as operand b. -/
def execSubsatLit (d a : BitVec 5) (_u : BitVec 1) (lit : BitVec 32) (s : State) : Host.Outcome State Fault Refusal :=
  finish s (s.aluLit d.toNat a.toNat lit (fun x y => .ok (clamp64 (x.toInt - y.toInt))))
/-- MADD: d := d + a × b (R105). -/
def execMadd (d a b : BitVec 5) (_u : BitVec 1) (s : State) : Host.Outcome State Fault Refusal :=
  finish s (s.alu3 d.toNat a.toNat b.toNat (fun z x y => z + x * y))
/-- MADD: d := d + a × b (R105), with a literal as operand b. -/
def execMaddLit (d a : BitVec 5) (_u : BitVec 1) (lit : BitVec 32) (s : State) : Host.Outcome State Fault Refusal :=
  finish s (s.alu3Lit d.toNat a.toNat lit (fun z x y => z + x * y))
/-- BFI: inserts into d (R106). -/
def execBfi (d a b : BitVec 5) (_u : BitVec 1) (s : State) : Host.Outcome State Fault Refusal :=
  finish s (s.alu3 d.toNat a.toNat b.toNat (fun z x y => insertField z x y))
/-- BFI: inserts into d (R106), with a literal as operand b. -/
def execBfiLit (d a : BitVec 5) (_u : BitVec 1) (lit : BitVec 32) (s : State) : Host.Outcome State Fault Refusal :=
  finish s (s.alu3Lit d.toNat a.toNat lit (fun z x y => insertField z x y))
/-- CLZ (R105). -/
def execClz (d a : BitVec 5) (_u : BitVec 1) (s : State) : Host.Outcome State Fault Refusal :=
  finish s (s.alu1 2 d.toNat a.toNat leadingZeros)
/-- CTZ (R105). -/
def execCtz (d a : BitVec 5) (_u : BitVec 1) (s : State) : Host.Outcome State Fault Refusal :=
  finish s (s.alu1 2 d.toNat a.toNat trailingZeros)
/-- POPC (R105). -/
def execPopc (d a : BitVec 5) (_u : BitVec 1) (s : State) : Host.Outcome State Fault Refusal :=
  finish s (s.alu1 2 d.toNat a.toNat onesCount)
/-- CMPEQ (R107). -/
def execCmpeq (d a b : BitVec 5) (_u : BitVec 1) (s : State) : Host.Outcome State Fault Refusal :=
  finish s (s.cmp2 d.toNat a.toNat b.toNat (fun x y => x == y))
/-- CMPEQ, against a literal (R107). -/
def execCmpeqLit (d a : BitVec 5) (_u : BitVec 1) (lit : BitVec 32) (s : State) : Host.Outcome State Fault Refusal :=
  finish s (s.cmp1 4 d.toNat a.toNat (sext64 lit) (fun x y => x == y))
/-- CMPNE (R107). -/
def execCmpne (d a b : BitVec 5) (_u : BitVec 1) (s : State) : Host.Outcome State Fault Refusal :=
  finish s (s.cmp2 d.toNat a.toNat b.toNat (fun x y => x != y))
/-- CMPNE, against a literal (R107). -/
def execCmpneLit (d a : BitVec 5) (_u : BitVec 1) (lit : BitVec 32) (s : State) : Host.Outcome State Fault Refusal :=
  finish s (s.cmp1 4 d.toNat a.toNat (sext64 lit) (fun x y => x != y))
/-- CMPLT, signed (R107). -/
def execCmplt (d a b : BitVec 5) (_u : BitVec 1) (s : State) : Host.Outcome State Fault Refusal :=
  finish s (s.cmp2 d.toNat a.toNat b.toNat (fun x y => x.slt y))
/-- CMPLT, signed, against a literal (R107). -/
def execCmpltLit (d a : BitVec 5) (_u : BitVec 1) (lit : BitVec 32) (s : State) : Host.Outcome State Fault Refusal :=
  finish s (s.cmp1 4 d.toNat a.toNat (sext64 lit) (fun x y => x.slt y))
/-- CMPLE, signed (R107). -/
def execCmple (d a b : BitVec 5) (_u : BitVec 1) (s : State) : Host.Outcome State Fault Refusal :=
  finish s (s.cmp2 d.toNat a.toNat b.toNat (fun x y => x.sle y))
/-- CMPLE, signed, against a literal (R107). -/
def execCmpleLit (d a : BitVec 5) (_u : BitVec 1) (lit : BitVec 32) (s : State) : Host.Outcome State Fault Refusal :=
  finish s (s.cmp1 4 d.toNat a.toNat (sext64 lit) (fun x y => x.sle y))
/-- CMPLTU (R107). -/
def execCmpltu (d a b : BitVec 5) (_u : BitVec 1) (s : State) : Host.Outcome State Fault Refusal :=
  finish s (s.cmp2 d.toNat a.toNat b.toNat (fun x y => x.ult y))
/-- CMPLTU, against a literal (R107). -/
def execCmpltuLit (d a : BitVec 5) (_u : BitVec 1) (lit : BitVec 32) (s : State) : Host.Outcome State Fault Refusal :=
  finish s (s.cmp1 4 d.toNat a.toNat (sext64 lit) (fun x y => x.ult y))
/-- CMPLEU (R107). -/
def execCmpleu (d a b : BitVec 5) (_u : BitVec 1) (s : State) : Host.Outcome State Fault Refusal :=
  finish s (s.cmp2 d.toNat a.toNat b.toNat (fun x y => x.ule y))
/-- CMPLEU, against a literal (R107). -/
def execCmpleuLit (d a : BitVec 5) (_u : BitVec 1) (lit : BitVec 32) (s : State) : Host.Outcome State Fault Refusal :=
  finish s (s.cmp1 4 d.toNat a.toNat (sext64 lit) (fun x y => x.ule y))
/-- ADDI (R108). -/
def execAddi (d a : BitVec 5) (i : BitVec 14) (s : State) : Host.Outcome State Fault Refusal :=
  finish s (s.alu1 2 d.toNat a.toNat (fun x => x + sext64 i))
/-- ANDI (R108). -/
def execAndi (d a : BitVec 5) (i : BitVec 14) (s : State) : Host.Outcome State Fault Refusal :=
  finish s (s.alu1 2 d.toNat a.toNat (fun x => x &&& sext64 i))
/-- ORI (R108). -/
def execOri (d a : BitVec 5) (i : BitVec 14) (s : State) : Host.Outcome State Fault Refusal :=
  finish s (s.alu1 2 d.toNat a.toNat (fun x => x ||| sext64 i))
/-- XORI (R108). -/
def execXori (d a : BitVec 5) (i : BitVec 14) (s : State) : Host.Outcome State Fault Refusal :=
  finish s (s.alu1 2 d.toNat a.toNat (fun x => x ^^^ sext64 i))
/-- SHLI (R109). -/
def execShli (d a : BitVec 5) (n : BitVec 6) (s : State) : Host.Outcome State Fault Refusal :=
  finish s (s.alu1 2 d.toNat a.toNat (fun x => x <<< n.toNat))
/-- SHRI (R109). -/
def execShri (d a : BitVec 5) (n : BitVec 6) (s : State) : Host.Outcome State Fault Refusal :=
  finish s (s.alu1 2 d.toNat a.toNat (fun x => x >>> n.toNat))
/-- SARI (R109). -/
def execSari (d a : BitVec 5) (n : BitVec 6) (s : State) : Host.Outcome State Fault Refusal :=
  finish s (s.alu1 2 d.toNat a.toNat (fun x => x.sshiftRight n.toNat))
/-- ROTI (R109). -/
def execRoti (d a : BitVec 5) (n : BitVec 6) (s : State) : Host.Outcome State Fault Refusal :=
  finish s (s.alu1 2 d.toNat a.toNat (fun x => x.rotateLeft n.toNat))
/-- The relations of CMPI (R110): LTU and LEU compare unsigned, the others signed. -/
def immRelation (r : BitVec 3) (x y : Word) : Bool :=
  match r.toNat with
  | 0 => x == y
  | 1 => x != y
  | 2 => x.slt y
  | 3 => x.sle y
  | 4 => x.ult y
  | 5 => x.ule y
  | 6 => y.slt x
  | _ => y.sle x
/-- CMPI (R110). -/
def execCmpi (d a : BitVec 5) (r : BitVec 3) (c : BitVec 11) (s : State) : Host.Outcome State Fault Refusal :=
  finish s (s.cmp1 2 d.toNat a.toNat (sext64 c) (immRelation r))
/-- LIT (R111). -/
def execLit (d : BitVec 5) (lit : BitVec 32) (s : State) : Host.Outcome State Fault Refusal :=
  finish s (s.constant 4 d.toNat (sext64 lit))
/-- LITH: replaces the high half of d and keeps its taint set (R103, R111). -/
def execLith (d : BitVec 5) (lit : BitVec 32) (s : State) : Host.Outcome State Fault Refusal :=
  finish s (s.alu1 4 d.toNat d.toNat (fun x => lit ++ x.extractLsb' 0 32))
/-- PAND (R112). -/
def execPand (d a b : BitVec 3) (_u : BitVec 1) (s : State) : Host.Outcome State Fault Refusal :=
  finish s (s.predOp 2 d.toNat (s.pred a.toNat && s.pred b.toNat))
/-- PAND with bit 0 of the literal as operand b (R112). -/
def execPandLit (d a : BitVec 3) (_u : BitVec 1) (lit : BitVec 32) (s : State) : Host.Outcome State Fault Refusal :=
  finish s (s.predOp 4 d.toNat (s.pred a.toNat && lit.getLsbD 0))
/-- POR (R112). -/
def execPor (d a b : BitVec 3) (_u : BitVec 1) (s : State) : Host.Outcome State Fault Refusal :=
  finish s (s.predOp 2 d.toNat (s.pred a.toNat || s.pred b.toNat))
/-- POR with bit 0 of the literal as operand b (R112). -/
def execPorLit (d a : BitVec 3) (_u : BitVec 1) (lit : BitVec 32) (s : State) : Host.Outcome State Fault Refusal :=
  finish s (s.predOp 4 d.toNat (s.pred a.toNat || lit.getLsbD 0))
/-- PXOR (R112). -/
def execPxor (d a b : BitVec 3) (_u : BitVec 1) (s : State) : Host.Outcome State Fault Refusal :=
  finish s (s.predOp 2 d.toNat (s.pred a.toNat ^^ s.pred b.toNat))
/-- PXOR with bit 0 of the literal as operand b (R112). -/
def execPxorLit (d a : BitVec 3) (_u : BitVec 1) (lit : BitVec 32) (s : State) : Host.Outcome State Fault Refusal :=
  finish s (s.predOp 4 d.toNat (s.pred a.toNat ^^ lit.getLsbD 0))
/-- PNOT (R112). -/
def execPnot (d a : BitVec 3) (_u : BitVec 1) (s : State) : Host.Outcome State Fault Refusal :=
  finish s (s.predOp 2 d.toNat (!s.pred a.toNat))
/-- PSET (R112). -/
def execPset (d : BitVec 3) (v _u : BitVec 1) (s : State) : Host.Outcome State Fault Refusal :=
  finish s (s.predOp 2 d.toNat (v == 1))

end Sys2Proof.Machine
end

