-- ==== Sys2Proof/Machine/Dispatch.lean ====
section
/-!
DEFINITION. One arm per instruction, each a call of its meaning.
-/
namespace Sys2Proof.Machine

def exec (i : Instr) (s : State) : Host.Outcome State Fault Refusal :=
  match i with
  | .hdr r l => Sys2Proof.Machine.execHdr r l s
  | .nop => Sys2Proof.Machine.execNop s
  | .mov d a => Sys2Proof.Machine.execMov d a s
  | .addShort d a => Sys2Proof.Machine.execAddShort d a s
  | .subShort d a => Sys2Proof.Machine.execSubShort d a s
  | .andShort d a => Sys2Proof.Machine.execAndShort d a s
  | .orShort d a => Sys2Proof.Machine.execOrShort d a s
  | .xorShort d a => Sys2Proof.Machine.execXorShort d a s
  | .addi6 d imm => Sys2Proof.Machine.execAddi6 d imm s
  | .shliShort d n => Sys2Proof.Machine.execShliShort d n s
  | .shriShort d x n => Sys2Proof.Machine.execShriShort d x n s
  | .li6 d imm => Sys2Proof.Machine.execLi6 d imm s
  | .tclr d x => Sys2Proof.Machine.execTclr d x s
  | .adv n x w => Sys2Proof.Machine.execAdv n x w s
  | .tks n q => Sys2Proof.Machine.execTks n q s
  | .tkw n q => Sys2Proof.Machine.execTkw n q s
  | .arr b => Sys2Proof.Machine.execArr b s
  | .rep v x b a d n => Sys2Proof.Machine.execRep v x b a d n s
  | .pmov d n a => Sys2Proof.Machine.execPmov d n a s
  | .ret => Sys2Proof.Machine.execRet s
  | .br16 d => Sys2Proof.Machine.execBr16 d s
  | .endStream => Sys2Proof.Machine.execEndStream s
  | .qpt => Sys2Proof.Machine.execQpt s
  | .spl d v => Sys2Proof.Machine.execSpl d v s
  | .fil d v => Sys2Proof.Machine.execFil d v s
  | .add d a b u => Sys2Proof.Machine.execAdd d a b u s
  | .sub d a b u => Sys2Proof.Machine.execSub d a b u s
  | .mul d a b u => Sys2Proof.Machine.execMul d a b u s
  | .mulh d a b u => Sys2Proof.Machine.execMulh d a b u s
  | .mulhu d a b u => Sys2Proof.Machine.execMulhu d a b u s
  | .div d a b u => Sys2Proof.Machine.execDiv d a b u s
  | .divu d a b u => Sys2Proof.Machine.execDivu d a b u s
  | .rem d a b u => Sys2Proof.Machine.execRem d a b u s
  | .remu d a b u => Sys2Proof.Machine.execRemu d a b u s
  | .and d a b u => Sys2Proof.Machine.execAnd d a b u s
  | .or d a b u => Sys2Proof.Machine.execOr d a b u s
  | .xor d a b u => Sys2Proof.Machine.execXor d a b u s
  | .andn d a b u => Sys2Proof.Machine.execAndn d a b u s
  | .shl d a b u => Sys2Proof.Machine.execShl d a b u s
  | .shr d a b u => Sys2Proof.Machine.execShr d a b u s
  | .sar d a b u => Sys2Proof.Machine.execSar d a b u s
  | .rot d a b u => Sys2Proof.Machine.execRot d a b u s
  | .min d a b u => Sys2Proof.Machine.execMin d a b u s
  | .max d a b u => Sys2Proof.Machine.execMax d a b u s
  | .minu d a b u => Sys2Proof.Machine.execMinu d a b u s
  | .maxu d a b u => Sys2Proof.Machine.execMaxu d a b u s
  | .clz d a u => Sys2Proof.Machine.execClz d a u s
  | .ctz d a u => Sys2Proof.Machine.execCtz d a u s
  | .popc d a u => Sys2Proof.Machine.execPopc d a u s
  | .sext d a b u => Sys2Proof.Machine.execSext d a b u s
  | .zext d a b u => Sys2Proof.Machine.execZext d a b u s
  | .bfx d a b u => Sys2Proof.Machine.execBfx d a b u s
  | .bfi d a b u => Sys2Proof.Machine.execBfi d a b u s
  | .selp d a b u => Sys2Proof.Machine.execSelp d a b u s
  | .addsat d a b u => Sys2Proof.Machine.execAddsat d a b u s
  | .subsat d a b u => Sys2Proof.Machine.execSubsat d a b u s
  | .madd d a b u => Sys2Proof.Machine.execMadd d a b u s
  | .cmpeq d a b u => Sys2Proof.Machine.execCmpeq d a b u s
  | .cmpne d a b u => Sys2Proof.Machine.execCmpne d a b u s
  | .cmplt d a b u => Sys2Proof.Machine.execCmplt d a b u s
  | .cmple d a b u => Sys2Proof.Machine.execCmple d a b u s
  | .cmpltu d a b u => Sys2Proof.Machine.execCmpltu d a b u s
  | .cmpleu d a b u => Sys2Proof.Machine.execCmpleu d a b u s
  | .addLit d a u lit => Sys2Proof.Machine.execAddLit d a u lit s
  | .subLit d a u lit => Sys2Proof.Machine.execSubLit d a u lit s
  | .mulLit d a u lit => Sys2Proof.Machine.execMulLit d a u lit s
  | .mulhLit d a u lit => Sys2Proof.Machine.execMulhLit d a u lit s
  | .mulhuLit d a u lit => Sys2Proof.Machine.execMulhuLit d a u lit s
  | .divLit d a u lit => Sys2Proof.Machine.execDivLit d a u lit s
  | .divuLit d a u lit => Sys2Proof.Machine.execDivuLit d a u lit s
  | .remLit d a u lit => Sys2Proof.Machine.execRemLit d a u lit s
  | .remuLit d a u lit => Sys2Proof.Machine.execRemuLit d a u lit s
  | .andLit d a u lit => Sys2Proof.Machine.execAndLit d a u lit s
  | .orLit d a u lit => Sys2Proof.Machine.execOrLit d a u lit s
  | .xorLit d a u lit => Sys2Proof.Machine.execXorLit d a u lit s
  | .andnLit d a u lit => Sys2Proof.Machine.execAndnLit d a u lit s
  | .shlLit d a u lit => Sys2Proof.Machine.execShlLit d a u lit s
  | .shrLit d a u lit => Sys2Proof.Machine.execShrLit d a u lit s
  | .sarLit d a u lit => Sys2Proof.Machine.execSarLit d a u lit s
  | .rotLit d a u lit => Sys2Proof.Machine.execRotLit d a u lit s
  | .minLit d a u lit => Sys2Proof.Machine.execMinLit d a u lit s
  | .maxLit d a u lit => Sys2Proof.Machine.execMaxLit d a u lit s
  | .minuLit d a u lit => Sys2Proof.Machine.execMinuLit d a u lit s
  | .maxuLit d a u lit => Sys2Proof.Machine.execMaxuLit d a u lit s
  | .sextLit d a u lit => Sys2Proof.Machine.execSextLit d a u lit s
  | .zextLit d a u lit => Sys2Proof.Machine.execZextLit d a u lit s
  | .bfxLit d a u lit => Sys2Proof.Machine.execBfxLit d a u lit s
  | .bfiLit d a u lit => Sys2Proof.Machine.execBfiLit d a u lit s
  | .selpLit d a u lit => Sys2Proof.Machine.execSelpLit d a u lit s
  | .addsatLit d a u lit => Sys2Proof.Machine.execAddsatLit d a u lit s
  | .subsatLit d a u lit => Sys2Proof.Machine.execSubsatLit d a u lit s
  | .maddLit d a u lit => Sys2Proof.Machine.execMaddLit d a u lit s
  | .cmpeqLit d a u lit => Sys2Proof.Machine.execCmpeqLit d a u lit s
  | .cmpneLit d a u lit => Sys2Proof.Machine.execCmpneLit d a u lit s
  | .cmpltLit d a u lit => Sys2Proof.Machine.execCmpltLit d a u lit s
  | .cmpleLit d a u lit => Sys2Proof.Machine.execCmpleLit d a u lit s
  | .cmpltuLit d a u lit => Sys2Proof.Machine.execCmpltuLit d a u lit s
  | .cmpleuLit d a u lit => Sys2Proof.Machine.execCmpleuLit d a u lit s
  | .addi d a imm => Sys2Proof.Machine.execAddi d a imm s
  | .andi d a imm => Sys2Proof.Machine.execAndi d a imm s
  | .ori d a imm => Sys2Proof.Machine.execOri d a imm s
  | .xori d a imm => Sys2Proof.Machine.execXori d a imm s
  | .shli d a n => Sys2Proof.Machine.execShli d a n s
  | .shri d a n => Sys2Proof.Machine.execShri d a n s
  | .sari d a n => Sys2Proof.Machine.execSari d a n s
  | .roti d a n => Sys2Proof.Machine.execRoti d a n s
  | .cmpi d a r c => Sys2Proof.Machine.execCmpi d a r c s
  | .lit d lit => Sys2Proof.Machine.execLit d lit s
  | .lith d lit => Sys2Proof.Machine.execLith d lit s
  | .pand d a b u => Sys2Proof.Machine.execPand d a b u s
  | .por d a b u => Sys2Proof.Machine.execPor d a b u s
  | .pxor d a b u => Sys2Proof.Machine.execPxor d a b u s
  | .pnot d a u => Sys2Proof.Machine.execPnot d a u s
  | .pset d v u => Sys2Proof.Machine.execPset d v u s
  | .pandLit d a u lit => Sys2Proof.Machine.execPandLit d a u lit s
  | .porLit d a u lit => Sys2Proof.Machine.execPorLit d a u lit s
  | .pxorLit d a u lit => Sys2Proof.Machine.execPxorLit d a u lit s
  | .pb c n p => Sys2Proof.Machine.execPb c n p s
  | .brc a c d => Sys2Proof.Machine.execBrc a c d s
  | .br d => Sys2Proof.Machine.execBr d s
  | .call d => Sys2Proof.Machine.execCall d s
  | .jr a u => Sys2Proof.Machine.execJr a u s
  | .jrLit a u lit => Sys2Proof.Machine.execJrLit a u lit s
  | .jalr d a u => Sys2Proof.Machine.execJalr d a u s
  | .jalrLit d a u lit => Sys2Proof.Machine.execJalrLit d a u lit s
  | .retL u => Sys2Proof.Machine.execRetL u s
  | .retLLit u lit => Sys2Proof.Machine.execRetLLit u lit s
  | .loop a d => Sys2Proof.Machine.execLoop a d s
  | .tksL q a n => Sys2Proof.Machine.execTksL q a n s
  | .tkwL q a n => Sys2Proof.Machine.execTkwL q a n s
  | .bjoin b => Sys2Proof.Machine.execBjoin b s
  | .bleave b => Sys2Proof.Machine.execBleave b s
  | .barr b => Sys2Proof.Machine.execBarr b s
  | .barn d b => Sys2Proof.Machine.execBarn d b s
  | .bwait a b => Sys2Proof.Machine.execBwait a b s
  | .bcnt d b => Sys2Proof.Machine.execBcnt d b s
  | .sstep => Sys2Proof.Machine.execSstep s
  | .ssync => Sys2Proof.Machine.execSsync s
  | .sphase d => Sys2Proof.Machine.execSphase d s
  | .winit w a => Sys2Proof.Machine.execWinit w a s
  | .wwaitf w a n => Sys2Proof.Machine.execWwaitf w a n s
  | .wwaite w a n => Sys2Proof.Machine.execWwaite w a n s
  | .wadvp w a n => Sys2Proof.Machine.execWadvp w a n s
  | .wadvc w a n => Sys2Proof.Machine.execWadvc w a n s
  | .wstat d w => Sys2Proof.Machine.execWstat d w s
  | .ld d h a z o v q => Sys2Proof.Machine.execLd d h a z o v q s
  | .ldLit d h a z o v q lit => Sys2Proof.Machine.execLdLit d h a z o v q lit s
  | .st d h a z o v => Sys2Proof.Machine.execSt d h a z o v s
  | .stLit d h a z o v lit => Sys2Proof.Machine.execStLit d h a z o v lit s
  | .aadd d h a v w => Sys2Proof.Machine.execAadd d h a v w s
  | .aand d h a v w => Sys2Proof.Machine.execAand d h a v w s
  | .aor d h a v w => Sys2Proof.Machine.execAor d h a v w s
  | .axor d h a v w => Sys2Proof.Machine.execAxor d h a v w s
  | .amin d h a v w => Sys2Proof.Machine.execAmin d h a v w s
  | .amax d h a v w => Sys2Proof.Machine.execAmax d h a v w s
  | .aminu d h a v w => Sys2Proof.Machine.execAminu d h a v w s
  | .amaxu d h a v w => Sys2Proof.Machine.execAmaxu d h a v w s
  | .aswp d h a v w => Sys2Proof.Machine.execAswp d h a v w s
  | .acas d h a v w => Sys2Proof.Machine.execAcas d h a v w s
  | .sigadd d a h => Sys2Proof.Machine.execSigadd d a h s
  | .sigwait d a t r h => Sys2Proof.Machine.execSigwait d a t r h s
  | .fence k v => Sys2Proof.Machine.execFence k v s
  | .align k => Sys2Proof.Machine.execAlign k s
  | .tclrL d x => Sys2Proof.Machine.execTclrL d x s
  | .qptL => Sys2Proof.Machine.execQptL s
  | .pref h a z => Sys2Proof.Machine.execPref h a z s
  | .prefLit h a z lit => Sys2Proof.Machine.execPrefLit h a z lit s
  | .cpy hd hs y a lit => Sys2Proof.Machine.execCpy hd hs y a lit s
  | .cpyin hd hs y a lit => Sys2Proof.Machine.execCpyin hd hs y a lit s
  | .cpyout hd hs y a lit => Sys2Proof.Machine.execCpyout hd hs y a lit s
  | .cpyz hd y a lit => Sys2Proof.Machine.execCpyz hd y a lit s
  | .cpycv hd hs y a lit => Sys2Proof.Machine.execCpycv hd hs y a lit s
  | .gather hd hs y a lit => Sys2Proof.Machine.execGather hd hs y a lit s
  | .scatter hd hs y a lit => Sys2Proof.Machine.execScatter hd hs y a lit s
  | .cesh a f imm y => Sys2Proof.Machine.execCesh a f imm y s
  | .cwait a n => Sys2Proof.Machine.execCwait a n s
  | .ccnt d => Sys2Proof.Machine.execCcnt d s
  | .cstat d => Sys2Proof.Machine.execCstat d s
  | .cstatIssued d => Sys2Proof.Machine.execCstatIssued d s
  | .hreq a t => Sys2Proof.Machine.execHreq a t s
  | .hwait h a t => Sys2Proof.Machine.execHwait h a t s
  | .hmov d a => Sys2Proof.Machine.execHmov d a s
  | .hclr d => Sys2Proof.Machine.execHclr d s
  | .hld d a m => Sys2Proof.Machine.execHld d a m s
  | .hst d a m => Sys2Proof.Machine.execHst d a m s
  | .hchk d a m => Sys2Proof.Machine.execHchk d a m s
  | .hget d a v => Sys2Proof.Machine.execHget d a v s
  | .hrevk d a => Sys2Proof.Machine.execHrevk d a s
  | .hrevkAll d => Sys2Proof.Machine.execHrevkAll d s
  | .krot d => Sys2Proof.Machine.execKrot d s
  | .kstat d v => Sys2Proof.Machine.execKstat d v s
  | .trap n => Sys2Proof.Machine.execTrap n s
  | .gets a r => Sys2Proof.Machine.execGets a r s
  | .sets a r => Sys2Proof.Machine.execSets a r s
  | .yield a => Sys2Proof.Machine.execYield a s
  | .clk a c => Sys2Proof.Machine.execClk a c s
  | .enrg a l q => Sys2Proof.Machine.execEnrg a l q s
  | .nopl => Sys2Proof.Machine.execNopl s
  | .launch d a h => Sys2Proof.Machine.execLaunch d a h s
  | .qstat d a => Sys2Proof.Machine.execQstat d a s
  | .save d h c => Sys2Proof.Machine.execSave d h c s
  | .coll d a e l y x lit => Sys2Proof.Machine.execColl d a e l y x lit s
  | .collw d a => Sys2Proof.Machine.execCollw d a s
  | .collwCancel d a => Sys2Proof.Machine.execCollwCancel d a s
  | .plwait a n => Sys2Proof.Machine.execPlwait a n s
  | .plcnt d a => Sys2Proof.Machine.execPlcnt d a s
  | .plcut a n => Sys2Proof.Machine.execPlcut a n s
  | .apst d a h => Sys2Proof.Machine.execApst d a h s
  | .apld d a h => Sys2Proof.Machine.execApld d a h s
  | .rslotReserve d a t => Sys2Proof.Machine.execRslotReserve d a t s
  | .rslotRelease d a => Sys2Proof.Machine.execRslotRelease d a s
  | .layx a x => Sys2Proof.Machine.execLayx a x s
  | .mxset a r => Sys2Proof.Machine.execMxset a r s
  | .mxget a r => Sys2Proof.Machine.execMxget a r s
  | .mxgo => Sys2Proof.Machine.execMxgo s
  | .mxwait => Sys2Proof.Machine.execMxwait s
  | .mxprog a => Sys2Proof.Machine.execMxprog a s
  | .mxabort => Sys2Proof.Machine.execMxabort s
  | .wld => Sys2Proof.Machine.execWld s
  | .kset k a => Sys2Proof.Machine.execKset k a s
  | .kgen k a n => Sys2Proof.Machine.execKgen k a n s
  | .vadd t d a b => Sys2Proof.Machine.execVadd t d a b s
  | .vsub t d a b => Sys2Proof.Machine.execVsub t d a b s
  | .vmul t d a b => Sys2Proof.Machine.execVmul t d a b s
  | .vfma t d a b => Sys2Proof.Machine.execVfma t d a b s
  | .vfms t d a b => Sys2Proof.Machine.execVfms t d a b s
  | .vmin t d a b => Sys2Proof.Machine.execVmin t d a b s
  | .vmax t d a b => Sys2Proof.Machine.execVmax t d a b s
  | .vcpys t d a b => Sys2Proof.Machine.execVcpys t d a b s
  | .vadds t d a v => Sys2Proof.Machine.execVadds t d a v s
  | .vmuls t d a v => Sys2Proof.Machine.execVmuls t d a v s
  | .vfmas t d a v => Sys2Proof.Machine.execVfmas t d a v s
  | .vmaxs t d a v => Sys2Proof.Machine.execVmaxs t d a v s
  | .vmins t d a v => Sys2Proof.Machine.execVmins t d a v s
  | .vsubs t d a v => Sys2Proof.Machine.execVsubs t d a v s
  | .viadd t d a b => Sys2Proof.Machine.execViadd t d a b s
  | .visub t d a b => Sys2Proof.Machine.execVisub t d a b s
  | .vimul t d a b => Sys2Proof.Machine.execVimul t d a b s
  | .vimac t d a b => Sys2Proof.Machine.execVimac t d a b s
  | .vand t d a b => Sys2Proof.Machine.execVand t d a b s
  | .vor t d a b => Sys2Proof.Machine.execVor t d a b s
  | .vxor t d a b => Sys2Proof.Machine.execVxor t d a b s
  | .vshl t d a b => Sys2Proof.Machine.execVshl t d a b s
  | .vshr t d a b => Sys2Proof.Machine.execVshr t d a b s
  | .vsar t d a b => Sys2Proof.Machine.execVsar t d a b s
  | .vimin t d a b => Sys2Proof.Machine.execVimin t d a b s
  | .vimax t d a b => Sys2Proof.Machine.execVimax t d a b s
  | .vceq t m a b => Sys2Proof.Machine.execVceq t m a b s
  | .vcne t m a b => Sys2Proof.Machine.execVcne t m a b s
  | .vclt t m a b => Sys2Proof.Machine.execVclt t m a b s
  | .vcle t m a b => Sys2Proof.Machine.execVcle t m a b s
  | .vsel t d a b => Sys2Proof.Machine.execVsel t d a b s
  | .vmnot => Sys2Proof.Machine.execVmnot s
  | .vmpop t v => Sys2Proof.Machine.execVmpop t v s
  | .vexp2 t d a => Sys2Proof.Machine.execVexp2 t d a s
  | .vlog2 t d a => Sys2Proof.Machine.execVlog2 t d a s
  | .vrcpa t d a => Sys2Proof.Machine.execVrcpa t d a s
  | .vrsqa t d a => Sys2Proof.Machine.execVrsqa t d a s
  | .vrcpr t d a b => Sys2Proof.Machine.execVrcpr t d a b s
  | .vrsqr t d a b => Sys2Proof.Machine.execVrsqr t d a b s
  | .vflr t d a => Sys2Proof.Machine.execVflr t d a s
  | .vrnd t d a => Sys2Proof.Machine.execVrnd t d a s
  | .vfrc t d a => Sys2Proof.Machine.execVfrc t d a s
  | .vrsum t d a => Sys2Proof.Machine.execVrsum t d a s
  | .vrmax t d a => Sys2Proof.Machine.execVrmax t d a s
  | .vrmin t d a => Sys2Proof.Machine.execVrmin t d a s
  | .vwelf t d a => Sys2Proof.Machine.execVwelf t d a s
  | .vwmrg t d a => Sys2Proof.Machine.execVwmrg t d a s
  | .vshf t d a b => Sys2Proof.Machine.execVshf t d a b s
  | .vrot t d a v => Sys2Proof.Machine.execVrot t d a v s
  | .vbcst t d a v => Sys2Proof.Machine.execVbcst t d a v s
  | .vcvt t d a p v => Sys2Proof.Machine.execVcvt t d a p v s
  | .vkenc t d a h f => Sys2Proof.Machine.execVkenc t d a h f s
  | .vkdec t d a h f => Sys2Proof.Machine.execVkdec t d a h f s
  | .vpldec t d v m => Sys2Proof.Machine.execVpldec t d v m s
  | .vld t d h v => Sys2Proof.Machine.execVld t d h v s
  | .vst t d h v => Sys2Proof.Machine.execVst t d h v s
  | .vldc t d h v => Sys2Proof.Machine.execVldc t d h v s
  | .vstc t d h v => Sys2Proof.Machine.execVstc t d h v s
  | .aclr t d c => Sys2Proof.Machine.execAclr t d c s
  | .afmt t y => Sys2Proof.Machine.execAfmt t y s
  | .amov t d a v => Sys2Proof.Machine.execAmov t d a v s
  | .axpose t => Sys2Proof.Machine.execAxpose t s
  | .await t => Sys2Proof.Machine.execAwait t s
  | .loadValueDelivery core id => Sys2Proof.Machine.execLoadValueDelivery core id s
  | .loadPerformed core id => Sys2Proof.Machine.execLoadPerformed core id s
  | .copyCompletion core id => Sys2Proof.Machine.execCopyCompletion core id s
  | .cpyinVerify core id => Sys2Proof.Machine.execCpyinVerify core id s
  | .meOperationStart core => Sys2Proof.Machine.execMeOperationStart core s
  | .meRowStep core => Sys2Proof.Machine.execMeRowStep core s
  | .weightBlockFill core => Sys2Proof.Machine.execWeightBlockFill core s
  | .meBroadcastRendezvous core => Sys2Proof.Machine.execMeBroadcastRendezvous core s
  | .mintAnswer core tag => Sys2Proof.Machine.execMintAnswer core tag s
  | .revocationSweep tenant => Sys2Proof.Machine.execRevocationSweep tenant s
  | .rotationPageConvert slice => Sys2Proof.Machine.execRotationPageConvert slice s
  | .bankRowRekey core => Sys2Proof.Machine.execBankRowRekey core s
  | .zeroWalkRow core => Sys2Proof.Machine.execZeroWalkRow core s
  | .hbmScrubPage page => Sys2Proof.Machine.execHbmScrubPage page s
  | .persistentCommit idx good => Sys2Proof.Machine.execPersistentCommit idx good s
  | .invalidation core => Sys2Proof.Machine.execInvalidation core s
  | .secondStageFaultService id resolved writes owners => Sys2Proof.Machine.execSecondStageFaultService id resolved writes owners s
  | .qtailWrite tdi q value => Sys2Proof.Machine.execQtailWrite tdi q value s
  | .qstateOvfClear tdi q => Sys2Proof.Machine.execQstateOvfClear tdi q s
  | .qctlReset tdi q => Sys2Proof.Machine.execQctlReset tdi q s
  | .queueResetComplete tdi q => Sys2Proof.Machine.execQueueResetComplete tdi q s
  | .fresRetry tdi id => Sys2Proof.Machine.execFresRetry tdi id s
  | .fresEndTask tdi id => Sys2Proof.Machine.execFresEndTask tdi id s
  | .registerWrite tdi off value => Sys2Proof.Machine.execRegisterWrite tdi off value s
  | .candidateCheck tenant q => Sys2Proof.Machine.execCandidateCheck tenant q s
  | .waitListEvaluation tenant q => Sys2Proof.Machine.execWaitListEvaluation tenant q s
  | .rangeMigration tenant q frames writes owners => Sys2Proof.Machine.execRangeMigration tenant q frames writes owners s
  | .startBarrierArrival tenant q idx rank gen => Sys2Proof.Machine.execStartBarrierArrival tenant q idx rank gen s
  | .replicaCompletion tenant q idx rank status cause task => Sys2Proof.Machine.execReplicaCompletion tenant q idx rank status cause task s
  | .coreClaim tenant q idx => Sys2Proof.Machine.execCoreClaim tenant q idx s
  | .taskDispatch part => Sys2Proof.Machine.execTaskDispatch part s
  | .taskEnd core => Sys2Proof.Machine.execTaskEnd core s
  | .tokenBorrow part tenant => Sys2Proof.Machine.execTokenBorrow part tenant s
  | .arbitrationPeriod part => Sys2Proof.Machine.execArbitrationPeriod part s
  | .powerCapTick part watts => Sys2Proof.Machine.execPowerCapTick part watts s
  | .moduleLimiterTick watts10us watts1s => Sys2Proof.Machine.execModuleLimiterTick watts10us watts1s s
  | .thermalLevelTick die degrees => Sys2Proof.Machine.execThermalLevelTick die degrees s
  | .thermalTrip => Sys2Proof.Machine.execThermalTrip s
  | .supplyDroop die => Sys2Proof.Machine.execSupplyDroop die s
  | .deadlockWatchdog gang => Sys2Proof.Machine.execDeadlockWatchdog gang s
  | .quiescentPointWatchdog core => Sys2Proof.Machine.execQuiescentPointWatchdog core s
  | .drainWatchdog ctx => Sys2Proof.Machine.execDrainWatchdog ctx s
  | .podStartTimeout tenant q idx => Sys2Proof.Machine.execPodStartTimeout tenant q idx s
  | .sliceEndPreemption ctx => Sys2Proof.Machine.execSliceEndPreemption ctx s
  | .drainComplete ctx => Sys2Proof.Machine.execDrainComplete ctx s
  | .hardStop core persist handles => Sys2Proof.Machine.execHardStop core persist handles s
  | .migration part handles => Sys2Proof.Machine.execMigration part handles s
  | .sliceMove part slice target => Sys2Proof.Machine.execSliceMove part slice target s
  | .legacySliceCopy part slice target => Sys2Proof.Machine.execLegacySliceCopy part slice target s
  | .dirtyBitmapRead part word => Sys2Proof.Machine.execDirtyBitmapRead part word s
  | .queueConfigure cfg => Sys2Proof.Machine.execQueueConfigure cfg s
  | .setBudget part tenant tokens => Sys2Proof.Machine.execSetBudget part tenant tokens s
  | .setPowerCap caps => Sys2Proof.Machine.execSetPowerCap caps s
  | .setSlotQuota quotas => Sys2Proof.Machine.execSetSlotQuota quotas s
  | .setCisternShare part stack units => Sys2Proof.Machine.execSetCisternShare part stack units s
  | .bind w tenant pol => Sys2Proof.Machine.execBind w tenant pol s
  | .policy w tenant pol => Sys2Proof.Machine.execPolicy w tenant pol s
  | .unbind r => Sys2Proof.Machine.execUnbind r s
  | .mint r ctx base len rights fmt flags => Sys2Proof.Machine.execMint r ctx base len rights fmt flags s
  | .revoke r serial all => Sys2Proof.Machine.execRevoke r serial all s
  | .rotate r => Sys2Proof.Machine.execRotate r s
  | .streamOpen r stream outward key last => Sys2Proof.Machine.execStreamOpen r stream outward key last s
  | .streamClose r stream => Sys2Proof.Machine.execStreamClose r stream s
  | .counterBind r ctx task => Sys2Proof.Machine.execCounterBind r ctx task s
  | .counterRead r => Sys2Proof.Machine.execCounterRead r s
  | .restore r => Sys2Proof.Machine.execRestore r s
  | .fuseAdvance r version signed cut => Sys2Proof.Machine.execFuseAdvance r version signed cut s
  | .lifeRead => Sys2Proof.Machine.execLifeRead s
  | .lifetimeSave => Sys2Proof.Machine.execLifetimeSave s
  | .patrolScrub line errs => Sys2Proof.Machine.execPatrolScrub line errs s
  | .coldReset => Sys2Proof.Machine.execColdReset s
  | .warmReset => Sys2Proof.Machine.execWarmReset s
  | .powerLoss => Sys2Proof.Machine.execPowerLoss s
  | .flr tdi => Sys2Proof.Machine.execFlr tdi s
  | .tdiError tdi => Sys2Proof.Machine.execTdiError tdi s
  | .frameReceive port frame tag core id result => Sys2Proof.Machine.execFrameReceive port frame tag core id result s
  | .linkOpen port authentic peer peerPort => Sys2Proof.Machine.execLinkOpen port authentic peer peerPort s
  | .linkKeyRetire part => Sys2Proof.Machine.execLinkKeyRetire part s
  | .collectiveRendezvous core id members reachable => Sys2Proof.Machine.execCollectiveRendezvous core id members reachable s
  | .planeLanding core id tile peers => Sys2Proof.Machine.execPlaneLanding core id tile peers s
  | .collectiveCompletion core id status peers => Sys2Proof.Machine.execCollectiveCompletion core id status peers s
  | .apertureRoundComplete core slot word others => Sys2Proof.Machine.execApertureRoundComplete core slot word others s
  | .storePerformed core id => Sys2Proof.Machine.execStorePerformed core id s
  | .copyTranslationFault core id elem coll => Sys2Proof.Machine.execCopyTranslationFault core id elem coll s
  | .hostAccess tdi addr len write data => Sys2Proof.Machine.execHostAccess tdi addr len write data s
  | .partitionCreate cfg => Sys2Proof.Machine.execPartitionCreate cfg s
  | .tdispMessage tdi target => Sys2Proof.Machine.execTdispMessage tdi target s
  | .spdmMessage m => Sys2Proof.Machine.execSpdmMessage m s
  | .contextResume ctx => Sys2Proof.Machine.execContextResume ctx s
  | .sliceMovePage part slice => Sys2Proof.Machine.execSliceMovePage part slice s
  | .linkKeyUpdate part port => Sys2Proof.Machine.execLinkKeyUpdate part port s
  | .junctionTemperatureSample degrees => Sys2Proof.Machine.execJunctionTemperatureSample degrees s

end Sys2Proof.Machine
end

