-- ==== Sys2Proof/Machine/Step.lean ====
section
/-!
DEFINITION. One step of the module: the next turn is taken, and the agent that it names makes its move. Instr has more
constructors than Lean's runtime has tags for, so what decodes is noncomputable: no code is emitted for it, and the
kernel evaluates it.
-/
namespace Sys2Proof.Machine

/-- The issuing sequencer issues its next unit: a late cause is raised at the boundary (R15, R123), a unit that PB
guards off passes (R83), an instruction runs, unless the core's die or partition holds it back in this cycle (R276, R368). A
sequencer that is idle, ended or halted issues nothing (R29, R93), nor one that a SAVE has stopped (R149). -/
noncomputable def State.issue (s : State) : Host.Outcome State Fault Refusal :=
  match s.seq.run with
  | .idle => .next s
  | .ended => .next s
  | .halted => .next s
  | _ =>
    if s.standsStill then .next s
    else match s.seq.late with
      | some _ => .next (s.meetLate s.curCore s.curSq)
      | none =>
        match s.issueUnit with
        | .error e => .next (s.stop e)
        | .ok (t, .skip n) => .next (t.retire n)
        | .ok (t, .run i) => if s.gated s.curCore && throttled i then .next s else exec i t

/-- One step: the next turn is taken. Without power only a cold reset takes place (R370, R372); after a failed bring-up a move of
another kind than a reset, a measurement, a thermal trip or a loss of power does nothing (R372). A request that comes over an SPDM
session takes place only where a secured message of the session carries it, and what the TC answers at once leaves in another;
a message that does not open to the request does nothing (R299, R323; log 39). -/
noncomputable def step (s : State) : Host.Outcome State Fault Refusal :=
  if s.powered then
    if s.failedStep.isSome then
      match s.turn.move with
      | .op i => if survivesBringUp i then exec i s.begin else .next s.begin
      | _ => .next s.begin
    else match s.turn.move with
      | .issue c q => { s.begin with curCore := c, curSq := q }.issue
      | .op i => if (sessionOf i).isSome then .next s.begin else exec i s.begin
      | .sealed id cipher tag i =>
        if sessionOf i = some id ∧ (Store.find? s.begin.sessions id).any (fun x => x.opens cipher tag (Config.requestText i)) then
          match exec i (s.begin.hears id) with
          | .next t => .next (State.answers s.begin t id)
          | .fault f => .fault f
          | .refused r => .refused r
        else .next s.begin
      | .copy c id n => .next (s.begin.copyProgress c id n)
      | .strike x => .next (s.begin.strike x)
      | .chunk c id enters data => .next (s.begin.moveChunk c id enters data)
      | .outside x => .next (s.begin.outside x)
  else
    match s.turn.move with
    | .op .coldReset => exec .coldReset s.begin
    | _ => .fault .noPower

/-- The sequencer on which an instruction is placed for its fetch: one that may execute it (Table 5-9). -/
def seatOf (w : BitVec 32) : Sq :=
  let fn4 := (fld w 10 4).toNat
  match majorOf w with
  | 0x14 => .ld
  | 0x15 => .st
  | 0x16 => .st
  | 0x17 => if fn4 = 0 then .st else .ld
  | 0x18 => if fn4 ≤ 1 then .ld else .ctl
  | 0x19 => .ld
  | 0x1A => if (fld w 1 4).toNat = 2 then .st else .ld
  | 0x1B => if (fld w 1 4).toNat = 1 then .st else .ld
  | 0x1C => .ld
  | 0x20 => if fld w 8 11 = 1 ∨ fld w 8 11 = 2 then .ex else .ctl
  | 0x25 => if fn4 = 0 then .st else if fn4 = 1 then .ld else .ctl
  | 0x27 => .ex
  | 0x28 => .ex
  | 0x29 => .ex
  | m => if 0x30 ≤ m then .ex else .ctl

/-- The declarations of the task that holds a placed instruction: everything that a header can declare. -/
def Decl.all : Decl := ⟨Quad.all 32, 4, 16, 32, 0xFFFFFFFF, 0xC0000, 16, false⟩

/-- The task that holds a placed instruction. -/
def Task.placed : Task where
  tenant := 0
  ctx := 0
  part := 0
  tdi := 0
  queue := 0
  ring := 0
  number := 0
  gang := 0
  member := 0
  gangSize := 1
  indices := []
  prio := 0
  decl := Decl.all
  code := 0
  args := []
  sigHandle := 0
  area := 0
  group := ⟨0, 1, 0, [1, 1, 1, 1], []⟩
  launch := none
  unread := false

/-- Places an instruction, given as the opcode table numbers its bits, where the next step fetches it (log 13): core 0
runs a task that declares everything; a sequencer that may execute the instruction stands at it in the body of a
block whose granule it has read, or, for an HDR, at the entry of the block; and that sequencer has the next turn. -/
def State.withFetchWord (s : State) (nbits w : Nat) : State :=
  let ps := if nbits ≤ 16 then [BitVec.ofNat 16 w]
    else [BitVec.ofNat 16 (w / 2 ^ 16), BitVec.ofNat 16 w, BitVec.ofNat 16 (w / 2 ^ 48), BitVec.ofNat 16 (w / 2 ^ 32)]
  let head := isHdrParcel (ps.headD 0)
  let q := match ps with
    | a :: b :: _ => if head then Sq.ctl else seatOf (wordOfParcels a b)
    | _ => if isHdrParcel (ps.headD 0) then Sq.ctl else .ctl
  let all : List Parcel := if head then ps else 0xC000 :: 0x000E :: ps
  let granule := BitVec.ofNat 256 (numOf (all.flatMap (fun p => [p.extractLsb' 0 8, p.extractLsb' 8 8])))
  let c := s.core 0
  let x : SeqState := { c.seqs.get q with
    run := .running, waitOn := none, mark := none, late := none, rep := none, pb := none,
    hdr := 32, length := 14, passes := 0, inBody := !head, pc := if head then 32 else 34, granules := [(2, granule)] }
  { s.setCore 0 { c.setSeq q x with task := some Task.placed } with agenda := [⟨0, .issue 0 q⟩] }

end Sys2Proof.Machine
end

