-- ==== Sys2Proof/Safety.lean ====
section
/-!
DEFINITION. What counts as a safe run, and the terms in which the claims are made: canonical memories, and what an
instruction leaves unchanged.
-/
namespace Sys2Proof.Machine

/-- Every byte memory of the module is in canonical form. -/
def State.memoryWf (s : State) : Bool :=
  Memory.wf s.hbm && Memory.wf s.host && Memory.wf s.file && Memory.wf s.peer && s.cores.all (fun c => Memory.wf c.2.scratch)

/-- A place of memory, as against the window slots that show registers (Table 1-2). -/
def Loc.isMemory : Loc → Bool
  | .win _ o => decide (o < 0x100000)
  | _ => true

/-- Every byte of memory reads as it did. -/
def State.sameMemory (s t : State) : Prop := ∀ l : Loc, l.isMemory = true → t.readLoc l = s.readLoc l

/-- The one name of the byte that a place stands for: an HBM byte of a slice that moves or has moved goes by where it lies
(R295, R296), and a peer's byte by its rank and address in one number. -/
def State.cell (s : State) : Loc → Loc
  | .hbm a => .hbm (s.hbmAddr a)
  | .peer r a => .peer 0 (r * 2 ^ 50 + a)
  | l => l

/-- Every byte of memory but those at the places named reads as it did. -/
def State.sameMemoryBut (s t : State) (ls : List Loc) : Prop :=
  ∀ l : Loc, l.isMemory = true → (∀ m ∈ ls, s.cell m ≠ s.cell l) → t.readLoc l = s.readLoc l

/-- Nothing outside the cores has changed, and no core but the issuing one has. -/
def State.onlyCore (s t : State) : Prop := t = { s with cores := t.cores } ∧ ∀ n, n ≠ s.curCore → t.core n = s.core n

/-- Nothing has changed but the issuing sequencer, and the note of when its core last did anything. -/
def State.onlySequencer (s t : State) : Prop :=
  s.onlyCore t ∧ t.cur = { s.cur with seqs := t.cur.seqs, lastActive := t.cur.lastActive } ∧
    ∀ q, q ≠ s.curSq → t.cur.seqs.get q = s.cur.seqs.get q

/-- No scalar register of the issuing sequencer has changed, nor its taint set, but those named. -/
def State.sameRegsBut (s t : State) (ds : List Nat) : Prop :=
  ∀ i, i ∉ ds → t.seq.reg i = s.seq.reg i ∧ t.seq.set i = s.seq.set i

end Sys2Proof.Machine
end

