-- ==== Sys2Proof/Certificates/Slice0/Obligations.lean ====
section
/-!
DEFINITION. The statements for the provers. A claim under `Sys2Proof.Claims` is one part of an obligation: what the instructions
or events of one family do wherever nothing stops them, as an equation for the state that they answer or as what that state
holds. Where a clause rests on a choice of the model, the docstring names the entry of the assumption log.
-/
open Sys2Proof Sys2Proof.Machine

/-- The register-register ALU functions with what each computes from a and b (Table 7-1, R41, R106). -/
def Sys2Proof.Claims.aluTable : List ((BitVec 5 → BitVec 5 → BitVec 5 → BitVec 1 → Instr) × (Word → Word → Word)) := [
  (.add, fun x y => x + y), (.sub, fun x y => x - y), (.mul, fun x y => x * y),
  (.mulh, fun x y => BitVec.ofInt 64 (x.toInt * y.toInt / 18446744073709551616)),
  (.mulhu, fun x y => BitVec.ofNat 64 (x.toNat * y.toNat / 18446744073709551616)),
  (.and, fun x y => x &&& y), (.or, fun x y => x ||| y), (.xor, fun x y => x ^^^ y), (.andn, fun x y => x &&& ~~~y),
  (.shl, fun x y => x <<< (y.toNat % 64)), (.shr, fun x y => x >>> (y.toNat % 64)),
  (.sar, fun x y => x.sshiftRight (y.toNat % 64)), (.rot, fun x y => x.rotateLeft (y.toNat % 64)),
  (.min, fun x y => if x.toInt < y.toInt then x else y), (.max, fun x y => if x.toInt < y.toInt then y else x),
  (.minu, fun x y => if x.toNat < y.toNat then x else y), (.maxu, fun x y => if x.toNat < y.toNat then y else x),
  (.sext, signExt), (.zext, zeroExt), (.bfx, extractField),
  (.addsat, fun x y => clamp64 (x.toInt + y.toInt)), (.subsat, fun x y => clamp64 (x.toInt - y.toInt))]

/-- The ALU functions with a literal in place of b, each beside its form of two registers (R105). -/
def Sys2Proof.Claims.aluLitTable : List ((BitVec 5 → BitVec 5 → BitVec 1 → BitVec 32 → Instr) × (Word → Word → Word)) := [
  (.addLit, fun x y => x + y), (.subLit, fun x y => x - y), (.mulLit, fun x y => x * y),
  (.mulhLit, fun x y => BitVec.ofInt 64 (x.toInt * y.toInt / 18446744073709551616)),
  (.mulhuLit, fun x y => BitVec.ofNat 64 (x.toNat * y.toNat / 18446744073709551616)),
  (.andLit, fun x y => x &&& y), (.orLit, fun x y => x ||| y), (.xorLit, fun x y => x ^^^ y), (.andnLit, fun x y => x &&& ~~~y),
  (.shlLit, fun x y => x <<< (y.toNat % 64)), (.shrLit, fun x y => x >>> (y.toNat % 64)),
  (.sarLit, fun x y => x.sshiftRight (y.toNat % 64)), (.rotLit, fun x y => x.rotateLeft (y.toNat % 64)),
  (.minLit, fun x y => if x.toInt < y.toInt then x else y), (.maxLit, fun x y => if x.toInt < y.toInt then y else x),
  (.minuLit, fun x y => if x.toNat < y.toNat then x else y), (.maxuLit, fun x y => if x.toNat < y.toNat then y else x),
  (.sextLit, signExt), (.zextLit, zeroExt), (.bfxLit, extractField),
  (.addsatLit, fun x y => clamp64 (x.toInt + y.toInt)), (.subsatLit, fun x y => clamp64 (x.toInt - y.toInt))]

/-- The divisions, with and without literal, with what each computes where b is not zero (R42): truncation toward zero, and
a remainder with the dividend's sign; -2^63 over -1 wraps. -/
def Sys2Proof.Claims.divTable : List ((BitVec 5 → BitVec 5 → BitVec 5 → BitVec 1 → Instr) ×
    (BitVec 5 → BitVec 5 → BitVec 1 → BitVec 32 → Instr) × (Word → Word → Word)) := [
  (.div, .divLit, fun x y => BitVec.ofInt 64 (x.toInt.tdiv y.toInt)), (.divu, .divuLit, fun x y => BitVec.ofNat 64 (x.toNat / y.toNat)),
  (.rem, .remLit, fun x y => BitVec.ofInt 64 (x.toInt.tmod y.toInt)), (.remu, .remuLit, fun x y => BitVec.ofNat 64 (x.toNat % y.toNat))]

/-- The compares, with and without literal, with the relation that each tests (Table 7-1, R107). -/
def Sys2Proof.Claims.compareTable : List ((BitVec 5 → BitVec 5 → BitVec 5 → BitVec 1 → Instr) ×
    (BitVec 5 → BitVec 5 → BitVec 1 → BitVec 32 → Instr) × (Word → Word → Bool)) := [
  (.cmpeq, .cmpeqLit, fun x y => decide (x = y)), (.cmpne, .cmpneLit, fun x y => decide (x ≠ y)),
  (.cmplt, .cmpltLit, fun x y => decide (x.toInt < y.toInt)), (.cmple, .cmpleLit, fun x y => decide (x.toInt ≤ y.toInt)),
  (.cmpltu, .cmpltuLit, fun x y => decide (x.toNat < y.toNat)), (.cmpleu, .cmpleuLit, fun x y => decide (x.toNat ≤ y.toNat))]

/-- Every ALU function of two registers completes: d receives Table 7-1's value of a and b, with the union of their taint
sets, the receive queue is popped where s31 is read, and the sequencer moves past the word (R102, R103, R105). -/
def Sys2Proof.Claims.AluRegister : Prop :=
  ∀ p ∈ Claims.aluTable, ∀ (d a b : BitVec 5) (u : BitVec 1) (s : State) (x y : Word × Taint),
    s.scalars [d.toNat, a.toNat, b.toNat] = .ok () → s.src a.toNat = .ok x → s.src b.toNat = .ok y →
    exec (p.1 d a b u) s = .next (((s.pop [a.toNat, b.toNat]).put d.toNat (p.2 x.1 y.1) (x.2 ||| y.2)).retire 2)

/-- The same with the literal, sign-extended, in place of b; a's taint set (R103, R105). -/
def Sys2Proof.Claims.AluLiteral : Prop :=
  ∀ p ∈ Claims.aluLitTable, ∀ (d a : BitVec 5) (u : BitVec 1) (lit : BitVec 32) (s : State) (x : Word × Taint),
    s.scalars [d.toNat, a.toNat] = .ok () → s.src a.toNat = .ok x →
    exec (p.1 d a u lit) s = .next (((s.pop [a.toNat]).put d.toNat (p.2 x.1 (lit.signExtend 64)) x.2).retire 4)

/-- The divisions complete where b is not zero, and trap with 0xB0, writing nothing, where it is (R42). -/
def Sys2Proof.Claims.Divide : Prop :=
  ∀ p ∈ Claims.divTable, ∀ (d a b : BitVec 5) (u : BitVec 1) (lit : BitVec 32) (s : State) (x y : Word × Taint),
    s.scalars [d.toNat, a.toNat, b.toNat] = .ok () → s.src a.toNat = .ok x → s.src b.toNat = .ok y →
    (y.1 ≠ 0 → exec (p.1 d a b u) s = .next (((s.pop [a.toNat, b.toNat]).put d.toNat (p.2.2 x.1 y.1) (x.2 ||| y.2)).retire 2)) ∧
    (y.1 = 0 → exec (p.1 d a b u) s = .next (s.stop (.trap 0xB0))) ∧
    (lit ≠ 0 → exec (p.2.1 d a u lit) s = .next (((s.pop [a.toNat]).put d.toNat (p.2.2 x.1 (lit.signExtend 64)) x.2).retire 4)) ∧
    (lit = 0 → exec (p.2.1 d a u lit) s = .next (s.stop (.trap 0xB0)))

/-- The three-operand functions MADD, BFI and SELP, with and without literal (Table 7-1, R106). -/
def Sys2Proof.Claims.AluThree : Prop :=
  ∀ (d a b : BitVec 5) (u : BitVec 1) (lit : BitVec 32) (s : State) (x y z : Word × Taint),
    s.scalars [d.toNat, a.toNat, b.toNat] = .ok () → s.src d.toNat = .ok z → s.src a.toNat = .ok x → s.src b.toNat = .ok y →
    exec (.madd d a b u) s = .next (((s.pop [d.toNat, a.toNat, b.toNat]).put d.toNat (z.1 + x.1 * y.1) (z.2 ||| x.2 ||| y.2)).retire 2) ∧
    exec (.maddLit d a u lit) s = .next (((s.pop [d.toNat, a.toNat]).put d.toNat (z.1 + x.1 * lit.signExtend 64) (z.2 ||| x.2)).retire 4) ∧
    exec (.bfi d a b u) s = .next (((s.pop [d.toNat, a.toNat, b.toNat]).put d.toNat (insertField z.1 x.1 y.1) (z.2 ||| x.2 ||| y.2)).retire 2) ∧
    exec (.bfiLit d a u lit) s = .next (((s.pop [d.toNat, a.toNat]).put d.toNat (insertField z.1 x.1 (lit.signExtend 64)) (z.2 ||| x.2)).retire 4) ∧
    exec (.selp d a b u) s = .next (((s.pop [a.toNat, b.toNat]).put d.toNat (if s.pred 0 then x.1 else y.1) (x.2 ||| y.2)).retire 2) ∧
    exec (.selpLit d a u lit) s = .next (((s.pop [a.toNat]).put d.toNat (if s.pred 0 then x.1 else lit.signExtend 64) x.2).retire 4)

/-- BFI writes bit i of a to bit pos + i of d for each i below len, and keeps the other bits; BFX, SEXT and ZEXT read the
fields that R106 names. -/
def Sys2Proof.Claims.FieldBits : Prop :=
  ∀ (d a b : Word) (i : Nat), i < 64 →
    ((insertField d a b).getLsbD i =
      if b.toNat % 64 ≤ i ∧ i < b.toNat % 64 + (b.toNat / 256 % 64 + 1) then a.getLsbD (i - b.toNat % 64) else d.getLsbD i) ∧
    ((extractField a b).getLsbD i = (decide (i ≤ b.toNat / 256 % 64) && a.getLsbD (b.toNat % 64 + i))) ∧
    ((zeroExt a b).getLsbD i = (decide (i < extWidth b) && a.getLsbD i)) ∧
    ((signExt a b).getLsbD i = a.getLsbD (if i < extWidth b then i else extWidth b - 1))

/-- The instructions of one source register and an immediate complete (R104, R108, R109, R111): the short two-address
forms, the immediates, the shifts by a constant, CLZ, CTZ and POPC, LITH, and the short two-register forms. -/
def Sys2Proof.Claims.OneSource : Prop :=
  ∀ (d a : BitVec 5) (u : BitVec 1) (i6 n6 : BitVec 6) (n5 : BitVec 5) (i14 : BitVec 14) (lit : BitVec 32) (s : State) (x z : Word × Taint),
    s.scalars [d.toNat, a.toNat] = .ok () → s.src a.toNat = .ok x → s.src d.toNat = .ok z →
    (∀ p ∈ [(Instr.mov d a, 1, x.1), (.clz d a u, 2, leadingZeros x.1), (.ctz d a u, 2, trailingZeros x.1), (.popc d a u, 2, onesCount x.1),
        (.addi d a i14, 2, x.1 + i14.signExtend 64), (.andi d a i14, 2, x.1 &&& i14.signExtend 64),
        (.ori d a i14, 2, x.1 ||| i14.signExtend 64), (.xori d a i14, 2, x.1 ^^^ i14.signExtend 64),
        (.shli d a n6, 2, x.1 <<< n6.toNat), (.shri d a n6, 2, x.1 >>> n6.toNat), (.sari d a n6, 2, x.1.sshiftRight n6.toNat),
        (.roti d a n6, 2, x.1.rotateLeft n6.toNat)],
      exec p.1 s = .next (((s.pop [a.toNat]).put d.toNat p.2.2 x.2).retire p.2.1)) ∧
    (∀ p ∈ [(Instr.addi6 d i6, 1, z.1 + i6.signExtend 64), (.shliShort d n6, 1, z.1 <<< n6.toNat),
        (.shriShort d 0 n5, 1, z.1 >>> n5.toNat), (.shriShort d 1 n5, 1, z.1.sshiftRight n5.toNat),
        (.lith d lit, 4, lit ++ z.1.extractLsb' 0 32)],
      exec p.1 s = .next (((s.pop [d.toNat]).put d.toNat p.2.2 z.2).retire p.2.1)) ∧
    (∀ p ∈ [(Instr.addShort d a, z.1 + x.1), (.subShort d a, z.1 - x.1), (.andShort d a, z.1 &&& x.1), (.orShort d a, z.1 ||| x.1),
        (.xorShort d a, z.1 ^^^ x.1)],
      exec p.1 s = .next (((s.pop [d.toNat, a.toNat]).put d.toNat p.2 (z.2 ||| x.2)).retire 1)) ∧
    (∀ p ∈ [(Instr.li6 d i6, 1, i6.signExtend 64), (.lit d lit, 4, lit.signExtend 64)],
      exec p.1 s = .next ((s.put d.toNat p.2.2 0).retire p.2.1))

/-- CLZ, CTZ and POPC count what Table 7-1 says: no bit above the leading one is set, and none below the trailing one. -/
def Sys2Proof.Claims.BitCounts : Prop :=
  ∀ a : Word, (a = 0 → leadingZeros a = 64 ∧ trailingZeros a = 64 ∧ onesCount a = 0) ∧
    (a ≠ 0 → (a.getLsbD (63 - (leadingZeros a).toNat) = true ∧ (leadingZeros a).toNat ≤ 63 ∧ ∀ i, 63 - (leadingZeros a).toNat < i → a.getLsbD i = false) ∧
      (a.getLsbD (trailingZeros a).toNat = true ∧ ∀ i, i < (trailingZeros a).toNat → a.getLsbD i = false)) ∧
    (onesCount (a &&& 1) = a &&& 1) ∧ (onesCount (~~~a) = 64 - onesCount a)

/-- A compare writes predicate d mod 8 alone, and adds the taint sets of what it compares to the control taint (R107,
R110). -/
def Sys2Proof.Claims.Compares : Prop :=
  ∀ (d a b : BitVec 5) (u : BitVec 1) (lit : BitVec 32) (c : BitVec 11) (s : State) (x y : Word × Taint),
    s.scalars [a.toNat, b.toNat] = .ok () → s.src a.toNat = .ok x → s.src b.toNat = .ok y →
    (∀ p ∈ Claims.compareTable,
      exec (p.1 d a b u) s = .next ((((s.pop [a.toNat, b.toNat]).putPred d.toNat (p.2.2 x.1 y.1)).addControl (x.2 ||| y.2)).retire 2) ∧
      exec (p.2.1 d a u lit) s = .next ((((s.pop [a.toNat]).putPred d.toNat (p.2.2 x.1 (lit.signExtend 64))).addControl x.2).retire 4)) ∧
    (∀ p ∈ [((0 : BitVec 3), decide (x.1 = c.signExtend 64)), (1, decide (x.1 ≠ c.signExtend 64)),
        (2, decide (x.1.toInt < c.toInt)), (3, decide (x.1.toInt ≤ c.toInt)),
        (4, decide (x.1.toNat < (c.signExtend 64).toNat)), (5, decide (x.1.toNat ≤ (c.signExtend 64).toNat)),
        (6, decide (c.toInt < x.1.toInt)), (7, decide (c.toInt ≤ x.1.toInt))],
      exec (.cmpi d a p.1 c) s = .next ((((s.pop [a.toNat]).putPred d.toNat p.2).addControl x.2).retire 2))

/-- The predicate instructions change one predicate and no taint (R112, R113). -/
def Sys2Proof.Claims.Predicates : Prop :=
  ∀ (d a b : BitVec 3) (n u v : BitVec 1) (lit : BitVec 32) (s : State),
    (∀ p ∈ [(Instr.pand d a b u, 2, s.pred a.toNat && s.pred b.toNat), (.por d a b u, 2, s.pred a.toNat || s.pred b.toNat),
        (.pxor d a b u, 2, s.pred a.toNat ^^ s.pred b.toNat), (.pandLit d a u lit, 4, s.pred a.toNat && lit.getLsbD 0),
        (.porLit d a u lit, 4, s.pred a.toNat || lit.getLsbD 0), (.pxorLit d a u lit, 4, s.pred a.toNat ^^ lit.getLsbD 0),
        (.pnot d a u, 2, !s.pred a.toNat), (.pset d v u, 2, decide (v = 1)), (.pmov d n a, 1, s.pred a.toNat ^^ decide (n = 1))],
      exec p.1 s = .next ((s.putPred d.toNat p.2.2).retire p.2.1)) ∧
    (s.putPred d.toNat true).pred d.toNat = true ∧ (s.putPred d.toNat false).pred d.toNat = false ∧
    (∀ v : Bool, a ≠ d → (s.putPred d.toNat v).pred a.toNat = s.pred a.toNat)

/-- HDR enters its block where R71 allows it, and is 0x05 where it does not; entering reads nothing and writes nothing else
(R70 to R73). The model's own choices in it: log 9. -/
def Sys2Proof.Claims.BlockEntry : Prop :=
  ∀ (r l : BitVec 12) (s : State),
    (s.seq.inBody = false ∧ l ≠ 0 ∧ (r = 0 ∨ l.toNat ≤ 510) ∧ s.seq.pc + 2 + l.toNat ≤ s.codeEnd →
      ∃ t, exec (.hdr r l) s = .next t ∧ s.onlySequencer t ∧ t.seq = { s.seq with
        hdr := s.seq.pc, length := l.toNat, passes := r.toNat, inBody := true, pc := s.seq.pc + 2,
        run := .running, waitOn := none, mark := none }) ∧
    (s.seq.inBody = true ∨ l = 0 ∨ (r ≠ 0 ∧ 510 < l.toNat) ∨ s.codeEnd < s.seq.pc + 2 + l.toNat →
      exec (.hdr r l) s = .next (s.stop (.trap 0x05)))

/-- The body runs REPEAT + 1 times: at its end the next pass begins while passes remain, and after the last the sequencer
stands at the parcel that should hold the next HDR, with nothing of the block held (R72, R75). -/
def Sys2Proof.Claims.BlockPasses : Prop :=
  ∀ (x : SeqState) (pc : Nat),
    (pc < x.hdr + 2 + x.length → x.goTo pc = { x with pc := pc }) ∧
    (x.hdr + 2 + x.length ≤ pc → 0 < x.passes → (x.goTo pc).pc = x.hdr + 2 ∧ (x.goTo pc).passes = x.passes - 1 ∧
      (x.goTo pc).inBody = x.inBody ∧ (x.goTo pc).granules = x.granules) ∧
    (x.hdr + 2 + x.length ≤ pc → x.passes = 0 → (x.goTo pc).pc = x.hdr + 2 + x.length ∧ (x.goTo pc).inBody = false ∧
      (x.goTo pc).granules = [])

/-- REP and PB ready what they govern, once the checks of their units pass (R77 to R82); NOP and NOPL only move on
(R120). -/
def Sys2Proof.Claims.Prefixes : Prop :=
  ∀ (v x b a d : BitVec 1) (n : BitVec 6) (c k : BitVec 3) (pat : BitVec 8) (s s1 : State) (ps : List Parcel),
    (s.repTarget s.seq.pc = .ok (s1, ps) → s1.repRuns ((encode (.rep v x b a d n)).headD 0) ps = .ok () →
      exec (.rep v x b a d n) s = .next (s1.modSeq (fun q => { q with rep := some ⟨q.pc, (encode (.rep v x b a d n)).headD 0, 0⟩ }))) ∧
    (wfPattern k pat = true → s.covered (k.toNat + 1) (s.seq.pc + 2) = .ok s1 →
      exec (.pb c k pat) s = .next ((s1.retire 2).modSeq (fun x => { x with pb := some ⟨s.seq.pc, s.pred c.toNat, pat, k.toNat + 1, 0⟩ }))) ∧
    exec .nop s = .next (s.retire 1) ∧ exec .nopl s = .next (s.retire 2)

/-- A transfer of control enters the block whose HDR stands at its target, with no pass of the block it leaves remaining;
any other target is 0x04 (R72, R74). The model's own choices in it: log 9. -/
def Sys2Proof.Claims.TransferEnters : Prop :=
  ∀ (s s1 : State) (target : Int) (x : Parcel),
    (¬(32 ≤ target ∧ target < (s.codeEnd : Int)) → s.transfer target = .error (.trap 0x04)) ∧
    (32 ≤ target → target < (s.codeEnd : Int) →
      State.parcel (s.modSeq (fun x => { x with granules := [] })) target.toNat = .ok (s1, x) →
      (isHdrParcel x = false → s.transfer target = .error (.trap 0x04)) ∧
      (isHdrParcel x = true → ∃ t, s.transfer target = .ok t ∧ t.seq.pc = target.toNat ∧ t.seq.inBody = false ∧
        t.seq.passes = 0 ∧ t.seq.pb = none ∧ t.seq.rep = none ∧ t.seq.run = .running ∧
        t.seq.regs = s1.seq.regs ∧ t.seq.preds = s1.seq.preds ∧ t.seq.ctlTaint = s1.seq.ctlTaint))

/-- The branches, calls and jumps complete by the transfer to their target, from the state in which the receive queue is
popped, the link is written and the taint of the tested register has joined the control taint (R114 to R119). -/
def Sys2Proof.Claims.Branches : Prop :=
  ∀ (d24 : BitVec 24) (d11 : BitVec 11) (d16 : BitVec 16) (a d : BitVec 5) (u : BitVec 1) (c : BitVec 3) (lit : BitVec 32) (s t : State)
      (x y : Word × Taint),
    (s.transfer (s.seq.pc + d24.toInt) = .ok t → exec (.br d24) s = .next t) ∧
    (s.transfer (s.seq.pc + d11.toInt) = .ok t → exec (.br16 d11) s = .next t) ∧
    (s.scalars [30] = .ok () → (s.put 30 (BitVec.ofNat 64 (s.seq.pc + 2)) 0).transfer (s.seq.pc + d24.toInt) = .ok t →
      exec (.call d24) s = .next t) ∧
    (s.scalars [d.toNat, a.toNat] = .ok () → s.src a.toNat = .ok x →
      (((s.pop [a.toNat]).addControl x.2).transfer (x.1.toNat : Int) = .ok t → exec (.jr a u) s = .next t) ∧
      (((s.pop [a.toNat]).addControl x.2).transfer (x.1.toNat + lit.toInt) = .ok t → exec (.jrLit a u lit) s = .next t) ∧
      ((((s.pop [a.toNat]).addControl x.2).put d.toNat (BitVec.ofNat 64 (s.seq.pc + 2)) 0).transfer (x.1.toNat : Int) = .ok t →
        exec (.jalr d a u) s = .next t) ∧
      ((((s.pop [a.toNat]).addControl x.2).put d.toNat (BitVec.ofNat 64 (s.seq.pc + 4)) 0).transfer (x.1.toNat + lit.toInt) = .ok t →
        exec (.jalrLit d a u lit) s = .next t)) ∧
    (s.scalars [30] = .ok () → s.src 30 = .ok y →
      (((s.pop [30]).addControl y.2).transfer (y.1.toNat : Int) = .ok t → exec .ret s = .next t ∧ exec (.retL u) s = .next t) ∧
      (((s.pop [30]).addControl y.2).transfer (y.1.toNat + lit.toInt) = .ok t → exec (.retLLit u lit) s = .next t)) ∧
    (wfBranchCond a c = true → 6 ≤ c.toNat →
      (s.pred a.toNat = decide (c = 6) → s.transfer (s.seq.pc + d16.toInt) = .ok t → exec (.brc a c d16) s = .next t) ∧
      (s.pred a.toNat ≠ decide (c = 6) → exec (.brc a c d16) s = .next (s.retire 2)))

/-- BRC on a register: the six relations to zero; whether or not it branches, the register's taint set joins the control
taint (R114, R118). -/
def Sys2Proof.Claims.BranchOnRegister : Prop :=
  ∀ (a : BitVec 5) (d : BitVec 16) (s t : State) (x : Word × Taint),
    s.scalars [a.toNat] = .ok () → s.src a.toNat = .ok x →
    ∀ p ∈ [((0 : BitVec 3), decide (x.1 = 0)), (1, decide (x.1 ≠ 0)), (2, decide (x.1.toInt < 0)), (3, decide (0 ≤ x.1.toInt)),
        (4, decide (x.1.toInt ≤ 0)), (5, decide (0 < x.1.toInt))],
      (p.2 = true → ((s.pop [a.toNat]).addControl x.2).transfer (s.seq.pc + d.toInt) = .ok t → exec (.brc a p.1 d) s = .next t) ∧
      (p.2 = false → exec (.brc a p.1 d) s = .next (((s.pop [a.toNat]).addControl x.2).retire 2))

/-- LOOP on ctl: the register falls by one and keeps its set, which joins the control taint; it branches while the register
is not zero, and with a = 0 never (R118, R119). On another sequencer it is 0x03. -/
def Sys2Proof.Claims.Loop : Prop :=
  ∀ (a : BitVec 5) (d : BitVec 16) (s t : State) (x : Word × Taint),
    (s.curSq ≠ .ctl → exec (.loop a d) s = .next (s.stop (.trap 0x03))) ∧
    (s.curSq = .ctl → s.scalars [a.toNat] = .ok () → s.src a.toNat = .ok x →
      (x.1 ≠ 1 ∧ a ≠ 0 → (((s.pop [a.toNat]).put a.toNat (x.1 - 1) x.2).addControl x.2).transfer (s.seq.pc + d.toInt) = .ok t →
        exec (.loop a d) s = .next t) ∧
      (x.1 = 1 ∨ a = 0 → exec (.loop a d) s = .next ((((s.pop [a.toNat]).put a.toNat (x.1 - 1) x.2).addControl x.2).retire 2)))

/-- END ends the issuing sequencer, at the parcel after it, and changes no memory, no other core and no register (R29,
R120). -/
def Sys2Proof.Claims.EndStream : Prop :=
  ∀ s : State, ∃ t, exec .endStream s = .next t ∧ t.seq.run = .ended ∧ t.seq.pc = s.seq.pc + 1 ∧ s.sameMemory t ∧
    s.sameRegsBut t [] ∧ (∀ n, n ≠ s.curCore → t.core n = s.core n) ∧ ∀ q, q ≠ s.curSq → t.cur.seqs.get q = s.cur.seqs.get q

/-- TKS adds to a queue that the issuing sequencer is the source of, and past 65,535 traps with 0x27 leaving the count; TKW
takes its count whole from a queue it is the destination of, once the count has stood there at the end of a cycle, or waits with
the count as it was (R11, R123, R124). -/
def Sys2Proof.Claims.Tokens : Prop :=
  ∀ (n : BitVec 5) (q : BitVec 4) (ql a : BitVec 5) (i : BitVec 10) (s : State) (x : Word × Taint),
    q.toNat < 12 → ql.toNat = q.toNat → s.scalars [a.toNat] = .ok () → s.src a.toNat = .ok x →
    (queueSource q.toNat = s.curSq.num →
      (s.cur.tokenCount q.toNat + (n.toNat + 1) ≤ 65535 →
        exec (.tks n q) s = .next ((s.handOn.modCur (fun c => c.setTokens q.toNat (c.tokenCount q.toNat + (n.toNat + 1)))).retire 1)) ∧
      (65535 < s.cur.tokenCount q.toNat + (n.toNat + 1) → exec (.tks n q) s = .next (s.stop (.trap 0x27))) ∧
      (s.cur.tokenCount q.toNat + (x.1.toNat + i.toNat) ≤ 65535 →
        ∃ t, exec (.tksL ql a i) s = .next t ∧ t.cur.tokens = s.cur.tokens.setIfInBounds q.toNat (s.cur.tokenCount q.toNat + (x.1.toNat + i.toNat)) ∧
          s.sameMemory t ∧ s.sameRegsBut t [])) ∧
    (queueDest q.toNat = s.curSq.num →
      (n.toNat + 1 ≤ s.cur.tokenCount q.toNat → n.toNat + 1 ≤ (s.cur.was.tokens[q.toNat]?).getD 0 →
        exec (.tkw n q) s = .next (((s.joinObject (32 + q.toNat)).takeOver.modCur (fun c => c.setTokens q.toNat (c.tokenCount q.toNat - (n.toNat + 1)))).retire 1)) ∧
      (s.cur.tokenCount q.toNat < n.toNat + 1 ∨ (s.cur.was.tokens[q.toNat]?).getD 0 < n.toNat + 1 → exec (.tkw n q) s = .next (s.await .token)) ∧
      (65535 < x.1.toNat + i.toNat → exec (.tkwL ql a i) s = .next (s.stop (.trap 0x27))) ∧
      (x.1.toNat + i.toNat ≤ s.cur.tokenCount q.toNat → x.1.toNat + i.toNat ≤ (s.cur.was.tokens[q.toNat]?).getD 0 → x.1.toNat + i.toNat ≤ 65535 →
        ∃ t, exec (.tkwL ql a i) s = .next t ∧ t.cur.tokens = s.cur.tokens.setIfInBounds q.toNat (s.cur.tokenCount q.toNat - (x.1.toNat + i.toNat)) ∧
          s.sameMemory t ∧ s.sameRegsBut t []))

/-- A sequencer on the other side of a token queue may neither set it nor wait on it (R11). -/
def Sys2Proof.Claims.TokenSides : Prop :=
  ∀ (n : BitVec 5) (q : BitVec 4) (s : State), q.toNat < 12 →
    (queueSource q.toNat ≠ s.curSq.num → exec (.tks n q) s = .next (s.stop (.trap 0x03))) ∧
    (queueDest q.toNat ≠ s.curSq.num → exec (.tkw n q) s = .next (s.stop (.trap 0x03)))

/-- The advances of a rill move a pointer and the fill count together, never past the slots there are; a wait changes
neither, and a count of 0 has no effect (R14, R126, R127). That a wait counts the advances made earlier in its cycle is the
model's choice: log 12. -/
def Sys2Proof.Claims.Rills : Prop :=
  ∀ (n : BitVec 5) (w : BitVec 4) (wl a : BitVec 5) (i : BitVec 10) (s : State) (r : Rill) (x : Word × Taint),
    w.toNat < s.cur.decl.rills → wl.toNat = w.toNat → s.cur.rills[w.toNat]? = some (some r) →
    s.scalars [a.toNat] = .ok () → s.src a.toNat = .ok x →
    let set := fun (t : State) (r' : Rill) => t.handOn.modCur (fun c => { c with rills := c.rills.setIfInBounds w.toNat (some r') })
    let k := x.1.toNat + i.toNat
    (r.fill + (n.toNat + 1) ≤ r.count → exec (.adv n 0 w) s =
      .next ((set s { r with pptr := (r.pptr + (n.toNat + 1)) % r.count, fill := r.fill + (n.toNat + 1) }).retire 1)) ∧
    (r.count < r.fill + (n.toNat + 1) → exec (.adv n 0 w) s = .next (s.stop (.trap 0xA2))) ∧
    (n.toNat + 1 ≤ r.fill → exec (.adv n 1 w) s =
      .next ((set s { r with cptr := (r.cptr + (n.toNat + 1)) % r.count, fill := r.fill - (n.toNat + 1) }).retire 1)) ∧
    (r.fill < n.toNat + 1 → exec (.adv n 1 w) s = .next (s.stop (.trap 0xA2))) ∧
    (k ≠ 0 → r.fill + k ≤ r.count → exec (.wadvp wl a i) s =
      .next ((set (s.pop [a.toNat]) { r with pptr := (r.pptr + k) % r.count, fill := r.fill + k }).retire 2)) ∧
    (k ≠ 0 → k ≤ r.fill → exec (.wadvc wl a i) s =
      .next ((set (s.pop [a.toNat]) { r with cptr := (r.cptr + k) % r.count, fill := r.fill - k }).retire 2)) ∧
    (k ≠ 0 → k ≤ r.count → k ≤ r.fill → exec (.wwaitf wl a i) s = .next (((s.pop [a.toNat]).joinObject (16 + w.toNat)).takeOver.retire 2)) ∧
    (k ≤ r.count → r.fill < k → exec (.wwaitf wl a i) s = .next (s.await .rill)) ∧
    (k ≠ 0 → k ≤ r.count → k ≤ r.count - r.fill → exec (.wwaite wl a i) s = .next ((s.pop [a.toNat]).takeOver.retire 2)) ∧
    (k ≤ r.count → r.count - r.fill < k → exec (.wwaite wl a i) s = .next (s.await .rill)) ∧
    (k = 0 → r.fill ≤ r.count → ∀ j ∈ [Instr.wadvp wl a i, .wadvc wl a i, .wwaitf wl a i, .wwaite wl a i],
      exec j s = .next ((s.pop [a.toNat]).retire 2)) ∧
    (r.count < k → exec (.wwaitf wl a i) s = .next (s.stop (.trap 0xA2)) ∧ exec (.wwaite wl a i) s = .next (s.stop (.trap 0xA2)))

/-- WINIT sets a valid geometry with both pointers zero and every slot free; WSTAT reads Table 7-6 as of the
end of the previous cycle (R13, R125, R128). -/
def Sys2Proof.Claims.RillState : Prop :=
  ∀ (w a d : BitVec 5) (w4 : BitVec 4) (s : State) (x : Word × Taint) (base size count : Nat),
    w.toNat = w4.toNat → w.toNat < s.cur.decl.rills → s.scalars [d.toNat, a.toNat] = .ok () → s.src a.toNat = .ok x →
    (s.curSq = .ctl → base % 256 = 0 → size % 256 = 0 → size ≠ 0 → 2 ≤ count → count ≤ 256 → size < 2 ^ 20 →
      base + size * count ≤ 0xC0000 → base + size * count ≤ s.cur.decl.scratch →
      x.1.toNat = count * 2 ^ 40 + size * 2 ^ 20 + base →
      s.cur.copies.any (fun k => fillsRill k.lit w.toNat) = false →
      exec (.winit w a) s = .next (((s.pop [a.toNat]).modCur (fun c => { c with
        rills := c.rills.setIfInBounds w.toNat (some ⟨base, size, count, 0, 0, 0⟩) })).retire 2)) ∧
    exec (.wstat d w4) s = .next ((s.put d.toNat (match s.cur.was.rills[w.toNat]?.getD none with
      | none => 0
      | some r => BitVec.ofNat 64 (r.count * 2 ^ 34 + r.cptr * 2 ^ 26 + r.pptr * 2 ^ 18 + (r.count - r.fill) * 2 ^ 9 + r.fill)) 0).retire 2)

/-- The barrier instructions complete (R129 to R134), given a permitted barrier. A member that has not arrived arrives
once its earlier accesses have performed, and BARR then waits until its arrival's phase has completed; BARN reports the phase it
arrived in; BWAIT waits for a phase within half the range; BCNT reads Table 7-8 as of the end of the previous cycle. The model's own choices in it: log 10. -/
def Sys2Proof.Claims.Barriers : Prop :=
  ∀ (b d a : BitVec 5) (s : State) (x : Barrier) (v : Word × Taint),
    s.cur.decl.barriers.getLsbD b.toNat = true → s.gang.barrier b.toNat = x → s.scalars [d.toNat, a.toNat] = .ok () → s.src a.toNat = .ok v →
    (s.me ∈ x.members → s.me ∉ x.arrived → s.settled = true →
      let t := (s.releaseAll s.curCore s.curSq).setBarrier b.toNat { x with arrived := x.arrived ++ [s.me] }
      exec (.arr b) s = .next (t.retire 1) ∧
      exec (.barn d b) s = .next ((t.put d.toNat (BitVec.ofNat 64 x.phase.toNat) 0).retire 2) ∧
      (s.seq.mark = none → exec (.barr b) s = .next (t.awaitMark .barrier (.arrived b.toNat x.phase))) ∧
      exec (.bleave b) s = .next (((s.releaseAll s.curCore s.curSq).setBarrier b.toNat { x with
        leaves := if s.me ∈ x.leaves then x.leaves else x.leaves ++ [s.me], arrived := x.arrived ++ [s.me] }).retire 2)) ∧
    (s.me ∉ x.members → exec (.arr b) s = .next (s.stop (.trap 0xA0)) ∧ exec (.bleave b) s = .next (s.stop (.trap 0xA0)) ∧
      (s.me ∉ x.joins → exec (.bjoin b) s = .next ((s.setBarrier b.toNat (if x.members = [] then { x with members := [s.me] }
        else { x with joins := x.joins ++ [s.me] })).retire 2))) ∧
    (s.me ∈ x.members → exec (.bjoin b) s = .next ((s.setBarrier b.toNat { x with leaves := x.leaves.filter (· != s.me) }).retire 2)) ∧
    (∀ k p, s.seq.mark = some (.arrived k p) → (s.me ∉ x.arrived → exec (.barr b) s = .next (s.acquireAll.retire 2)) ∧
      (s.me ∈ x.arrived → exec (.barr b) s = .next (s.await .barrier))) ∧
    ((x.phase - v.1.extractLsb' 0 32).toNat < 2 ^ 31 → exec (.bwait a b) s = .next ((s.pop [a.toNat]).acquireAll.retire 2)) ∧
    (2 ^ 31 ≤ (x.phase - v.1.extractLsb' 0 32).toNat → exec (.bwait a b) s = .next (s.await .barrier)) ∧
    ∀ y, Store.getD s.gang.was b.toNat Barrier.empty = y →
      exec (.bcnt d b) s = .next ((s.put d.toNat (BitVec.ofNat 64 ((y.members.filter y.arrived.contains).length * 2 ^ 40 + y.members.length * 2 ^ 32 +
        y.phase.toNat)) 0).retire 2)

/-- A phase completes only when an arrival has been made and every member has arrived or ended; leaves are applied before
joins, and a barrier left without members returns to phase 0 (R32, R33, R130). -/
def Sys2Proof.Claims.BarrierPhase : Prop :=
  ∀ (s : State) (b : Barrier),
    (s.settleBarrier b ≠ b → b.arrived ≠ [] ∧ ∀ m ∈ b.members, m ∈ b.arrived ∨ s.partyEnded m = true) ∧
    (b.arrived ≠ [] → (∀ m ∈ b.members, m ∈ b.arrived ∨ s.partyEnded m = true) →
      (s.settleBarrier b).arrived = [] ∧ (s.settleBarrier b).joins = [] ∧ (s.settleBarrier b).leaves = [] ∧
      (∀ m, m ∈ (s.settleBarrier b).members ↔ (m ∈ b.members ∧ m ∉ b.leaves) ∨ m ∈ b.joins) ∧
      ((∃ m ∈ b.members, m ∉ b.leaves) → (s.settleBarrier b).phase = b.phase + 1) ∧
      ((∀ m ∈ b.members, m ∈ b.leaves) → (s.settleBarrier b).phase = 0))

/-- SSTEP, SSYNC and SPHASE (R35, R136): the arrival that completes a step lets its sequencer go on, after SSYNC with every
write made before ordered before its later loads; another waits; the wrong kind of step is 0xA3, and so is each outside a
superstep launch. -/
def Sys2Proof.Claims.Supersteps : Prop :=
  ∀ (d : BitVec 5) (s : State) (n : Nat) (l : Launch),
    s.seq.mark = none → s.scalars [d.toNat] = .ok () →
    (s.cur.task.bind Task.launch = none →
      exec .sstep s = .next (s.stop (.trap 0xA3)) ∧ exec .ssync s = .next (s.stop (.trap 0xA3)) ∧ exec (.sphase d) s = .next (s.stop (.trap 0xA3))) ∧
    (s.cur.task.bind Task.launch = some n → Store.find? s.launches n = some l →
      let t := State.settleLaunch { s with launches := Store.put n { l with arrived := l.arrived ++ [s.me] } s.launches } n
      let steps := ((Store.find? t.launches n).map Launch.steps).getD 0
      (l.steps % 2 = 0 → l.steps < steps → exec .sstep s = .next (t.retire 2)) ∧
      (l.steps % 2 = 0 → steps ≤ l.steps → exec .sstep s = .next (t.awaitMark .superstep (.step l.steps))) ∧
      (l.steps % 2 = 1 → l.steps < steps → exec .ssync s = .next (t.acquireAll.retire 2)) ∧
      (l.steps % 2 = 1 → exec .sstep s = .next (s.stop (.trap 0xA3))) ∧
      (l.steps % 2 = 0 → exec .ssync s = .next (s.stop (.trap 0xA3))) ∧
      exec (.sphase d) s = .next ((s.put d.toNat (BitVec.ofNat 64 (l.steps / 2 % 2 ^ 32 + l.steps % 2 * 2 ^ 32)) 0).retire 2))

/-- A use of a handle applies its checks in the order of R142: V 0x70, seal 0x71, tenant 0x75, epoch 0x76, revoked serial 0x74,
rights 0x72, alignment 0x43, bounds 0x73. The statement names the first that fails. The key of the seal is that of the handle's
own tenant: a tenant that is not bound has none, and no seal of it is good. -/
def Sys2Proof.Claims.HandleCheckOrder : Prop :=
  ∀ (s : State) (tenant : Nat) (h : BitVec 256) (right : BitVec 8) (off len align : Nat) (t : Tenant), align ≠ 0 →
    let cause := s.accessCause tenant h right off len align
    let bound := hValid h = true ∧ Store.find? s.tenants (hTenant h) = some t
    let isSealed := sealOf t.sealKey h = hSeal h
    let good := bound ∧ isSealed ∧ hTenant h = tenant ∧ hEpoch h = t.epoch ∧ hSerial h ∉ t.revoked
    (hValid h = false → cause = some 0x70) ∧
    (hValid h = true → Store.find? s.tenants (hTenant h) = none → cause = some 0x71) ∧
    (bound → ¬isSealed → cause = some 0x71) ∧
    (bound → isSealed → hTenant h ≠ tenant → cause = some 0x75) ∧
    (bound → isSealed → hTenant h = tenant → hEpoch h ≠ t.epoch → cause = some 0x76) ∧
    (bound → isSealed → hTenant h = tenant → hEpoch h = t.epoch → hSerial h ∈ t.revoked → cause = some 0x74) ∧
    (good → hRights h &&& right ≠ right → cause = some 0x72) ∧
    (good → hRights h &&& right = right → off % align ≠ 0 → cause = some 0x43) ∧
    (good → hRights h &&& right = right → off % align = 0 → 2 ^ 41 ≤ off ∨ hLen h < off + len → cause = some 0x73) ∧
    (good → hRights h &&& right = right → off % align = 0 → off < 2 ^ 41 → off + len ≤ hLen h → cause = none) ∧
    (cause = none →
      hValid h = true ∧ hRights h &&& right = right ∧ off % align = 0 ∧ off + len ≤ hLen h ∧ off < 2 ^ 41)

/-- HCHK and HGET (R142, R143): on ctl HCHK reports the code of the first of the six checks of a handle that fails, or 0, and never
traps on the handle; HGET reads field n, and n above 10 is 0x02. On another sequencer HMOV, HCLR, HCHK and HGET are 0x03. -/
def Sys2Proof.Claims.HandleRegisters : Prop :=
  ∀ (d a : BitVec 5) (m : BitVec 8) (n : BitVec 4) (s : State) (v : BitVec 256),
    (s.curSq ≠ .ctl → ∀ i ∈ [Instr.hmov d a, .hclr d, .hchk d a m], exec i s = .next (s.stop (.trap 0x03))) ∧
    (s.curSq ≠ .ctl → n.toNat ≤ 10 → exec (.hget d a n) s = .next (s.stop (.trap 0x03))) ∧
    (10 < n.toNat → exec (.hget d a n) s = .next (s.stop (.trap 0x02))) ∧
    (s.curSq = .ctl → s.scalars [d.toNat] = .ok () → s.handleReg a.toNat = .ok v →
      exec (.hchk d a m) s = .next ((s.put d.toNat (match s.handleCause s.who.tenant v m with
        | none => 0
        | some c => BitVec.ofNat 64 c.toNat) 0).retire 2)) ∧
    (s.curSq = .ctl → s.scalars [d.toNat] = .ok () → s.handleReg a.toNat = .ok v → n.toNat ≤ 10 →
      exec (.hget d a n) s = .next ((s.put d.toNat (BitVec.ofNat 64 (handleField v n.toNat)) 0).retire 2))

/-- The fields of a minted handle read back as they were asked for (Table 17-2, R143). -/
def Sys2Proof.Claims.HandleFields : Prop :=
  ∀ (key : BitVec 256) (base len : Nat) (rights flags epoch : BitVec 8) (fmt tenant ctx slot serial : Nat),
    base < 2 ^ 57 → 1 ≤ len → len ≤ 2 ^ 40 → fmt < 64 → tenant < 1024 → ctx < 4096 → slot < 1024 → serial < 2 ^ 32 →
    let h := makeHandle key base len rights flags fmt tenant ctx slot epoch serial
    handleField h 0 = base ∧ handleField h 1 = len ∧ handleField h 2 = rights.toNat ∧ handleField h 3 = tenant ∧
    handleField h 4 = ctx ∧ handleField h 5 = slot ∧ handleField h 6 = epoch.toNat ∧ handleField h 7 = fmt ∧
    handleField h 8 = flags.toNat ∧ handleField h 9 = serial ∧ handleField h 10 = 1

/-- HLD and HST move 32 bytes between a handle register and memory (R141). The bytes that HST stores are those at the places
that its memory handle and offset reach; every other byte stays. -/
def Obligations.HandleMemory : Prop :=
  ∀ (d a m : BitVec 5) (s s1 : State) (v hv : BitVec 256) (x : Word × Taint) (ls : List Loc) (bs : List Byte),
    s.curSq = .ctl → s.scalars [a.toNat] = .ok () → s.handleReg d.toNat = .ok v → s.handleReg m.toNat = .ok hv → s.src a.toNat = .ok x →
    s.after x.2 = .ok () →
    (s.reach hv rightR (offsetOf x.1 0) 32 32 .read = .ok (s1, ls) → s1.readNow ls = .ok bs →
      exec (.hld d a m) s = .next ((((s1.saw ls).pop [a.toNat]).modCur (fun c => { c with
        handles := c.handles.setIfInBounds d.toNat (BitVec.ofNat 256 (numOf bs)) })).retire 2)) ∧
    (s.reach hv rightW (offsetOf x.1 0) 32 32 .write = .ok (s1, ls) → s1.writable ls = .ok () →
      exec (.hst d a m) s = .next (((s1.pop [a.toNat]).writeNow (ls.zip (bytesOf 32 v.toNat))).retire 2))

/-- HREQ on ctl sends a request under a free tag; a tag in use is 0x27 (R138). HWAIT on ctl collects its answer: the status in
s[a], the handle, or zero where the status is not 0, in h[d], and the tag is free again; it waits while there is no answer, and a
wait on a tag without a request is 0x27 (R139). -/
def Sys2Proof.Claims.MintRequests : Prop :=
  ∀ (h a : BitVec 5) (t : BitVec 3) (s : State) (x y z : Word × Taint) (w v : BitVec 256) (m : MintReq) (st : Nat), s.curSq = .ctl →
    (a.toNat ≤ 28 → s.scalars [a.toNat, a.toNat + 1, a.toNat + 2] = .ok () → s.src a.toNat = .ok x → s.src (a.toNat + 1) = .ok y →
      s.src (a.toNat + 2) = .ok z →
      (Store.find? s.cur.mints t.toNat = none →
        exec (.hreq a t) s = .next (((s.pop [a.toNat, a.toNat + 1, a.toNat + 2]).modCur (fun c => { c with
          mints := Store.put t.toNat ⟨c.nextId, x.1, y.1, z.1, none⟩ c.mints, nextId := c.nextId + 1 })).retire 2)) ∧
      (Store.find? s.cur.mints t.toNat = some m → exec (.hreq a t) s = .next (s.stop (.trap 0x27)))) ∧
    (s.scalars [a.toNat] = .ok () → s.handleReg h.toNat = .ok w →
      (Store.find? s.cur.mints t.toNat = some m → m.answer = some (st, v) →
        exec (.hwait h a t) s = .next ((((s.modCur (fun c => { c with mints := Store.erase t.toNat c.mints })).putHandle h.toNat
          (if st = 0 then v else 0)).put a.toNat (BitVec.ofNat 64 st) 0).retire 2)) ∧
      (Store.find? s.cur.mints t.toNat = some m → m.answer = none → exec (.hwait h a t) s = .next (s.await .other)) ∧
      (Store.find? s.cur.mints t.toNat = none → exec (.hwait h a t) s = .next (s.stop (.trap 0x27))))

/-- MINT_ANSWER, MINT and what the TC answers (R138, R139, R301, R304, R305): of the conditions that refuse a request the first
in the order of R139 gives the status, which is 2 for a reserved bit or a range outside the policy's, 3 for the length and the format, 1
for rights and flags, 4 for a tenant without a key slot, 5 where the serials are used up; a request that meets none is
given a handle with the next serial. -/
def Sys2Proof.Claims.MintAnswers : Prop :=
  ∀ (s : State) (core tag : Nat) (t : Tenant) (q : MintAsk) (m : MintReq) (k : Task) (tenant ctx part : Nat) (driver : Bool),
    (Store.find? s.tenants tenant = some t →
      (s.mintStatus tenant part driver q = 0 → s.mint tenant ctx part driver q =
        ({ s with tenants := Store.put tenant { t with nextSerial := t.nextSerial + 1 } s.tenants }, 0,
          makeHandle t.sealKey q.base q.len q.rights q.flags q.fmt tenant ctx t.slot t.epoch t.nextSerial)) ∧
      (s.mintStatus tenant part driver q ≠ 0 → s.mint tenant ctx part driver q = (s, s.mintStatus tenant part driver q, 0)) ∧
      let last := q.base + Nat.max q.len 1 - 1
      let masks := if driver then (t.policy.mintRights, t.policy.mintFlags) else (t.policy.hreqRights, t.policy.hreqFlags)
      let outside := if q.flags.getLsbD 2 then s.windowRange part q.base last = false
        else 2 ^ 57 ≤ last ∨ ∀ r ∈ t.policy.ranges, q.base < r.1 ∨ r.2 < last
      let badShape := q.len = 0 ∨ 2 ^ 40 < q.len ∨ 10 < q.fmt
      let badRights := q.rights &&& ~~~masks.1 ≠ 0 ∨ q.flags &&& ~~~masks.2 ≠ 0 ∨ excluded q.rights q.flags = true
      let used := 2 ^ 32 ≤ t.nextSerial
      (q.reserved = true ∨ outside → s.mintStatus tenant part driver q = 2) ∧
      (q.reserved = false → ¬outside → badShape → s.mintStatus tenant part driver q = 3) ∧
      (q.reserved = false → ¬outside → ¬badShape → badRights → s.mintStatus tenant part driver q = 1) ∧
      (q.reserved = false → ¬outside → ¬badShape → ¬badRights → used → s.mintStatus tenant part driver q = 5) ∧
      (q.reserved = false → ¬outside → ¬badShape → ¬badRights → ¬used → s.mintStatus tenant part driver q = 0)) ∧
    (Store.find? s.tenants tenant = none → q.reserved = false → q.base + q.len ≤ 2 ^ 57 → q.len ≠ 0 → q.len ≤ 2 ^ 40 → q.fmt ≤ 10 →
      (excluded q.rights q.flags = true → s.mintStatus tenant part driver q = 1) ∧
      (excluded q.rights q.flags = false → s.mintStatus tenant part driver q = 4)) ∧
    (Store.find? (s.core core).mints tag = some m → (s.core core).task = some k → m.answer = none →
      (s.core core).mints.any (fun p => p.2.answer.isNone && p.2.order < m.order) = false →
      exec (.mintAnswer core tag) s = .next (
        let r := s.mint k.tenant k.ctx k.part false (mintAsk m.base m.len m.ask)
        r.1.modCore core (fun c => { c with mints := Store.put tag { m with answer := some (r.2.1, r.2.2) } c.mints, lastActive := s.cycle })))

/-- HREVK and HREVK ALL on ctl begin their sweep and wait, and where the sweep is reported complete write its result: the handle
registers that lost V in bits [31:0] and the copies ended in [63:32], or 2^63 + 1 where it was refused; a serial of more than
32 bits is 0x02 (R144). KROT on ctl writes the new generation where its tenant may rotate, 2^63 + 1 where a rotation
runs and 2^63 + 2 where the policy or the last generation refuses it (R145; for the code of a refusal by policy, log 43). KSTAT on
ctl reads the rotation: selector 0 the generation and its two flags, 1 to 32 the marks of the slices, 33 that of the banks, all
ones for a mark past the end or where no rotation runs; a selector above 33 is 0x02 (R146). -/
def Sys2Proof.Claims.KeyInstructions : Prop :=
  ∀ (d a : BitVec 5) (n : BitVec 10) (s : State) (x : Word × Taint) (id dd : Nat) (pops : Bool) (w : Sweep) (t : Tenant),
    s.curSq = .ctl → s.scalars [d.toNat] = .ok () →
    let result : Word := if w.refused then BitVec.ofNat 64 (2 ^ 63 + 1) else BitVec.ofNat 32 w.copies ++ BitVec.ofNat 32 w.regs
    (s.scalars [d.toNat, a.toNat] = .ok () → s.src a.toNat = .ok x → s.seq.mark = none →
      let r := s.beginSweep s.who.tenant x.1.toNat false true none
      (x.1.toNat < 2 ^ 32 → exec (.hrevk d a) s = .next (r.1.awaitMark .other (.sweep r.2 d.toNat ([a.toNat].contains 31)))) ∧
      (2 ^ 32 ≤ x.1.toNat → exec (.hrevk d a) s = .next (s.stop (.trap 0x02)))) ∧
    (s.seq.mark = none →
      let r := s.beginSweep s.who.tenant 0 true true none
      exec (.hrevkAll d) s = .next (r.1.awaitMark .other (.sweep r.2 d.toNat false))) ∧
    (s.seq.mark = some (.sweep id dd pops) → Store.find? s.sweeps id = some w →
      (w.done = true →
        (s.scalars [d.toNat, a.toNat] = .ok () →
          exec (.hrevk d a) s = .next (((State.pop { s with sweeps := Store.erase id s.sweeps } [a.toNat]).put d.toNat result 0).retire 2)) ∧
        exec (.hrevkAll d) s = .next (((State.pop { s with sweeps := Store.erase id s.sweeps } []).put d.toNat result 0).retire 2)) ∧
      (w.done = false → exec (.hrevkAll d) s = .next (s.await .other))) ∧
    (let r := s.beginRotation s.who.tenant true;
      exec (.krot d) s = .next ((r.1.put d.toNat (match r.2 with
        | .ok g => BitVec.ofNat 64 g
        | .error e => BitVec.ofNat 64 (2 ^ 63 + e)) 0).retire 2) ∧
      (Store.find? s.tenants s.who.tenant = some t →
        (t.rotating = true → r.2 = .error 1) ∧
        (t.rotating = false → t.policy.permitRotate = false ∨ 2 ^ 32 - 1 ≤ t.gen → r.2 = .error 2) ∧
        (t.rotating = false → t.policy.permitRotate = true → t.gen < 2 ^ 32 - 1 → r.2 = .ok (t.gen + 1)))) ∧
    (33 < n.toNat → exec (.kstat d n) s = .next (s.stop (.trap 0x02))) ∧
    (Store.find? s.tenants s.who.tenant = some t →
      exec (.kstat d 0) s = .next ((s.put d.toNat (BitVec.ofNat 64
        (t.gen + (if t.rotating then 2 ^ 32 else 0) + (if t.older then 2 ^ 33 else 0))) 0).retire 2) ∧
      (t.rotating = false → n ≠ 0 → n.toNat ≤ 33 → exec (.kstat d n) s = .next ((s.put d.toNat 0xFFFFFFFF 0).retire 2)) ∧
      (t.rotating = true → n ≠ 0 → n.toNat ≤ 32 →
        exec (.kstat d n) s = .next ((s.put d.toNat (BitVec.ofNat 64 ((Store.find? t.marks (n.toNat - 1)).getD 0xFFFFFFFF)) 0).retire 2)) ∧
      (t.rotating = true → n = 33 → exec (.kstat d n) s = .next ((s.put d.toNat (BitVec.ofNat 64 (s.cur.bankMark.getD 0xFFFFFFFF)) 0).retire 2)))

/-- The system registers of Table 7-11 with their values in a task, but for the neighbours and the axes (R151). -/
def Sys2Proof.Claims.systemRegisters (s : State) (k : Task) : List (BitVec 11 × Nat) := [
  (0x000, s.seq.passes), (0x001, s.cur.fpmode.toNat), (0x002, s.cur.fpflags.toNat), (0x003, k.number.toNat), (0x004, k.member),
  (0x005, k.gangSize), (0x006, k.ctx), (0x007, k.tenant), (0x008, s.curCore), (0x009, k.group.rank), (0x00A, k.group.size),
  (0x00B, k.group.gen.toNat), (0x00C, Config.moduleId.toNat), (0x020, k.queue), (0x021, k.prio)]

/-- GETS and SETS (R151): a GETS of each register that Table 7-11 lists completes with its value and an empty taint set;
FPMODE and FPFLAGS outside ex are 0x03; a SETS of them in ex takes the value, and a SETS of any other register is 0x02. -/
def Sys2Proof.Claims.SystemRegisters : Prop :=
  ∀ (a : BitVec 5) (r : BitVec 11) (s : State) (x : Word × Taint) (k : Task), s.scalars [a.toNat] = .ok () → s.src a.toNat = .ok x →
    let reads := fun (r : BitVec 11) (v : Nat) => exec (.gets a r) s = .next ((s.put a.toNat (BitVec.ofNat 64 v) 0).retire 2)
    (s.cur.task = some k →
      (∀ p ∈ Claims.systemRegisters s k, (p.1 ≠ 1 ∧ p.1 ≠ 2) ∨ s.curSq = .ex → reads p.1 p.2) ∧
      (∀ i : Nat, i < 8 → reads (BitVec.ofNat 11 (0x010 + i)) (k.group.neighbours.getD i 0xFFFF)) ∧
      (∀ i : Nat, i < 4 → reads (BitVec.ofNat 11 (0x018 + i)) (k.group.axes.getD i 1))) ∧
    (wfSysReg r = false → exec (.gets a r) s = .next (s.stop (.trap 0x02))) ∧
    (r = 1 ∨ r = 2 → s.curSq ≠ .ex → exec (.gets a r) s = .next (s.stop (.trap 0x03)) ∧ exec (.sets a r) s = .next (s.stop (.trap 0x03))) ∧
    (s.curSq = .ex → x.1.toNat < 4 → exec (.sets a 1) s = .next (((s.pop [a.toNat]).modCur (fun c => { c with fpmode := x.1.extractLsb' 0 2 })).retire 2)) ∧
    (s.curSq = .ex → x.1.toNat < 32 → exec (.sets a 2) s = .next (((s.pop [a.toNat]).modCur (fun c => { c with fpflags := x.1.extractLsb' 0 5 })).retire 2)) ∧
    (r ≠ 1 → r ≠ 2 → exec (.sets a r) s = .next (s.stop (.trap 0x02)))

/-- YIELD, CLK and ENRG (R152): ENRG reads the energy counter of a queue of its own context, or of the launching queue. The model's own choices in it: log 19, 38. -/
def Sys2Proof.Claims.SystemReads : Prop :=
  ∀ (a : BitVec 5) (q : BitVec 6) (s : State) (x : Queue), s.scalars [a.toNat] = .ok () →
    exec (.clk a 0) s = .next ((s.put a.toNat (BitVec.ofNat 64 s.cycle) 0).retire 2) ∧
    exec (.clk a 1) s = .next ((s.put a.toNat (BitVec.ofNat 64 (s.cycle * 10 / 17)) 0).retire 2) ∧
    (s.curSq = .ctl → exec (.yield a) s = .next ((s.put a.toNat
      (if s.ctxs.any (fun (c : Nat × Context) => c.2.part == s.who.part && c.2.draining.isSome) then 1 else 0) 0).retire 2)) ∧
    (s.curSq ≠ .ctl → exec (.yield a) s = .next (s.stop (.trap 0x03)) ∧ exec (.enrg a 0 q) s = .next (s.stop (.trap 0x03))) ∧
    (s.curSq = .ctl → Store.find? s.queues (64 * s.who.tenant + q.toNat) = some x → x.ctx = s.who.ctx →
      exec (.enrg a 0 q) s = .next ((s.put a.toNat (BitVec.ofNat 64 x.energy) 0).retire 2)) ∧
    (∀ k, s.curSq = .ctl → s.cur.task = some k → Store.find? s.queues (64 * s.who.tenant + k.queue) = some x → x.ctx = s.who.ctx →
      exec (.enrg a 1 0) s = .next ((s.put a.toNat (BitVec.ofNat 64 x.energy) 0).retire 2)) ∧
    (s.curSq = .ctl → Store.find? s.queues (64 * s.who.tenant + q.toNat) = some x → x.ctx ≠ s.who.ctx →
      exec (.enrg a 0 q) s = .next (s.stop (.trap 0x41)))

/-- LAUNCH refuses with the codes of R147 and otherwise writes the record's 256 bytes to the ring, appends it and answers its
ring index (R147). That a queue which is both in ERROR and full answers code 3 is the model's choice, since R147 orders neither:
log 43. -/
def Obligations.LaunchAnswers : Prop :=
  ∀ (d a h : BitVec 5) (s s1 : State) (hv : BitVec 256) (n x : Word × Taint) (ls : List Loc) (bs : List Byte) (q : Queue),
    s.curSq = .ctl → a.toNat ≤ 29 → s.scalars [d.toNat, a.toNat, a.toNat + 1] = .ok () → s.handleReg h.toNat = .ok hv →
    s.src a.toNat = .ok n → s.src (a.toNat + 1) = .ok x →
    s.reach hv rightR (offsetOf x.1 0) 256 256 .read = .ok (s1, ls) → s.after (n.2 ||| x.2) = .ok () → s1.readNow ls = .ok bs →
    let k := n.1.toNat % 64
    let done := fun (t : State) (v : Nat) => Host.Outcome.next (φ := Fault) (ρ := Refusal) (((t.pop [a.toNat, a.toNat + 1]).put d.toNat (BitVec.ofNat 64 v) 0).retire 2)
    (s1.ownQueue k = none → exec (.launch d a h) s = done s1 (2 ^ 63 + 2)) ∧
    (s1.ownQueue k = some q → q.error = true → exec (.launch d a h) s = done s1 (2 ^ 63 + 3)) ∧
    (s1.ownQueue k = some q → q.error = false → q.full = true → exec (.launch d a h) s = done s1 (2 ^ 63 + 1)) ∧
    (∀ s2 rs, s1.ownQueue k = some q → q.error = false → q.full = false →
      s1.locateRange s1.who false .write false (s1.cur.mapping s1.curSq) 2 (q.ringBase + 256 * (q.tail.toNat % 2 ^ q.ringLog)) 256 = .ok (s2, rs) →
      s2.writable rs = .ok () →
      exec (.launch d a h) s = done ((s2.writeLocs (rs.zip bs)).appendRecord (queueKey s.who.tenant k)) q.tail.toNat)

/-- LD is issued (R155, R156, R157, R237): the load stands last among the core's, after the loads its operands name,
after acquires and after what ld has acquired; a local load and one with no destination take no tag, another takes the lowest free tag of T0 to T11, or T15, which
becomes the whole set of its register, or of the entry it reserves in a receive queue. The model's own choices in it: log 15. -/
def Sys2Proof.Claims.Loads : Prop :=
  ∀ (d h a : BitVec 5) (z o : BitVec 2) (sc : BitVec 3) (q : BitVec 1) (lit : BitVec 32) (s s1 : State) (hv : BitVec 256)
      (x : Word × Taint) (ls : List Loc) (bs : List Byte),
    ∀ p ∈ [(Instr.ld d h a z o sc q, 2, (0 : BitVec 32)), (.ldLit d h a z o sc q lit, 4, lit)],
    let off := offsetOf x.1 p.2.2.toInt
    let dest := if q = 1 then LoadDest.queue (Sq.ofNum d.toNat) else if d = 0 then .none else .reg d.toNat
    let req := fun (tag : Option Nat) => LoadReq.mk s.cur.nextId .ld ls dest tag none false false false
      (s.cur.loadsOf (x.2 ||| s.seq.ctlTaint)) (if o = 1 then some sc.toNat else none) s.cur.openAcquires s.cur.floor 0 false
    wfLoad d o sc q = true → s.curSq = .ld → s.scalars (if q = 0 then [d.toNat, a.toNat] else [a.toNat]) = .ok () →
    s.handleReg h.toNat = .ok hv → s.src a.toNat = .ok x → s.reach hv rightR off (2 ^ z.toNat) (2 ^ z.toNat) .read = .ok (s1, ls) →
    s1.readNow ls = .ok bs → s.cur.requests < 1024 → (q = 1 → (s.cur.seqs.get (Sq.ofNum d.toNat)).rq.length < 16) →
    (dest = .none ∨ localAccess s.curCore hv off = true →
      ∃ t, exec p.1 s = .next t ∧ t.cur.loads = s.cur.loads ++ [req none] ∧ t.cur.tags = s.cur.tags ∧ s.sameMemory t) ∧
    (∀ g, dest ≠ .none → localAccess s.curCore hv off = false → s.cur.freeTag 0 11 = some g →
      ∃ t, exec p.1 s = .next t ∧ t.cur.loads = s.cur.loads ++ [req (some g)] ∧ (Store.find? t.cur.tags g).isSome = true ∧
        s.sameMemory t ∧
        (q = 0 → t.seq.set d.toNat = (1 : Taint) <<< g ∧ t.seq.pending[d.toNat]? = some (some s.cur.nextId)) ∧
        (q = 1 → (t.cur.seqs.get (Sq.ofNum d.toNat)).rq = (s.cur.seqs.get (Sq.ofNum d.toNat)).rq ++ [⟨s.cur.nextId, none, (1 : Taint) <<< g⟩])) ∧
    (dest ≠ .none → localAccess s.curCore hv off = false → s.cur.freeTag 0 11 = none → exec p.1 s = .next (s.await .engine))

/-- A load that may read binds the bytes that stood at its places at one time, which nothing that is ordered before the load
follows (R230, R233); its delivery
puts them, zero-extended, where the load goes, and its performing takes the tag that stands for it alone out of every set
(R156, R240). The model's own choices in it: log 14, 15. -/
def Sys2Proof.Claims.LoadEvents : Prop :=
  ∀ (core id : Nat) (s : State) (l : LoadReq) (before : List LoadReq),
    (s.core core).loadAt id = some (l, before) → l.value = none → l.atomic = false → l.delivered = false → l.performed = false →
    (s.core core).blocked l.deps = false → l.locs.any s.unverified = false → firstCause s.readCause l.locs = none →
    before.any (fun x => x.sq == l.sq && (!x.delivered || x.value.isNone)) = false →
    let v : Word := BitVec.ofNat 64 (numOf (l.locs.map (s.readAsOf (s.readTime core l.floor l.locs))))
    (∃ t, exec (.loadValueDelivery core id) s = .next t ∧ s.sameMemory t ∧ (∀ n, n ≠ core → t.core n = s.core n) ∧
      (∀ d, l.dest = .reg d → d < 32 → ((s.core core).seqs.get l.sq).pending[d]? = some (some id) →
        ((t.core core).seqs.get l.sq).regs[d]? = some v ∧ ((t.core core).seqs.get l.sq).pending[d]? = some none) ∧
      (∀ q, l.dest = .queue q → ∀ e ∈ ((t.core core).seqs.get q).rq, e.id = id → e.value = some v)) ∧
    (∃ t, exec (.loadPerformed core id) s = .next t ∧ s.sameMemory t ∧ (∀ n, n ≠ core → t.core n = s.core n) ∧
      (∀ x ∈ (t.core core).loads, x.id = id → x.performed = true ∧ x.value = some v) ∧
      (∀ g, Store.find? (s.core core).tags g = some [id] → ∀ q i,
        (((t.core core).seqs.get q).set i).getLsbD g = false ∧ ((t.core core).seqs.get q).ctlTaint.getLsbD g = false ∧
        ∀ e ∈ ((t.core core).seqs.get q).rq, e.taint.getLsbD g = false))

/-- ST and SIGADD put one request into st's queue, which memory does not see until it performs (R158, R165); a plain store
that performs writes its bytes at its places and nothing else. The model's own choices in it: log 14. -/
def Sys2Proof.Claims.Stores : Prop :=
  ∀ (d h a : BitVec 5) (z o : BitVec 2) (sc : BitVec 3) (lit : BitVec 32) (s s1 : State) (hv : BitVec 256) (x v : Word × Taint) (ls : List Loc),
    s.curSq = .st → s.scalars [d.toNat, a.toNat] = .ok () → s.handleReg h.toNat = .ok hv → s.src a.toNat = .ok x → s.src d.toNat = .ok v →
    s.cur.requests < 1024 →
    let deps := s.cur.loadsOf (x.2 ||| v.2 ||| s.seq.ctlTaint)
    let issued := fun (s1 : State) (n : Nat) (k : StoreKind) =>
      Host.Outcome.next (φ := Fault) (ρ := Refusal) ((State.pop (State.carry (s1.setCur { s1.cur with nextId := s1.cur.nextId + 1, stores := s1.cur.stores ++ [⟨s1.cur.nextId, .st, ls, k, deps⟩] }) s1.curCore s1.curSq) [d.toNat, a.toNat]).retire n)
    let data := bytesOf (2 ^ z.toNat) v.1.toNat
    (wfStore o sc = true → ∀ p ∈ [(Instr.st d h a z o sc, 2, (0 : BitVec 32)), (.stLit d h a z o sc lit, 4, lit)],
      s.reach hv rightW (offsetOf x.1 p.2.2.toInt) (2 ^ z.toNat) (2 ^ z.toNat) .write = .ok (s1, ls) →
      exec p.1 s = issued s1 p.2.1 (if o = 0 then .plain data else if o = 1 then .release sc.toNat data
        else if o = 2 then .combining data else .streaming data)) ∧
    (∀ bs, s.reach hv (rightR ||| rightW ||| rightA) (offsetOf x.1 0) 8 8 .atomic = .ok (s1, ls) → s1.readNow ls = .ok bs →
      exec (.sigadd d a h) s = issued s1 2 (.signal v.1))

/-- A store that may perform does what its kind says at its places, and leaves every other byte of memory (R158, R162,
R165): bytes are written, a signal grows by s[d] modulo 2^64, an atomic's new value is that of Table 9-2 and its old value
goes to the load that returns it. The model's own choices in it: log 14. -/
def Sys2Proof.Claims.StorePerforms : Prop :=
  ∀ (core id : Nat) (s : State) (x : StoreReq) (bs : List Byte),
    (s.core core).stores.find? (fun y => y.id == id) = some x → s.storeReady (s.core core) x = true →
    (match x.kind with
      | .plain d | .combining d | .streaming d | .release _ d => bs = d
      | .signal v => bs = bytesOf 8 (numOf (s.readLocs x.locs) + v.toNat)
      | .atomic op y z _ => bs = bytesOf x.locs.length (atomResult op x.locs.length (BitVec.ofNat 64 (numOf (s.readLocs x.locs))) y z).toNat) →
    (x.kind.reads = true → firstCause s.readCause x.locs = none) →
    ∃ t, exec (.storePerformed core id) s = .next t ∧ s.sameMemoryBut t x.locs ∧ (∀ y ∈ (t.core core).stores, y.id ≠ id) ∧
      (s.memoryWf = true → x.locs.length = bs.length → (x.locs.map s.cell).Nodup → x.locs.all Loc.isMemory = true → Loc.discarded ∉ x.locs → t.readLocs x.locs = bs) ∧
      (∀ op y z r, x.kind = .atomic op y z (some r) →
        ∀ l ∈ (t.core core).loads, l.id = r → l.value = some (BitVec.ofNat 64 (numOf (s.readLocs x.locs))) ∧ l.performed = true)

/-- The atomics (Table 9-2, R162, R163): each puts its operation, with its operands, into st's queue; with d = 0 and no load
for its old value, and locally with a load that takes no tag. The model's own choices in it: log 6. -/
def Sys2Proof.Claims.Atomics : Prop :=
  ∀ (d h a : BitVec 5) (sc : BitVec 3) (w : BitVec 1) (s s1 : State) (hv : BitVec 256) (x y z : Word × Taint) (ls : List Loc) (bs : List Byte),
    ∀ p ∈ [(Instr.aadd d h a sc w, AtomOp.add), (.aand d h a sc w, .and), (.aor d h a sc w, .or), (.axor d h a sc w, .xor),
      (.amin d h a sc w, .min), (.amax d h a sc w, .max), (.aminu d h a sc w, .minu), (.amaxu d h a sc w, .maxu),
      (.aswp d h a sc w, .swap), (.acas d h a sc w, .cas)],
    let cas := p.2 = AtomOp.cas
    let rs := [a.toNat, a.toNat + 1] ++ (if cas then [a.toNat + 2] else [])
    let n := if w = 1 then 8 else 4
    let y' := if cas then y else (0, 0)
    let deps := s.cur.loadsOf (z.2 ||| x.2 ||| y'.2 ||| s.seq.ctlTaint)
    let id := s.cur.nextId
    wfScope sc = true → wfGroup a (if cas then 2 else 1) = true → s.curSq = .st → s.scalars (d.toNat :: rs) = .ok () →
    s.handleReg h.toNat = .ok hv → s.src a.toNat = .ok z → s.src (a.toNat + 1) = .ok x → (cas → s.src (a.toNat + 2) = .ok y) →
    s.reach hv rightA (offsetOf z.1 0) n n .atomic = .ok (s1, ls) → s1.readNow ls = .ok bs → s.cur.requests < 1024 →
    (d = 0 → ∃ t, exec p.1 s = .next t ∧ t.cur.stores = s.cur.stores ++ [⟨id, .st, ls, .atomic p.2 x.1 y'.1 none, deps⟩] ∧
      t.cur.loads = s.cur.loads ∧ s.sameMemory t) ∧
    (d ≠ 0 → localAccess s.curCore hv (offsetOf z.1 0) = true → ∃ t, exec p.1 s = .next t ∧
      t.cur.stores = s.cur.stores ++ [⟨id + 1, .st, ls, .atomic p.2 x.1 y'.1 (some id), deps⟩] ∧
      t.cur.loads = s.cur.loads ++ [⟨id, .st, [], .reg d.toNat, none, none, false, false, true, deps, none, [], s.cur.floor, 0, false⟩] ∧ s.sameMemory t) ∧
    (d ≠ 0 → localAccess s.curCore hv (offsetOf z.1 0) = false → ∀ g, s.cur.freeTag 12 14 = some g → ∃ t, exec p.1 s = .next t ∧
      t.cur.stores = s.cur.stores ++ [⟨id + 1, .st, ls, .atomic p.2 x.1 y'.1 (some id), deps⟩] ∧
      t.cur.loads = s.cur.loads ++ [⟨id, .st, [], .reg d.toNat, some g, none, false, false, true, deps, none, [], s.cur.floor, 0, false⟩] ∧ s.sameMemory t) ∧
    (∀ m u r : Word, atomResult p.2 8 m u r = (match p.2 with
      | .add => m + u | .and => m &&& u | .or => m ||| u | .xor => m ^^^ u
      | .min => if m.toInt < u.toInt then m else u | .max => if m.toInt < u.toInt then u else m
      | .minu => if m.toNat < u.toNat then m else u | .maxu => if m.toNat < u.toNat then u else m
      | .swap => u | .cas => if m = u then r else m))

/-- SIGWAIT, once no earlier load of ld from the signal is still to be read, answers the value it observed once the relation holds, waits while it does not, and in its strict form traps
with 0xA4 on a negative value, leaving s[d] (R166). The model's own choices in it: log 14. -/
def Sys2Proof.Claims.SignalWaits : Prop :=
  ∀ (d a h : BitVec 5) (t : BitVec 1) (s s1 : State) (hv : BitVec 256) (x y : Word × Taint) (ls : List Loc) (bs : List Byte),
    s.curSq = .ld → s.scalars [d.toNat, a.toNat] = .ok () → s.handleReg h.toNat = .ok hv → s.src a.toNat = .ok x → s.src d.toNat = .ok y →
    s.reach hv rightR (offsetOf x.1 0) 8 8 .read = .ok (s1, ls) → s1.cur.inWay .ld ls = false → s1.readNow ls = .ok bs →
    let v : Word := BitVec.ofNat 64 (numOf bs)
    (t = 1 → v.toInt < 0 → ∀ r, wfSignalRel r = true → exec (.sigwait d a t r h) s = .next (s.stop (.trap 0xA4))) ∧
    (t = 0 ∨ 0 ≤ v.toInt → ∀ p ∈ [((0 : BitVec 3), decide (v = y.1)), (1, decide (v ≠ y.1)), (2, decide (v.toInt < y.1.toInt)),
        (3, decide (v.toInt ≤ y.1.toInt)), (4, decide (y.1.toInt ≤ v.toInt)), (5, decide (y.1.toInt < v.toInt))],
      (p.2 = true → exec (.sigwait d a t p.1 h) s = .next (((s1.saw ls).acquireAll.put d.toNat v 0).retire 2)) ∧
      (p.2 = false → exec (.sigwait d a t p.1 h) s = .next (s.await .signal))) ∧
    exec (.sigwait d a t 6 h) s = .next (s.stop (.trap 0x02)) ∧ exec (.sigwait d a t 7 h) s = .next (s.stop (.trap 0x02))

/-- The order markers (R164, R167, R168, R169): FENCE goes on once the accesses of its kind have performed; the n-th ALIGN k
of one sequencer waits for the n-th of the other, and completes with nothing of either outstanding; TCLR empties sets; QPT
passes the sequencer's quiescent point for every invalidation that is pending. The model's own choices in it: log 11, 16. -/
def Sys2Proof.Claims.OrderMarkers : Prop :=
  ∀ (d : BitVec 5) (e : BitVec 1) (sc : BitVec 3) (i : BitVec 4) (s : State),
    (s.curSq = .ld ∨ s.curSq = .st → wfScope sc = true →
      let loads := s.cur.loads.all (fun l => l.performed || l.sq != s.curSq)
      let stores := s.cur.stores.all (fun x => x.sq != s.curSq)
      (∀ p ∈ [((0 : BitVec 2), loads && stores), (1, loads), (2, stores)],
        (p.2 = true → exec (.fence p.1 sc) s = .next ((if p.1 = 1 then s.fenceLoads else s.fenceStores sc.toNat).retire 2)) ∧ (p.2 = false → exec (.fence p.1 sc) s = .next (s.await .other))) ∧
      exec (.fence 3 sc) s = .next (s.stop (.trap 0x02))) ∧
    (∀ p ∈ [(Sq.ld, Sq.st, s.cur.aligns .ld i.toNat, { s.cur with alignLd := s.cur.alignLd.setIfInBounds i.toNat (s.cur.aligns .ld i.toNat + 1) }),
        (Sq.st, .ld, s.cur.aligns .st i.toNat, { s.cur with alignSt := s.cur.alignSt.setIfInBounds i.toNat (s.cur.aligns .st i.toNat + 1) })],
      s.curSq = p.1 → s.seq.mark = none →
      (s.cur.aligns p.2.1 i.toNat ≤ p.2.2.1 → (s.cur.seqs.get p.2.1).run ≠ .ended →
        exec (.align i) s = .next ((s.setCur p.2.2.2).awaitMark .token (.align i.toNat (p.2.2.1 + 1)))) ∧
      (s.cur.aligns p.2.1 i.toNat ≤ p.2.2.1 → (s.cur.seqs.get p.2.1).run = .ended → exec (.align i) s = .next (s.stop (.trap 0x27))) ∧
      (p.2.2.1 < s.cur.aligns p.2.1 i.toNat → s.cur.quiet .ld = true → s.cur.quiet .st = true →
        exec (.align i) s = .next (((s.setCur p.2.2.2).awaitMark .token (.align i.toNat (p.2.2.1 + 1))).alignPair s.curCore)) ∧
      (p.2.2.1 < s.cur.aligns p.2.1 i.toNat → s.cur.quiet .ld = false ∨ s.cur.quiet .st = false →
        exec (.align i) s = .next ((s.setCur p.2.2.2).awaitMark .token (.align i.toNat (p.2.2.1 + 1))))) ∧
    (s.scalars [d.toNat] = .ok () → ∀ p ∈ [(Instr.tclr d e, 1), (.tclrL d e, 2)],
      exec p.1 s = .next (((if e = 1 then s.modCur (fun c => c.loosen s.seq.ctlTaint) else s).modSeq (fun x =>
        { x with taint := x.taint.setIfInBounds d.toNat 0, ctlTaint := if e = 1 then 0 else x.ctlTaint })).retire p.2)) ∧
    (∀ p ∈ [(Instr.qpt, 1), (.qptL, 2)],
      (s.cur.invals = [] → exec p.1 s = .next (s.retire p.2)) ∧
      (s.cur.invals ≠ [] → s.curSq ≠ .ex ∨ (s.cur.me.active = none ∧ s.cur.me.pendingOp = none) →
        exec p.1 s = .next (((s.modCur (fun c => { c with
          invals := c.invals.map (fun v => { v with passed := v.passed.set s.curSq true }) })).retire p.2).settleInval s.curCore)) ∧
      (s.cur.invals ≠ [] → s.curSq = .ex → s.cur.me.active ≠ none → exec p.1 s = .next (s.await .other)))

/-- PREF writes nothing but a die's TLB, checks every condition of the handle but its bounds, and traps with 0x43 on a misaligned
offset (R154, R161). The model's own choices in it: log 17. -/
def Sys2Proof.Claims.Prefetches : Prop :=
  ∀ (h a : BitVec 5) (z : BitVec 2) (lit : BitVec 32) (s : State) (hv : BitVec 256) (x : Word × Taint),
    s.curSq = .ld → s.scalars [a.toNat] = .ok () → s.handleReg h.toNat = .ok hv → s.src a.toNat = .ok x →
    ∀ p ∈ [(Instr.pref h a z, 2, (0 : BitVec 32)), (.prefLit h a z lit, 4, lit)],
      let right := if needM s.who.core hv (offsetOf x.1 p.2.2.toInt) 1 then rightR ||| rightM else rightR
      (s.handleCause s.who.tenant hv right = none → offsetOf x.1 p.2.2.toInt % 2 ^ z.toNat ≠ 0 → exec p.1 s = .next (s.stop (.trap 0x43))) ∧
      (s.handleCause s.who.tenant hv right = none → offsetOf x.1 p.2.2.toInt % 2 ^ z.toNat = 0 →
        s.cur.loads.any (fun l => l.acquire.isSome && !l.performed) = false →
        ∃ t : State, t = { s with dies := t.dies } ∧ exec p.1 s = .next (t.retire p.2.1)) ∧
      (∀ c, s.handleCause s.who.tenant hv right = some c → exec p.1 s = .next (s.stop (.trap c)))

/-- SPL stores a register whose set is empty into its slot, waits where the set is not, and FIL brings a slot back with an
empty set, each after its sequencer's earlier accesses to the slot; without 0x400 bytes of scratchpad each is 0x26 (R170, R171). -/
def Sys2Proof.Claims.Spills : Prop :=
  ∀ (d i : BitVec 5) (s : State) (x : Word × Taint) (bs : List Byte), s.scalars [d.toNat] = .ok () → s.src d.toNat = .ok x →
    let slot := (List.range 8).map (fun j => Loc.win s.curCore (s.cur.decl.scratch - 0x400 + 0x100 * s.curSq.num + 8 * i.toNat + j))
    (s.cur.decl.scratch < 0x400 → exec (.spl d i) s = .next (s.stop (.trap 0x26)) ∧ exec (.fil d i) s = .next (s.stop (.trap 0x26))) ∧
    (0x400 ≤ s.cur.decl.scratch →
      (x.2 = 0 → slot.any s.unverified = false → s.cur.inWay s.curSq slot = false →
        exec (.spl d i) s = .next ((((s.pop [d.toNat]).writeNow (slot.zip (bytesOf 8 x.1.toNat))).spills slot).retire 1)) ∧
      (x.2 ≠ 0 → exec (.spl d i) s = .next (s.await .other)) ∧
      (s.cur.inWay s.curSq slot = false → s.readNow slot = .ok bs → exec (.fil d i) s = .next ((((s.saw slot).spills slot).put d.toNat (BitVec.ofNat 64 (numOf bs)) 0).retire 1)))

/-- CESH writes one field of a slot, within the limits of R173, and 0x02 otherwise with nothing written. The model's own choices in it: log 22. -/
def Sys2Proof.Claims.ShapeFields : Prop :=
  ∀ (a : BitVec 5) (i y : BitVec 4) (s : State) (x : Word × Taint),
    s.curSq = .ld ∨ s.curSq = .st → s.scalars [a.toNat] = .ok () → s.src a.toNat = .ok x →
    let done := fun (g : Shape → Shape) => Host.Outcome.next (φ := Fault) (ρ := Refusal)
      (((s.pop [a.toNat]).modCur (fun c => { c with shapes := modAt c.shapes y.toNat g })).retire 2)
    let n := x.1.toNat
    (n < 2 ^ 20 → 1 ≤ n % 16 → n % 16 ≤ 10 → n / 16 % 16 ≤ 4 → n / 256 % 64 ≤ 10 → n / 2 ^ 14 ≤ 10 →
      exec (.cesh a 0 15 y) s = done (fun p => { p with ctl := x.1 })) ∧
    (n % 16 = 0 ∨ 10 < n % 16 ∨ 4 < n / 16 % 16 ∨ 10 < n / 256 % 64 ∨ 10 < n / 2 ^ 14 % 64 →
      exec (.cesh a 0 15 y) s = .next (s.stop (.trap 0x02))) ∧
    (i.toNat < 10 →
      (1 ≤ n → n < 2 ^ 32 → exec (.cesh a 0 i y) s = done (fun p => { p with dims := modAt p.dims i.toNat (fun d => { d with extent := x.1 }) })) ∧
      (n = 0 ∨ 2 ^ 32 ≤ n → exec (.cesh a 0 i y) s = .next (s.stop (.trap 0x02))) ∧
      (-(2 ^ 47) ≤ x.1.toInt → x.1.toInt < 2 ^ 47 →
        exec (.cesh a 1 i y) s = done (fun p => { p with dims := modAt p.dims i.toNat (fun d => { d with sstride := x.1 }) }) ∧
        exec (.cesh a 2 i y) s = done (fun p => { p with dims := modAt p.dims i.toNat (fun d => { d with dstride := x.1 }) })) ∧
      (x.1.toInt < -(2 ^ 47) ∨ 2 ^ 47 ≤ x.1.toInt →
        exec (.cesh a 1 i y) s = .next (s.stop (.trap 0x02)) ∧ exec (.cesh a 2 i y) s = .next (s.stop (.trap 0x02))))

/-- CWAIT goes on once the completion counter has reached its goal within half the range, waits while a copy or a collective
can still add to it, and traps with 0x27 where none can; CCNT and CSTAT read, and CSTAT clears what it has read (R186,
Table 9-6). -/
def Sys2Proof.Claims.CompletionCounts : Prop :=
  ∀ (a d : BitVec 5) (n : BitVec 10) (s : State) (x : Word × Taint), s.scalars [a.toNat] = .ok () → s.scalars [d.toNat] = .ok () →
    s.src a.toNat = .ok x →
    let goal : BitVec 32 := BitVec.ofNat 32 (x.1.toNat + n.toNat)
    let more := s.cur.copies.any (fun k => litKind k.lit == 4) || s.cur.colls.any (fun (p : Nat × Coll) => p.2.ended.isNone && litKind p.2.lit == 4)
    ((s.cur.ccnt - goal).toNat < 2 ^ 31 → exec (.cwait a n) s = .next (((s.pop [a.toNat]).joinObject 64).retire 2)) ∧
    (2 ^ 31 ≤ (s.cur.ccnt - goal).toNat → more = true → exec (.cwait a n) s = .next (s.await .other)) ∧
    (2 ^ 31 ≤ (s.cur.ccnt - goal).toNat → more = false → exec (.cwait a n) s = .next (s.stop (.trap 0x27))) ∧
    exec (.ccnt d) s = .next ((s.put d.toNat (s.cur.ccnt.zeroExtend 64) 0).retire 2) ∧
    exec (.cstat d) s = .next (((s.modSeq (fun q => { q with abnormal := 0, firstSeq := 0, firstStatus := 0 })).put d.toNat
      (BitVec.ofNat 64 (s.seq.abnormal * 2 ^ 48 + s.seq.firstSeq.toNat * 2 ^ 16 + s.seq.firstStatus.toNat)) 0).retire 2) ∧
    exec (.cstatIssued d) s = .next ((s.put d.toNat (s.seq.issued.zeroExtend 64) 0).retire 2)

/-- A copy that passes the checks of R174, in their order, is put into the copy engine with what it captured at issue,
and touches no memory yet; where the only failure was a revoked serial it is accepted with status 0x74. The model's own choices in it: log 26. -/
def Obligations.CopyIssues : Prop :=
  ∀ (hd hs : BitVec 5) (y : BitVec 4) (a : BitVec 5) (lit : BitVec 32) (s : State) (v0 v1 : Word × Taint) (dst src : BitVec 256) (r1 r2 : Bool),
    ∀ p ∈ [(Instr.cpy hd hs y a lit, CopyMode.cpy), (.cpyin hd hs y a lit, .cpyin), (.cpyout hd hs y a lit, .cpyout), (.cpyz hd y a lit, .cpyz),
      (.cpycv hd hs y a lit, .cpycv), (.gather hd hs y a lit, .gather), (.scatter hd hs y a lit, .scatter)],
    let mode := p.2
    let sh := s.cur.shapes[y.toNat]?.getD Shape.unset
    let es := sh.extents
    let indexed := mode == .gather || mode == .scatter
    let reg0 := if mode = .cpyz ∨ indexed then 0 else v0.1.toNat
    let reg1 := if mode = .cpyout then v1.1.toNat % 2 ^ 48 else v1.1.toNat
    let soff : Nat := if mode = .gather then 0 else if mode = .scatter then reg1 else reg0
    let doff : Nat := if mode = .scatter then 0 else reg1
    let sides := copySides mode sh dst src soff doff
    let rights := copyRights mode dst src
    wfGroup a 1 = true → mode.sequencers.contains s.curSq = true → s.scalars [a.toNat, a.toNat + 1] = .ok () →
    s.handleReg hd.toNat = .ok dst → (mode ≠ .cpyz → s.handleReg hs.toNat = .ok src) → (mode = .cpyz → src = 0) →
    s.cur.copies.length < 512 → s.src a.toNat = .ok v0 → s.src (a.toNat + 1) = .ok v1 →
    goodLiteral s.curSq lit = true → sh.ndim ≠ 0 → (∀ e ∈ es, e ≠ 0) → (indexed = true → sh.ndim = 2) →
    (if mode = .cpycv then sh.esz = 1 ∧ goodPair (copyCodes mode sh dst src).1 (copyCodes mode sh dst src).2 = true else sh.sfmt = 0 ∧ sh.dfmt = 0) →
    (if mode = .cpyz then r1 = false else s.copyHandle sides.1 es rights.1 (mode == .cpyout) false = .ok r1) → s.copyHandle sides.2 es rights.2 (mode == .cpyin) r1 = .ok r2 →
    (mode ≠ .cpyz → sides.1.aligned es = true ∧ sides.1.inBounds es = true ∧ s.sideCause sides.1 es = none) →
    sides.2.aligned es = true → sides.2.inBounds es = true → s.sideCause sides.2 es = none → reg0 < 2 ^ 41 → reg1 < 2 ^ 41 →
    (indexed = true → v0.1.toNat + 4 * es.getD 1 0 ≤ s.cur.decl.scratch) →
    product es ≤ 2 ^ 40 → (mode = .cpyin ∨ mode = .cpyout → product es * sh.esz ≤ 2 ^ 24) → s.completionCause lit = none →
    ∃ t k, exec p.1 s = .next t ∧ t.cur.copies = s.cur.copies ++ [k] ∧ k.id = s.cur.nextId ∧ k.mode = mode ∧ k.sq = s.curSq ∧
      k.issue = s.seq.issued ∧ k.lit = lit ∧ k.dst = dst ∧ k.src = src ∧ k.soff = soff ∧ k.doff = doff ∧ k.shape = sh ∧ k.next = 0 ∧
      k.status = (if r2 then 0x74 else 0) ∧ t.seq.issued = s.seq.issued + 1 ∧ s.sameMemory t ∧
      (∀ l ∈ s.cur.loads, l.performed = false → l.sq = s.curSq → l.id ∈ k.loadDeps) ∧ (∀ x ∈ s.cur.stores, x.sq = s.curSq → x.id ∈ k.storeDeps)

/-- One element of CPY, GATHER, SCATTER or CPYCV: the bytes at its place in the source are to stand at its place in the
destination, for CPYCV converted and rounded to nearest even (R66, R176, R178, R180). The place is the offset plus the index
tuple times the strides, but on the side that the index array names the row's 32-bit index times stride 1 plus the first coordinate times
stride 0; the index is read with each element (log 43), and one out of bounds ends the copy with 0x73. Where an earlier element
has written its source, either those bytes or the older ones are taken (log 25). CPYZ reads nothing and its bytes are zeros. -/
def Sys2Proof.Claims.CopyElements : Prop :=
  ∀ (s s1 s2 : State) (n : Nat) (k : Copy) (rl wl : List Loc) (ib bs : List Byte),
    let es := k.shape.extents
    let cs := coords es k.next
    let row := numOf ib
    let indexed := k.mode = .gather ∨ k.mode = .scatter
    let named := fun (st : List Int) => (row : Int) * st.getD 1 0 + (cs.headD 0 : Nat) * st.headD 0
    let so : Int := if k.mode = .gather then named k.shape.sstrides else k.soff + strideSum cs k.shape.sstrides
    let dof : Int := if k.mode = .scatter then named k.shape.dstrides else k.doff + strideSum cs k.shape.dstrides
    let codes := copyCodes k.mode k.shape k.dst k.src
    let sz := if k.mode = .cpycv then (codeBytes codes.1, codeBytes codes.2) else (k.shape.esz, k.shape.esz)
    let m := s.copyMapping n k
    let done := fun (bs : List Byte) => { k with next := k.next + 1, touched := true, staged := k.staged ++ (wl.zipIdx.zip bs).map (fun p =>
      (((hBase k.dst + dof.toNat + p.1.2 : Nat) : Int) / 32, p.1.1, p.2)) }
    k.mode ≠ .cpyin → k.mode ≠ .cpyout → (k.mode = .cpycv → kbfOf codes.1 = none ∧ kbfOf codes.2 = none) →
    (indexed → s.engineRead ((List.range 4).map (fun i => .win n (k.extra.toNat + 4 * cs.getD 1 0 + i))) = .ok ib) →
    (indexed → k.sides.1.indexed = true → k.sides.1.rowFits es row = false → s.transferUnit n k = .ok (s, { k with status := 0x73, next := k.units, touched := true })) ∧
    (indexed → k.sides.2.indexed = true → k.sides.2.rowFits es row = false → s.transferUnit n k = .ok (s, { k with status := 0x73, next := k.units, touched := true })) ∧
    ((k.mode = .gather → k.sides.1.rowFits es row = true ∧ s.rowCause n k.sides.1 es row = none) →
      (k.mode = .scatter → k.sides.2.rowFits es row = true ∧ s.rowCause n k.sides.2 es row = none) →
      (k.mode ≠ .cpyz → s.engineLocate n k.src so.toNat sz.1 .read true m = .ok (s1, rl) → s1.engineRead rl = .ok bs →
        let own := rl.any (fun l => k.staged.any (fun b => b.2.1 == l))
        let u := if own then (s1.observed s1.writes rl).draw else s1.observed s1.writes rl
        u.engineLocate n k.dst dof.toNat sz.2 .write true m = .ok (s2, wl) → s2.engineMay wl = .ok () →
        ∃ taken, (taken = bs ∨ (own = true ∧ taken = k.readsOwn rl bs)) ∧
          s.transferUnit n k = .ok (s2, done (if k.mode = .cpycv then bytesOf sz.2 (convertCode codes.1 codes.2 (numOf taken)) else taken))) ∧
      (k.mode = .cpyz → (s.observed s.writes []).engineLocate n k.dst dof.toNat k.shape.esz .write true m = .ok (s2, wl) → s2.engineMay wl = .ok () →
        s.transferUnit n k = .ok (s2, done (List.replicate k.shape.esz 0))))

/-- CPYCV to KBF (R51, R66, R178) takes 32 elements at a time (log 25) and writes the block and its header as the encoder gives
them; from KBF it takes the bytes that hold the element, and the header of its block. -/
def Sys2Proof.Claims.CopyBlocks : Prop :=
  ∀ (s s1 s2 : State) (n : Nat) (k : Copy) (rs ws : List (Int × Loc)) (bs : List Byte) (kf : Nat) (f : FloatFmt), k.mode = .cpycv → k.staged = [] →
    let codes := copyCodes k.mode k.shape k.dst k.src
    let cs := coords k.shape.extents k.next
    let m := s.copyMapping n k
    let line := fun (h : BitVec 256) (o : Int) (z : Nat) => [(o.toNat, z), (hLen h / (z + 2) * z + 2 * (o.toNat / z), 2)]
    let at' := fun (off : Nat) (st : List Int) (cs : List Nat) => (off : Int) + strideSum cs st
    let inBlock := fun (off z : Nat) (st : List Int) => (off : Int) + (cs.headD 0 / 32 * z : Nat) + strideSum (cs.drop 1) (st.drop 1)
    let done := fun (g : Nat) (bs : List Byte) => { k with next := k.next + g, touched := true, staged := (ws.zip bs).map (fun p => (p.1.1 / 32, p.1.2, p.2)) }
    (kbfOf codes.2 = some kf → kbfOf codes.1 = none → fpOf codes.1 = some f →
      s.sideLocs n k.sides.1 .read m ((List.range 32).map (fun i =>
        ((at' k.soff k.shape.sstrides (coords k.shape.extents (k.next + i))).toNat, codeBytes codes.1))) = .ok (s1, rs) →
      s1.engineRead (rs.map Prod.snd) = .ok bs →
      (s1.observed s1.writes (rs.map Prod.snd)).sideLocs n k.sides.2 .write m (line k.dst (inBlock k.doff (codeBytes codes.2) k.shape.dstrides) (codeBytes codes.2)) = .ok (s2, ws) →
      s2.engineMay (ws.map Prod.snd) = .ok () →
      let b := (kbfEncode kf f ((Crypto.pieces (codeBytes codes.1) bs.length bs).map numOf)).1
      s.transferUnit n k = .ok (s2, done 32 (kbfPack kf b.elems ++ [BitVec.ofNat 8 b.e0, BitVec.ofNat 8 b.e1]))) ∧
    (kbfOf codes.1 = some kf → kbfOf codes.2 = none → fpOf codes.2 = some f →
      let z := codeBytes codes.1
      let o := inBlock k.soff z k.shape.sstrides
      let i := cs.headD 0 % 32
      s.sideLocs n k.sides.1 .read m [(o.toNat + i * z / 32, Nat.max 1 (z / 32)), (hLen k.src / (z + 2) * z + 2 * (o.toNat / z), 2)] = .ok (s1, rs) →
      s1.engineRead (rs.map Prod.snd) = .ok bs →
      (s1.observed s1.writes (rs.map Prod.snd)).sideLocs n k.sides.2 .write m [((at' k.doff k.shape.dstrides cs).toNat, codeBytes codes.2)] = .ok (s2, ws) →
      s2.engineMay (ws.map Prod.snd) = .ok () →
      let held := List.replicate (i * z / 32) (0 : Byte) ++ bs.take (Nat.max 1 (z / 32))
      let head := bs.drop (Nat.max 1 (z / 32))
      s.transferUnit n k = .ok (s2, done 1 (bytesOf (codeBytes codes.2)
        (kbfDecode kf ⟨(head.getD 0 0).toNat, (head.getD 1 0).toNat, kbfUnpack kf held⟩ i f .rne).1)))

/-- What a copy has read becomes visible by whole granules, but in a page that is being copied: the bytes chosen are written and
no other; the copy keeps the rest (R176, R250, R295). CPYOUT (R182) seals its record under the next counter of its stream: header,
ciphertext and tag; without a stream of the tenant, or with the last counter used, it ends with 0x96. -/
def Sys2Proof.Claims.CopyRecords : Prop :=
  ∀ (s s1 s2 : State) (n : Nat) (k : Copy) (sls dls : List Loc) (bs : List Byte) (f : Int → Bool),
    let bytes := product k.shape.extents * k.shape.esz
    let stream := s.stream k.extra.toNat (((s.core n).task.map Task.tenant).getD 1024) true
    ((s.core n).copy? k.id = some k →
      s.sameMemoryBut (s.flush n k.id f) ((k.staged.filter (fun b => f b.1)).map (fun b => b.2.1)) ∧
      ∀ k', ((s.flush n k.id f).core n).copy? k.id = some k' → k'.staged = k.staged.filter (fun b => !f b.1 || s.granuleHeld k b.1)) ∧
    (stream = none ∨ stream.map Stream.last = some (2 ^ 64 - 1) → s.exportCopy n k = (s, some { k with status := 0x96, next := k.units })) ∧
    (∀ st, stream = some st → st.last ≠ 2 ^ 64 - 1 → s.plainLocs n k k.sides.1 .read k.units 0 [] = (s1, sls, none) →
      s1.engineLocate n k.dst k.doff (bytes + 32) .write true (s1.copyMapping n k) = .ok (s2, dls) → s2.engineRead sls = .ok bs →
      s2.engineMay dls = .ok () → k.mode = .cpyout →
      let head := bytesOf 4 k.extra.toNat ++ bytesOf 8 (st.last + 1) ++ bytesOf 4 bytes
      let ct := Crypto.gcmCrypt st.key (head.take 12) bs
      ∃ t k', s.exportCopy n k = (t, some k') ∧ Store.find? t.streams k.extra.toNat = some { st with last := st.last + 1 } ∧
        k'.next = k.units ∧ k'.status = k.status ∧
        k'.staged.map Prod.snd = dls.zip (head ++ ct ++ Crypto.gcmTag st.key (head.take 12) head ct) ∧ s2.sameMemory t)

/-- COPY_COMPLETION (R15, R183, R184, R186): a copy that has transferred all its elements, or has ended abnormally, is gone, what
it transferred written and its completion object delivered: the counter or the token queue grows, the rill advances after its
earlier fills; an abnormal end is counted in its sequencer's copy status. At a normal end the signal is decremented: 1 is subtracted,
modulo 2^64, from the eight bytes that the task's signal handle gives at the count's offset, and nothing else changes; where that
access fails the task ends (log 23). A copy with bytes for a page that is being copied stays (R295). -/
def Sys2Proof.Claims.CopyEnds : Prop :=
  ∀ (core id : Nat) (s : State) (k : Copy),
    (s.core core).copy? id = some k → k.fault = none → k.landed = false → k.units ≤ k.next → (s.core core).saving = false →
    (k.status ≠ 0 ∨ ((s.core core).copyReady k = true ∧ (k.mode = .cpyin → k.next ≠ 0))) →
    let c := s.core core
    let written := k.staged.map (fun b => b.2.1)
    let gone := fun (t : State) => ∀ x ∈ (t.core core).copies, x.id ≠ k.id
    let s2 := (s.copyWritten core k.id).deliverCopy core { k with staged := [] }
    (s.copyHeld k = true → ∃ t, exec (.copyCompletion core id) s = .next t ∧ s.sameMemory t ∧ (t.core core).copies = c.copies) ∧
    (s.copyHeld k = false → ∃ t, exec (.copyCompletion core id) s = .next t ∧ (litKind k.lit ≠ 1 → gone t) ∧ (litKind k.lit ≠ 1 → litKind k.lit ≠ 3 → s.sameMemoryBut t written) ∧
      (litKind k.lit = 1 → ∀ r w, w = litId k.lit → c.rills[w]? = some (some r) →
        (c.copies.find? (fun x => fillsRill x.lit w) = some k → (∀ x ∈ c.copies, x.landed = false) → r.fill + litCount k.lit ≤ r.count →
          gone t ∧ s.sameMemoryBut t written ∧
          (t.core core).rills[w]? = some (some { r with pptr := (r.pptr + litCount k.lit) % r.count, fill := r.fill + litCount k.lit })) ∧
        (∀ x, c.copies.find? (fun y => fillsRill y.lit w) = some x → x.id ≠ k.id → x.landed = false →
          s.sameMemoryBut t written ∧ (t.core core).rills[w]? = c.rills[w]? ∧ ∃ y ∈ (t.core core).copies, y.id = k.id ∧ y.landed = true)) ∧
      (litKind k.lit = 3 → k.status ≠ 0 → s.sameMemoryBut t written) ∧
      (litKind k.lit = 3 → k.status = 0 → ∀ p, c.task = some p → s.sameMemoryBut s2 written ∧ gone s2 ∧
        (∀ u, s2.decrementBy core p.sigHandle (litCount k.lit) = .ok u → u.sameMemory t) ∧
        (∀ e, s2.decrementBy core p.sigHandle (litCount k.lit) = .error e → core < 512 → (t.core core).task = none) ∧
        ∀ s3 ls, State.serviceReach { s2 with actor := core } ((s2.core core).who core) p.sigHandle (rightR ||| rightW ||| rightA)
            (litCount k.lit) 8 8 .atomic = .ok (s3, ls) →
          firstCause s3.readCause ls = none → s3.waiting = [] → s3.copying ls = false →
          s2.sameMemoryBut t ls ∧ (s3.memoryWf = true → ls.length = 8 → (ls.map s3.cell).Nodup → ls.all Loc.isMemory = true → Loc.discarded ∉ ls →
            t.readLocs ls = bytesOf 8 (numOf (s2.readLocs ls) + 2 ^ 64 - 1))) ∧
      (litKind k.lit = 4 → (t.core core).ccnt = (s.core core).ccnt + BitVec.ofNat 32 (litCount k.lit)) ∧
      (litKind k.lit = 2 → (s.core core).tokenCount (queueOf k.sq.num (litId k.lit)) + litCount k.lit ≤ 65535 → queueOf k.sq.num (litId k.lit) < 12 →
        (t.core core).tokenCount (queueOf k.sq.num (litId k.lit)) = (s.core core).tokenCount (queueOf k.sq.num (litId k.lit)) + litCount k.lit) ∧
      (litKind k.lit = 0 ∨ litKind k.lit = 4 →
        let x := (s.core core).seqs.get k.sq
        let y := (t.core core).seqs.get k.sq
        (k.status = 0 → y.copyStatus = x.copyStatus) ∧
        (k.status ≠ 0 → y.abnormal = Nat.min 65535 (x.abnormal + 1) ∧
          (x.abnormal = 0 → y.firstSeq = k.issue.extractLsb' 0 16 ∧ y.firstStatus = k.status) ∧
          (x.abnormal ≠ 0 → y.firstSeq = x.firstSeq ∧ y.firstStatus = x.firstStatus))))

/-- A decrement (R183) needs the rights R, W and A and a multiple of 8; where nothing keeps the write waiting it subtracts 1, modulo
2^64, from the eight bytes there and changes no other. -/
def Sys2Proof.Claims.Decrements : Prop :=
  ∀ (s s1 : State) (w : Who) (h : BitVec 256) (off : Nat) (ls : List Loc),
    (∀ c, s.accessCause w.tenant h (rightR ||| rightW ||| rightA) off 8 8 = some c → s.decrement w h off = .error c) ∧
    (s.serviceReach w h (rightR ||| rightW ||| rightA) off 8 8 .atomic = .ok (s1, ls) → firstCause s1.readCause ls = none → s1.waiting = [] →
      s1.copying ls = false → ∃ u, s.decrement w h off = .ok u ∧ s1.sameMemoryBut u ls ∧
        (s1.memoryWf = true → ls.length = 8 → (ls.map s1.cell).Nodup → ls.all Loc.isMemory = true → Loc.discarded ∉ ls →
          u.readLocs ls = bytesOf 8 (numOf (s1.readLocs ls) + 2 ^ 64 - 1)))

/-- CPYIN_VERIFY (R179, R181): of an import whose header can be read, an unknown stream gives 0x96 and a bad length 0x92, with
nothing written; where its places can all be reached too, a good tag with a counter above the last gives the plaintext and takes
the counter, and any other record gives 0x92, zeroes every row the copy touches and leaves the stream's counter. The model's own
choices in it: log 24. -/
def Obligations.ImportVerifies : Prop :=
  ∀ (core id : Nat) (s s0 s1 s2 : State) (k : Copy) (hls dls sls : List Loc) (head bs : List Byte),
    (s.core core).copy? id = some k → k.mode = .cpyin → k.next = 0 → k.status = 0 → k.fault = none → k.unverified = [] →
    (s.core core).copyReady k = true → s.importBefore core k = false →
    s.engineLocate core k.src k.soff 16 .read true (s.copyMapping core k) = .ok (s0, hls) → s0.engineRead hls = .ok head →
    let bytes := product k.shape.extents * k.shape.esz
    let stream := s0.stream (numOf (head.take 4)) (((s.core core).task.map Task.tenant).getD 1024) false
    let done := fun (t : State) (st : BitVec 8) => Host.Outcome.next (φ := Fault) (ρ := Refusal) (t.modCore core (fun c =>
      { c.setCopy { k with status := st, next := k.units, touched := true, unverified := [] } with lastActive := t.cycle }))
    (65536 ≤ numOf (head.take 4) ∨ stream = none → exec (.cpyinVerify core id) s = done s0 0x96) ∧
    (∀ st, numOf (head.take 4) < 65536 → stream = some st →
      (numOf (head.drop 12) ≠ bytes → exec (.cpyinVerify core id) s = done s0 0x92) ∧
      (numOf (head.drop 12) = bytes → s0.plainLocs core k k.sides.2 .write k.units 0 [] = (s1, dls, none) →
        s1.engineLocate core k.src k.soff (bytes + 32) .read true (s.copyMapping core k) = .ok (s2, sls) →
        s2.engineRead sls = .ok bs → s2.engineMay dls = .ok () →
        let ct := (bs.drop 16).take bytes
        let seen := s2.observed s2.writes sls
        let good := Crypto.gcmTag st.key (head.take 12) head ct = bs.drop (16 + bytes) ∧ st.last < numOf ((head.drop 4).take 8)
        (good → ∃ t, exec (.cpyinVerify core id) s = done t 0 ∧
          t = { seen.writeEngine core (.flight id) (dls.zip (Crypto.gcmCrypt st.key (head.take 12) ct)) with
            streams := Store.put (numOf (head.take 4)) { st with last := numOf ((head.drop 4).take 8) } s2.streams }) ∧
        (¬good → exec (.cpyinVerify core id) s = done (seen.writeEngine core (.flight id) ((dls.flatMap Loc.rowBytes).map (fun l => (l, 0)))) 0x92)))

/-- Lane i of a row, w bits wide (R190). -/
def Sys2Proof.Claims.lane (w : Nat) (r : BitVec 2048) (i : Nat) : Nat := r.toNat / 2 ^ (w * i) % 2 ^ w

/-- The matrix engine's registers and the masks (Table 11-5, Table 11-6, R208, R211): MXSET writes the shadow set with the
register's taint; MXGET and MXPROG read with an empty set, MXPROG the word that the end of the previous cycle
kept; MXWAIT waits until no operation is outstanding. -/
def Obligations.MatrixRegisters : Prop :=
  ∀ (a : BitVec 5) (r : BitVec 11) (k : BitVec 3) (n : BitVec 10) (s : State) (x : Word × Taint),
    s.curSq = .ex → s.scalars [a.toNat] = .ok () → s.src a.toNat = .ok x →
    (r.toNat ≤ 0x023 → exec (.mxset a r) s = .next (((s.pop [a.toNat]).modCur (fun c => { c with me := { c.me with shadow := c.me.shadow.setIfInBounds r.toNat x.1, shadowTaint := c.me.shadowTaint.setIfInBounds r.toNat x.2 } })).retire 2)) ∧
    (0x023 < r.toNat → exec (.mxset a r) s = .next (s.stop (.trap 0x02))) ∧
    (r.toNat ≤ 0x023 → exec (.mxget a r) s = .next ((s.put a.toNat (s.cur.me.shadow[r.toNat]?.getD 0) 0).retire 2)) ∧
    exec (.mxget a 0x024) s = .next ((s.put a.toNat (match s.cur.me.active with | none => 0 | some o => BitVec.ofNat 64 o.prog) 0).retire 2) ∧
    exec (.mxprog a) s = .next ((s.put a.toNat s.cur.was.mx 0).retire 2) ∧
    s.cur.tick.was.mx = BitVec.ofNat 64 ((if s.cur.me.pendingOp.isSome then 2 ^ 40 else 0) + (match s.cur.me.active with
      | none => 0
      | some o => o.prog % 2 ^ 40 + (match o.fault with
        | some (_, c) => c.toNat * 2 ^ 56 + 2 * 2 ^ 52
        | none => if o.bcast.isSome && !o.met then 3 * 2 ^ 52 else 2 ^ 52))) ∧
    (s.cur.me.active = none → s.cur.me.pendingOp = none → exec .mxwait s = .next (s.retire 2)) ∧
    (s.cur.me.active ≠ none ∨ s.cur.me.pendingOp ≠ none → exec .mxwait s = .next (s.await .engine)) ∧
    exec (.kset k a) s = .next (((s.pop [a.toNat]).modCur (fun c => { c with kmask := c.kmask.setIfInBounds k.toNat x.1 })).retire 2) ∧
    exec (.kgen k a n) s = .next (((s.pop [a.toNat]).modCur (fun c => { c with kmask := c.kmask.setIfInBounds k.toNat (if x.1.toNat + n.toNat < 64 then BitVec.ofNat 64 (2 ^ (x.1.toNat + n.toNat) - 1) else BitVec.allOnes 64) })).retire 2)

/-- MXGO makes an operation pending that captures the shadow set, the masks and the handles, once the checks of R200 pass
(R195, R198); the first two of those checks; it waits while an operation is pending. WLD takes a free buffer for the first block, which
is read after what ex has issued before it, and with BGRP not 0 does nothing (R210). MXABORT leaves the engine idle (R209). The model's own choices in it: log 31. -/
def Obligations.MatrixOperations : Prop :=
  ∀ (s : State) (ah bh : BitVec 256) (k p : Nat), s.curSq = .ex →
    let r := s.cur.me.shadow
    let f := mxFormats r ah bh
    let b := (mxReg r 0x23).toNat
    (s.cur.me.pendingOp = none → mxRegsGood r = true → (mxReg r 0x1C).toNat < s.cur.decl.tiles →
      s.handleReg (mxReg r 0x18).toNat = .ok ah → s.handleReg (mxReg r 0x1A).toNat = .ok bh → mxK f.1 f.2 = some k →
      s.cur.tile (mxReg r 0x1C).toNat = (if f.1 = 1 then .int32 else .fp32) → mxRowsFit r = true →
      (b = 0 ∨ goodMembers b ((s.cur.task.map Task.member).getD 0) ((s.cur.task.map Task.gangSize).getD 1) = true) →
      s.mxOperands r [mxSide r ah 0x19 1 f.1 (mxBytes f.1 k), mxSide r bh 0x1B 2 f.2 (64 * mxBytes f.2 k)] = .ok () →
      ∃ t o, exec .mxgo s = .next t ∧ t.cur.me.pendingOp = some o ∧ t.cur.me.active = s.cur.me.active ∧ t.cur.me.shadow = r ∧
        o.regs = r ∧ o.ah = ah ∧ o.bh = bh ∧ o.fmtA = f.1 ∧ o.fmtB = f.2 ∧ o.prog = 0 ∧ o.met = false ∧ o.fault = none ∧
        o.rowMask = s.cur.mxMask (mxReg r 0x20) ∧ o.colMask = s.cur.mxMask (mxReg r 0x21) ∧ (o.bcast = none ↔ b = 0) ∧ s.sameMemory t ∧
        ∀ q, t.cur.row q = s.cur.row q) ∧
    (s.cur.me.pendingOp ≠ none → exec .mxgo s = .next (s.await .engine)) ∧
    (s.cur.me.pendingOp = none → mxRegsGood r = false → exec .mxgo s = .next (s.stop (.trap 0x02))) ∧
    (s.cur.me.pendingOp = none → mxRegsGood r = true → s.cur.decl.tiles ≤ (mxReg r 0x1C).toNat → exec .mxgo s = .next (s.stop (.trap 0x22))) ∧
    (mxReg r 0x23 ≠ 0 → exec .wld s = .next (s.retire 2)) ∧
    (mxReg r 0x23 = 0 → mxRegsGood r = true → s.handleReg (mxReg r 0x1A).toNat = .ok bh →
      s.cur.handles[(mxReg r 0x18).toNat]?.getD 0 = ah → mxK f.1 f.2 = some k → mxPartner f.2 = some p →
      s.mxOperands r [mxSide r bh 0x1B 2 f.2 (64 * mxBytes f.2 k)] = .ok () → s.cur.me.bufferFree = true →
      ∃ t w, exec .wld s = .next t ∧ t.cur.me = { s.cur.me with preloads := s.cur.me.preloads ++ [w] } ∧ w.handle = bh ∧ w.fmt = f.2 ∧
        w.colBytes = mxBytes f.2 k ∧ w.bytes = [] ∧ w.loadDeps = s.cur.loadsOf (s.cur.me.shadowSets ||| s.seq.ctlTaint) ∧
        (∀ x ∈ s.cur.stores, x.sq = .ex → x.id ∈ w.storeDeps) ∧ s.sameMemory t) ∧
    (∃ t, exec .mxabort s = .next t ∧ t.cur.me.active = none ∧ t.cur.me.pendingOp = none ∧ t.cur.me.preloads = s.cur.me.preloads ∧
      (s.cur.me.pendingOp ≠ none → t.cur.me.taken = none) ∧ (∀ q, t.cur.row q = s.cur.row q) ∧ s.sameMemory t)

/-- ME_OPERATION_START, WEIGHT_BLOCK_FILL and ME_ROW_STEP (R195, R198, R199, R205): a pending operation becomes active when
none is; the next block that the nest needs comes into a free buffer; a row-step whose block is held commits whole, changing
one row of C and RPROG, and the last one completes the operation; a masked row is counted and left as it is. While a SAVE waits none
of them does anything (R149). The model's own choices in it: log 31. -/
def Sys2Proof.Claims.MatrixSteps : Prop :=
  ∀ (core : Nat) (s : State) (o : MeOp), let c := s.core core
    (c.saving = true → c.me.active = some o ∨ c.me.active = none → ∀ i ∈ [Instr.meOperationStart core, .meRowStep core], exec i s = .next s) ∧
    (c.me.active = none → c.saving = true → exec (.weightBlockFill core) s = .next s) ∧
    (c.saving = false → c.me.active = none → c.me.pendingOp = some o → ∃ t, exec (.meOperationStart core) s = .next t ∧
      (t.core core).me.active = some o ∧ (t.core core).me.pendingOp = none ∧ s.sameMemory t) ∧
    (c.me.active = some o → exec (.meOperationStart core) s = .next s) ∧
    (c.me.active = some o → c.opMoves o = true → o.bcast = none → ∀ j off t w, c.me.wanted o = some (j, off) → c.me.canTake o j = true →
      s.readBlock core ⟨o.bh, off, o.fmtB, mxBytes o.fmtB o.k, [], [], [], []⟩ = .ok (t, w) →
      exec (.weightBlockFill core) s = .next (t.modMe core (fun m => m.take o j w))) ∧
    (c.me.active = some o → c.opMoves o = true → s.gated core = false → o.rowActive o.prog = false → ∃ t, exec (.meRowStep core) s = .next t ∧
      (t.core core).me.active = (if mxTotal o.regs ≤ o.prog + 1 then none else some { o with prog := o.prog + 1 }) ∧
      (∀ q, (t.core core).row q = c.row q) ∧ s.sameMemory t) ∧
    (c.me.active = some o → c.opMoves o = true → s.gated core = false → o.rowActive o.prog = true → Store.rising c.rows = true →
      ∀ w s1 ls hs a ah, c.me.latched = some w → holds (some w) o (mxBoff o.regs o.prog) = true →
      s.mxLocs core o.ah o.fmtA (mxAoff o.regs o.prog) (mxBytes o.fmtA o.k) o.k = .ok (s1, ls, hs) →
      s1.engineRead ls = .ok a → s1.engineRead hs = .ok ah →
      let crow := (mxRow o.regs o.prog).toNat
      let r := 64 * (mxReg o.regs 0x1C).toNat + crow
      ∃ t, exec (.meRowStep core) s = .next t ∧
        (t.core core).row r = mxStep o (c.row r) a ah w (mxReg o.regs 0x22 == 1 && !o.written.contains crow) ∧
        (∀ q, q ≠ r → (t.core core).row q = c.row q) ∧ s.sameMemory t ∧
        (mxTotal o.regs ≤ o.prog + 1 → (t.core core).me.active = none) ∧
        (o.prog + 1 < mxTotal o.regs → ∃ o', (t.core core).me.active = some o' ∧ o'.prog = o.prog + 1 ∧ crow ∈ o'.written ∧ o'.regs = o.regs))

/-- The formats of Table 3-1: exponent bits, fraction bits, the k for which 2^-k is the least subnormal, and the default NaN. -/
def Sys2Proof.Claims.layouts : List (FloatFmt × Nat × Nat × Nat × Nat) :=
  [(fp32, 8, 23, 149, 0x7FC00000), (fp16, 5, 10, 24, 0x7E00), (bf16, 8, 7, 133, 0x7FC0)]

/-- A number of a format is finite, a NaN, a signalling NaN, and an infinity with a sign (R43). -/
def Sys2Proof.Claims.finite (eb fb a : Nat) : Prop := a < 2 ^ (1 + eb + fb) ∧ a / 2 ^ fb % 2 ^ eb ≠ 2 ^ eb - 1
def Sys2Proof.Claims.nan (eb fb a : Nat) : Prop := a < 2 ^ (1 + eb + fb) ∧ a / 2 ^ fb % 2 ^ eb = 2 ^ eb - 1 ∧ a % 2 ^ fb ≠ 0
def Sys2Proof.Claims.signals (eb fb a : Nat) : Prop := Claims.nan eb fb a ∧ a.testBit (fb - 1) = false
def Sys2Proof.Claims.inf (eb fb : Nat) (minus : Bool) : Nat := (2 ^ eb - 1) * 2 ^ fb + (if minus then 2 ^ (eb + fb) else 0)

/-- The value of a finite number in units of the least subnormal (R43, Table 3-1). -/
def Sys2Proof.Claims.units (eb fb a : Nat) : Int :=
  let x := a / 2 ^ fb % 2 ^ eb
  let n : Int := ((if x = 0 then a % 2 ^ fb else (2 ^ fb + a % 2 ^ fb) * 2 ^ (x - 1) : Nat) : Int)
  if a.testBit (eb + fb) then -n else n

/-- r is the exact value v / d, in units of the least subnormal, rounded once in a direction, with its flags NX and OF (R46, R47,
Table 3-2): no finite number stands between the two on the direction's side, or, to nearest, none stands nearer, and of two as near
it is the even one; only beyond the largest finite number is it an infinity. -/
def Sys2Proof.Claims.Rounded (eb fb : Nat) (rm : Rounding) (v : Int) (d : Nat) (r : Nat × FpFlags) : Prop :=
  let u := fun (a : Nat) => Claims.units eb fb a * (d : Int)
  let fin := Claims.finite eb fb
  (v ≠ 0 → r.1.testBit (eb + fb) = decide (v < 0)) ∧
  (fin r.1 ∨ r.1 = Claims.inf eb fb (decide (v < 0))) ∧
  (fin r.1 → (r.2.getLsbD 0 = true ↔ u r.1 ≠ v) ∧ match rm with
    | .rne => ∀ c, fin c → (u r.1 - v).natAbs ≤ (u c - v).natAbs ∧ ((u r.1 - v).natAbs = (u c - v).natAbs → u c ≠ u r.1 → r.1 % 2 = 0)
    | .rtz => (u r.1).natAbs ≤ v.natAbs ∧ ∀ c, fin c → (u c).natAbs ≤ v.natAbs → (u c).natAbs ≤ (u r.1).natAbs
    | .rdn => u r.1 ≤ v ∧ ∀ c, fin c → u c ≤ v → u c ≤ u r.1
    | .rup => v ≤ u r.1 ∧ ∀ c, fin c → v ≤ u c → u r.1 ≤ u c) ∧
  (¬ fin r.1 → (rm = .rne ∨ (rm = .rdn ∧ v < 0) ∨ (rm = .rup ∧ 0 < v)) ∧ (∀ c, fin c → (u c).natAbs < v.natAbs) ∧ r.2 = 0b00101)

/-- Element i of an operand of the matrix engine (R43, R50, R51, R57): none for a NaN; an infinity with its sign; else its value in
units of 2^-133. An element of KBF lies in block i / 32, under the exponent that its selector names. -/
def Sys2Proof.Claims.operand (code : Nat) (bytes headers : List Byte) (i : Nat) : Option (Option Bool × Int) :=
  let float := fun (eb fb k : Nat) =>
    let a := numOf ((bytes.drop (2 * i)).take 2)
    if a / 2 ^ fb % 2 ^ eb = 2 ^ eb - 1 then (if a % 2 ^ fb = 0 then some (some (a.testBit (eb + fb)), 0) else none)
    else some (none, Claims.units eb fb a * 2 ^ (133 - k))
  let block := fun (m : Nat) =>
    let x := numOf ((bytes.drop (4 * (m + 1) * (i / 32))).take (4 * (m + 1))) / 2 ^ ((m + 1) * (i % 32)) % 2 ^ (m + 1)
    let e := (headers.getD (2 * (i / 32) + x / 2 ^ m) 0).toNat
    if e = 255 then none else some (none, signedOf m x * 2 ^ (e + 7 - m))
  match code with
  | 5 => float 5 10 24
  | 6 => float 8 7 133
  | 8 => block 3
  | _ => block 7

/-- A product of two operands, in units of 2^-266 (R56, R57): none where it is a NaN, as infinity times zero is. -/
def Sys2Proof.Claims.product (x y : Option (Option Bool × Int)) : Option (Option Bool × Int) :=
  match x, y with
  | some (none, v), some (none, w) => some (none, v * w)
  | some (some n, _), some (none, w) => if w = 0 then none else some (some (n != decide (w < 0)), 0)
  | some (none, v), some (some m, _) => if v = 0 then none else some (some (decide (v < 0) != m), 0)
  | some (some n, _), some (some m, _) => some (some (n != m), 0)
  | _, _ => none

/-- A K-step on an FP32 accumulator and products (R56, R57): a NaN in it stays, quiet; else NaNs and infinities by their rules; else the
terms, each cut down to a multiple of 2^-26 of the largest one's power of two, are added and the sum is rounded once, a zero sum +0. -/
def Sys2Proof.Claims.KStep (acc : Nat) (ps : List (Option (Option Bool × Int))) (r : Nat) : Prop :=
  let term : Option Bool × Int := if acc = Claims.inf 8 23 false then (some false, 0) else if acc = Claims.inf 8 23 true then (some true, 0)
    else (none, Claims.units 8 23 acc * 2 ^ 117)
  let ts := some term :: ps
  let infinite := fun (minus : Bool) => some (some minus, (0 : Int)) ∈ ts
  let vs := ts.map (fun t => (t.map Prod.snd).getD 0)
  let d : Nat := 2 ^ (((vs.map Int.natAbs).foldl Nat.max 0).log2 - 26)
  let v := (vs.map (fun t => t / (d : Int))).sum * (d : Int)
  (Claims.nan 8 23 acc → r = acc ||| 2 ^ 22) ∧
  (¬ Claims.nan 8 23 acc →
    (none ∈ ts ∨ (infinite true ∧ infinite false) → r = 0x7FC00000) ∧
    (∀ minus, none ∉ ts → infinite minus → ¬ infinite (!minus) → r = Claims.inf 8 23 minus) ∧
    (none ∉ ts → ¬ infinite true → ¬ infinite false → (∃ fl, Claims.Rounded 8 23 .rne v (2 ^ 117) (r, fl)) ∧ (v = 0 → r = 0)))

/-- A row-step (R41, R56 to R58, R198): a masked column keeps what it holds, in every format; each other column, from what it
holds or from zero where the row-step is the first of its row in overwrite mode, takes for INT8 the sum of the products added
modulo 2^32, and for BF16, FP16 and KBF the K-step of the products. -/
def Sys2Proof.Claims.MatrixColumns : Prop :=
  ∀ (o : MeOp) (row : BitVec 2048) (a ah : List Byte) (w : WeightBlock) (ow : Bool) (n : Nat), n < 64 →
    let new := mxStep o row a ah w ow
    let acc := if ow then 0 else Claims.lane 32 row n
    let column := (w.bytes.drop (n * w.colBytes)).take w.colBytes
    let kbf := [8, 9]
    (∀ m, o.colMask = some m → m.getLsbD n = false → Claims.lane 32 new n = Claims.lane 32 row n) ∧
    ((∀ m, o.colMask = some m → m.getLsbD n = true) →
      (o.fmtA = 1 → (Claims.lane 32 new n : Int) =
        ((acc : Int) + (a.zip column).foldl (fun (v : Int) q => v + q.1.toInt * q.2.toInt) 0) % ((2 ^ 32 : Nat) : Int)) ∧
      (o.fmtA ∈ [5, 6, 8, 9] → o.fmtB ∈ [5, 6, 8, 9] → a.length = mxBytes o.fmtA o.k → w.colBytes = mxBytes o.fmtB o.k →
        w.bytes.length = 64 * w.colBytes → let h := if o.fmtB ∈ kbf then o.k / 16 else 0
        w.headers.length = 64 * h →
        Claims.KStep acc ((List.range o.k).map (fun i => Claims.product (Claims.operand o.fmtA a ah i)
          (Claims.operand o.fmtB column ((w.headers.drop (n * h)).take h) i))) (Claims.lane 32 new n)))

/-- ME_BROADCAST_RENDEZVOUS (R201, R202): once every member of the set has issued its operation, they all run where they
agree with the leader's, and where one does not each completes at once and its ex meets 0x02 at its next boundary, a waiting ex at
once (R15). The model's own choices in it: log 31, 43. -/
def Sys2Proof.Claims.Rendezvous : Prop :=
  ∀ (core : Nat) (s : State) (p : Nat × Nat) (ops : Nat → MeOp) (leader : MeOp),
    let g := ((s.core core).task.map Task.gang).getD 0
    let ns := s.memberCores g p.1
    (s.core core).me.active.bind MeOp.place = some p → ((Store.find? s.gangs g).elim [] Gang.broken).contains p = false →
    (∀ n ∈ ns, (s.core n).me.active = some (ops n) ∧ (ops n).place = some p) →
    ns.length = (List.range 16).countP (fun i => p.1.testBit i) → (ns.map ops).head? = some leader →
    (∀ n ∈ ns, (s.core n).saving = false) →
    ((∀ n ∈ ns, leader.agrees (ops n) = true) → ∃ t, exec (.meBroadcastRendezvous core) s = .next t ∧ s.sameMemory t ∧
      ∀ n ∈ ns, (t.core n).me.active = some { ops n with met := true }) ∧
    ((∃ n ∈ ns, leader.agrees (ops n) = false) → ∃ t, exec (.meBroadcastRendezvous core) s = .next t ∧ s.sameMemory t ∧
      ∀ n ∈ ns, (t.core n).me.active = none ∧
        ((t.core n).seqs.ex.late = some 0x02 ∨ ((s.core n).seqs.ex.run = .waiting ∧ (t.core n).seqs.ex.run = .halted ∧ (t.core n).seqs.ex.cause = 0x02)))

/-- What a lane-wise instruction does (R191 to R193): with its tile declared, of an admitted type, written by every earlier store of
ex and not awaited by an operation of the matrix engine, each active lane of row d becomes f of the lanes and the scalar it reads, cut to the lane's
width; every other lane and row stays, the flags of the active lanes are raised, and d's set takes in those of what was
read. -/
def Sys2Proof.Claims.Lanewise (s : State) (i : Instr) (types : List TileType) (t : BitVec 2) (d : BitVec 6) (rows : List (BitVec 6))
    (scal : List Nat) (f : TileType → List Nat → Nat × FpFlags) : Prop :=
  ∀ v : Word × Taint, s.curSq = .ex → s.scalars scal = .ok () → t.toNat < s.cur.decl.tiles → s.cur.tile t.toNat ∈ types →
    s.cur.tileStored s.curCore t.toNat = false → s.cur.tileBusy t.toNat = false → (∀ r ∈ scal, s.src r = .ok v) → Store.rising s.cur.rows = true → Store.rising s.cur.rowTaint = true →
    let y := s.cur.tile t.toNat
    let dr := rowNum t d
    let out := fun (k : Nat) => f y (rows.map (fun r => Claims.lane y.bits (s.cur.row (rowNum t r)) k) ++ scal.map (fun _ => scalarLane y v.1))
    ∃ u, exec i s = .next u ∧
      (∀ k, k < y.lanes → Claims.lane y.bits (u.cur.row dr) k =
        if s.cur.vm.getLsbD k then (out k).1 % 2 ^ y.bits else Claims.lane y.bits (s.cur.row dr) k) ∧
      (∀ r, r ≠ dr → u.cur.row r = s.cur.row r ∧ u.cur.rowSet r = s.cur.rowSet r) ∧
      u.cur.rowSet dr = s.cur.rowSet dr ||| (s.rowSets (rows.map (rowNum t)) ||| (if scal = [] then 0 else v.2)) ∧
      u.cur.fpflags = s.cur.fpflags ||| activeFlags s.cur.vm ((List.range y.lanes).map out) ∧ u.cur.vm = s.cur.vm ∧ s.sameMemory u ∧
      s.sameRegsBut u []

/-- VFP (Table 11-7, R212): one IEEE operation in the tile's format and FPMODE's direction in each active lane; the scalar
forms take s[b] in every lane. The model's own choices in it: log 29. -/
def Sys2Proof.Claims.VectorFloat : Prop :=
  ∀ (t : BitVec 2) (d a b : BitVec 6) (r : BitVec 5) (s : State), let rm := s.rounding
    let three := fun (i : Instr) (rows : List (BitVec 6)) (f : TileType → Nat → Nat → Nat → Nat × FpFlags) =>
      Claims.Lanewise s i floatTypes t d rows [] (fun y x => f y (x.getD 0 0) (x.getD 1 0) (x.getD 2 0))
    let withScalar := fun (i : Instr) (f : TileType → Nat → Nat → Nat × FpFlags) =>
      Claims.Lanewise s i floatTypes t d [a] [r.toNat] (fun y x => f y (x.getD 0 0) (x.getD 1 0))
    three (.vadd t d a b) [a, b] (fun y p q _ => y.fmt.add rm p q) ∧ three (.vsub t d a b) [a, b] (fun y p q _ => y.fmt.sub rm p q) ∧
    three (.vmul t d a b) [a, b] (fun y p q _ => y.fmt.mul rm p q) ∧ three (.vfma t d a b) [a, b, d] (fun y p q z => y.fmt.fma rm p q z) ∧
    three (.vfms t d a b) [a, b, d] (fun y p q z => y.fmt.fms rm p q z) ∧ three (.vmin t d a b) [a, b] (fun y p q _ => y.fmt.minMax false p q) ∧
    three (.vmax t d a b) [a, b] (fun y p q _ => y.fmt.minMax true p q) ∧
    three (.vcpys t d a b) [a, b] (fun y p q _ => (p % 2 ^ (y.bits - 1) + q / 2 ^ (y.bits - 1) % 2 * 2 ^ (y.bits - 1), 0)) ∧
    withScalar (.vadds t d a r) (fun y p q => y.fmt.add rm p q) ∧ withScalar (.vmuls t d a r) (fun y p q => y.fmt.mul rm p q) ∧
    withScalar (.vmaxs t d a r) (fun y p q => y.fmt.minMax true p q) ∧ withScalar (.vmins t d a r) (fun y p q => y.fmt.minMax false p q) ∧
    withScalar (.vsubs t d a r) (fun y p q => y.fmt.sub rm p q) ∧
    Claims.Lanewise s (.vfmas t d a r) floatTypes t d [a, d] [r.toNat] (fun y x => y.fmt.fma rm (x.getD 0 0) (x.getD 2 0) (x.getD 1 0))

/-- VINT (Table 11-8, R41, R213): modular arithmetic, bitwise operations on any type, shifts modulo the lane width, and
signed minimum and maximum; no flag. -/
def Sys2Proof.Claims.VectorInteger : Prop :=
  ∀ (t : BitVec 2) (d a b : BitVec 6) (s : State),
    let two := fun (i : Instr) (types : List TileType) (f : Nat → Nat → Nat → Nat) =>
      Claims.Lanewise s i types t d [a, b] [] (fun y x => (f y.bits (x.getD 0 0) (x.getD 1 0), 0))
    two (.viadd t d a b) intTypes (fun _ p q => p + q) ∧ two (.visub t d a b) intTypes (fun w p q => p + (2 ^ w - q)) ∧
    two (.vimul t d a b) intTypes (fun _ p q => p * q) ∧
    two (.vand t d a b) allTypes (fun _ p q => p &&& q) ∧ two (.vor t d a b) allTypes (fun _ p q => p ||| q) ∧
    two (.vxor t d a b) allTypes (fun _ p q => p ^^^ q) ∧
    two (.vshl t d a b) intTypes (fun w p q => p * 2 ^ (q % w)) ∧ two (.vshr t d a b) intTypes (fun w p q => p / 2 ^ (q % w)) ∧
    two (.vsar t d a b) intTypes (fun w p q => ((signedOf w p / ((2 ^ (q % w) : Nat) : Int)) % ((2 ^ w : Nat) : Int)).toNat) ∧
    two (.vimin t d a b) intTypes (fun w p q => if signedOf w q < signedOf w p then q else p) ∧
    two (.vimax t d a b) intTypes (fun w p q => if signedOf w p < signedOf w q then q else p) ∧
    Claims.Lanewise s (.vimac t d a b) intTypes t d [a, b, d] [] (fun _ x => (x.getD 2 0 + x.getD 0 0 * x.getD 1 0, 0))

/-- VSFU (Table 11-10, R215 to R217, R61, R62): the special functions, on a narrow tile through FP32 and rounded back. The model's own choices in it: log 29. -/
def Sys2Proof.Claims.VectorSpecial : Prop :=
  ∀ (t : BitVec 2) (d a b : BitVec 6) (s : State),
    let fn := fun (i : Instr) (rows : List (BitVec 6)) (f : Nat → Nat → Nat × FpFlags) =>
      Claims.Lanewise s i floatTypes t d rows [] (fun y x =>
        let z := if y = .fp32 then x else x.map (widen y.fmt)
        narrow y (f (z.getD 0 0) (z.getD 1 0)))
    fn (.vexp2 t d a) [a] (fun x _ => exp2Approx x) ∧ fn (.vlog2 t d a) [a] (fun x _ => log2Approx x) ∧
    fn (.vrcpa t d a) [a] (fun x _ => rcpApprox x) ∧ fn (.vrsqa t d a) [a] (fun x _ => rsqApprox x) ∧
    fn (.vrcpr t d a b) [a, b] (fun x y => refine false x y) ∧ fn (.vrsqr t d a b) [a, b] (fun x y => refine true x y) ∧
    fn (.vflr t d a) [a] (fun x _ => roundIntegral .rdn x) ∧ fn (.vrnd t d a) [a] (fun x _ => roundIntegral s.rounding x) ∧
    Claims.Lanewise s (.vfrc t d a) floatTypes t d [a] [] (fun y x =>
      belowOne y (narrow y (fraction s.rounding ((if y = .fp32 then x else x.map (widen y.fmt)).getD 0 0))))

/-- VCMP (Table 11-9, R214): the compares set, and or or the mask bits of the tile's lanes and raise the flags of every lane (what they
read of a row that the matrix engine is writing: log 31); VSEL selects by the mask; VMNOT inverts all of it; VMPOP counts it below n. -/
def Sys2Proof.Claims.VectorMasks : Prop :=
  ∀ (t : BitVec 2) (d a b : BitVec 6) (m : BitVec 2) (r : BitVec 5) (s : State), s.curSq = .ex →
    let y := s.cur.tile t.toNat
    let n := y.lanes
    let la := fun (q : BitVec 6) (k : Nat) => Claims.lane y.bits (s.cur.row (rowNum t q)) k
    let ra := fun (k : Nat) => Claims.lane y.bits (s.readRow (rowNum t a) 0) k
    let rb := fun (k : Nat) => Claims.lane y.bits (s.readRow (rowNum t b) 1) k
    exec .vmnot s = .next ((s.modCur (fun c => { c with vm := ~~~c.vm })).retire 2) ∧
    (t.toNat < s.cur.decl.tiles → s.cur.tileStored s.curCore t.toNat = false →
      (s.scalars [r.toNat] = .ok () → exec (.vmpop t r) s = .next ((s.put r.toNat (BitVec.ofNat 64 ((List.range n).countP (fun k => s.cur.vm.getLsbD k))) 0).retire 2)) ∧
      (∀ p ∈ [(Instr.vceq t m a b, 0), (.vcne t m a b, 1), (.vclt t m a b, 2), (.vcle t m a b, 3)],
        (m = 3 → exec p.1 s = .next (s.stop (.trap 0x02))) ∧
        (m ≠ 3 → ∃ u, exec p.1 s = .next u ∧ (∀ q, u.cur.row q = s.cur.row q) ∧ s.sameMemory u ∧
          (∀ k, k < n → let c := (compareLane y p.2 (ra k) (rb k)).1
            u.cur.vm.getLsbD k = if m = 0 then c else if m = 1 then s.cur.vm.getLsbD k && c else s.cur.vm.getLsbD k || c) ∧
          (∀ k, n ≤ k → u.cur.vm.getLsbD k = if m = 0 then false else s.cur.vm.getLsbD k) ∧
          u.cur.fpflags = s.cur.fpflags ||| (List.range n).foldl (fun (g : FpFlags) k => g ||| (compareLane y p.2 (ra k) (rb k)).2) 0)) ∧
      (s.cur.tileBusy t.toNat = false → Store.rising s.cur.rows = true → ∃ u, exec (.vsel t d a b) s = .next u ∧
        (∀ k, k < n → Claims.lane y.bits (u.cur.row (rowNum t d)) k = if s.cur.vm.getLsbD k then la a k else la b k) ∧
        (∀ q, q ≠ rowNum t d → u.cur.row q = s.cur.row q) ∧ u.cur.vm = s.cur.vm ∧ s.sameMemory u)) ∧
    (∀ p q : Nat, y = .int32 ∨ y = .int8 → (compareLane y 0 p q).1 = decide (signedOf y.bits p = signedOf y.bits q) ∧
      (compareLane y 1 p q).1 = decide (signedOf y.bits p ≠ signedOf y.bits q) ∧ (compareLane y 2 p q).1 = decide (signedOf y.bits p < signedOf y.bits q) ∧
      (compareLane y 3 p q).1 = decide (signedOf y.bits p ≤ signedOf y.bits q))

/-- VRED (Table 11-11, R218, R63, R64): the reductions put the root of their tree into lane 0 of d, and leave d where no lane
is active; on an INT32 tile the sum is that of the active lanes modulo 2^32. VWELF merges the tree of its active
lanes, and VWMRG row a, into the triple in lanes 0 to 2 of d. The model's own choices in it: log 32. -/
def Sys2Proof.Claims.VectorReductions : Prop :=
  ∀ (t : BitVec 2) (d a : BitVec 6) (s : State), s.curSq = .ex → t.toNat < s.cur.decl.tiles → s.cur.tileStored s.curCore t.toNat = false →
    s.cur.tileBusy t.toNat = false → Store.rising s.cur.rows = true →
    let y := s.cur.tile t.toNat
    let dr := rowNum t d
    let la := fun (q : BitVec 6) (k : Nat) => Claims.lane y.bits (s.cur.row (rowNum t q)) k
    let leaves := (List.range y.lanes).map (fun k => if s.cur.vm.getLsbD k then some (la a k) else none)
    let lowTo := fun (u : State) (n : Nat) => (∀ k, n ≤ k → k < y.lanes → Claims.lane y.bits (u.cur.row dr) k = la d k) ∧
      (∀ q, q ≠ dr → u.cur.row q = s.cur.row q) ∧ s.sameMemory u
    let f := fun (i : Instr) (u v : Nat) => match i with
      | .vrsum .. => if y = .int32 then ((u + v) % 4294967296, 0) else y.fmt.add s.rounding u v
      | .vrmax .. => if y = .int32 then (if signedOf 32 u < signedOf 32 v then v else u, 0) else y.fmt.minMax true u v
      | _ => if y = .int32 then (if signedOf 32 v < signedOf 32 u then v else u, 0) else y.fmt.minMax false u v
    (y ≠ .int8 → ∀ i ∈ [Instr.vrsum t d a, .vrmax t d a, .vrmin t d a],
      (∀ v g, tree (f i) (Nat.log2 y.lanes) leaves = (some v, g) → ∃ u, exec i s = .next u ∧
        Claims.lane y.bits (u.cur.row dr) 0 = v % 2 ^ y.bits ∧ lowTo u 1 ∧ u.cur.fpflags = s.cur.fpflags ||| g) ∧
      ((∀ k, k < y.lanes → s.cur.vm.getLsbD k = false) → exec i s = .next (s.retire 2))) ∧
    (y = .int32 → (∃ k, k < 64 ∧ s.cur.vm.getLsbD k = true) → ∃ u, exec (.vrsum t d a) s = .next u ∧
      Claims.lane 32 (u.cur.row dr) 0 = ((List.range 64).map (fun k => if s.cur.vm.getLsbD k then la a k else 0)).sum % 4294967296) ∧
    (y = .int8 → ∀ i ∈ [Instr.vrsum t d a, .vrmax t d a, .vrmin t d a], exec i s = .next (s.stop (.trap 0x02))) ∧
    (y = .fp32 →
      (∃ u, exec (.vwelf t d a) s = .next u ∧ lowTo u 3 ∧
        let root := tree Triple.merge 6 ((List.range 64).map (fun k =>
          some (if s.cur.vm.getLsbD k then (⟨fp32.one, la a k, 0⟩ : Triple) else ⟨0, 0, 0⟩)))
        let m := Triple.merge ⟨la d 0, la d 1, la d 2⟩ (root.1.getD ⟨0, 0, 0⟩)
        Claims.lane 32 (u.cur.row dr) 0 = m.1.n % 4294967296 ∧ Claims.lane 32 (u.cur.row dr) 1 = m.1.mean % 4294967296 ∧
        Claims.lane 32 (u.cur.row dr) 2 = m.1.m2 % 4294967296 ∧ u.cur.fpflags = s.cur.fpflags ||| (root.2 ||| m.2)) ∧
      (∃ u, exec (.vwmrg t d a) s = .next u ∧ lowTo u 3 ∧
        let m := (Triple.merge ⟨la d 0, la d 1, la d 2⟩ ⟨la a 0, la a 1, la a 2⟩).1
        Claims.lane 32 (u.cur.row dr) 0 = m.n % 4294967296 ∧ Claims.lane 32 (u.cur.row dr) 1 = m.mean % 4294967296 ∧
        Claims.lane 32 (u.cur.row dr) 2 = m.m2 % 4294967296))

/-- The permutations (Table 11-11, R218): active lane i of d takes the raw lane of a that VSHF, VROT or VBCST names. -/
def Sys2Proof.Claims.VectorPermutes : Prop :=
  ∀ (t : BitVec 2) (d a b : BitVec 6) (r : BitVec 5) (s : State) (v : Word × Taint), s.curSq = .ex → t.toNat < s.cur.decl.tiles →
    s.cur.tileStored s.curCore t.toNat = false → s.cur.tileBusy t.toNat = false → Store.rising s.cur.rows = true → s.scalars [r.toNat] = .ok () → s.src r.toNat = .ok v →
    let y := s.cur.tile t.toNat
    let la := fun (q : BitVec 6) (k : Nat) => Claims.lane y.bits (s.cur.row (rowNum t q)) k
    ∀ p ∈ [(Instr.vshf t d a b, fun k => la b k), (.vrot t d a r, fun k => k + v.1.toNat), (.vbcst t d a r, fun _ => v.1.toNat)],
      ∃ u, exec p.1 s = .next u ∧ (∀ q, q ≠ rowNum t d → u.cur.row q = s.cur.row q) ∧ u.cur.fpflags = s.cur.fpflags ∧ s.sameMemory u ∧
        ∀ k, k < y.lanes → Claims.lane y.bits (u.cur.row (rowNum t d)) k = if s.cur.vm.getLsbD k then la a (p.2 k % y.lanes) else la d k

/-- q is v / d as a whole number, rounded in a direction (Table 3-2). -/
def Sys2Proof.Claims.Whole (rm : Rounding) (v : Int) (d : Nat) (q : Int) : Prop :=
  match rm with
  | .rne => 2 * (v - q * d).natAbs ≤ d ∧ (2 * (v - q * d).natAbs = d → q % 2 = 0)
  | .rtz => (q * d).natAbs ≤ v.natAbs ∧ v.natAbs < (q * d).natAbs + d ∧ 0 ≤ q * v
  | .rdn => q * d ≤ v ∧ v < q * d + d
  | .rup => v ≤ q * d ∧ q * d - d < v

/-- Arithmetic in the formats of Table 3-1 (R43, R44, R46, R47): a NaN operand is passed on quiet, the first one, with NV for a
signalling one; infinities, and the invalid operations, which give the default NaN with NV; finite operands rounded once, an exact
zero sum with its sign; minimumNumber and maximumNumber with -0 below +0. -/
def Sys2Proof.Claims.FormatArithmetic : Prop :=
  ∀ (rm : Rounding) (a b c : Nat), ∀ p ∈ Claims.layouts, let f := p.1
    let eb := p.2.1
    let fb := p.2.2.1
    let k := p.2.2.2.1
    let nan := Claims.nan eb fb
    let signals := Claims.signals eb fb
    let fin := Claims.finite eb fb
    let inf := Claims.inf eb fb
    let u := Claims.units eb fb
    let minus := fun (x : Nat) => x.testBit (eb + fb)
    let quiet := fun (x : Nat) => x ||| 2 ^ (fb - 1)
    let bad : Nat × FpFlags := (p.2.2.2.2, 0b10000)
    let passes := fun (x : Nat) (xs : List Nat) (r : Nat × FpFlags) => r.1 = quiet x ∧
      ((∃ y ∈ xs, signals y) → r.2 = 0b10000) ∧ ((∀ y ∈ xs, ¬ signals y) → r.2 = 0)
    let key := fun (x : Nat) => if minus x then -((x % 2 ^ (eb + fb) : Nat) : Int) - 1 else ((x % 2 ^ (eb + fb) : Nat) : Int)
    a < 2 ^ (1 + eb + fb) → b < 2 ^ (1 + eb + fb) → c < 2 ^ (1 + eb + fb) →
    (nan a → passes a [a, b] (f.add rm a b) ∧ passes a [a, b] (f.mul rm a b) ∧ passes a [a, b, c] (f.fma rm a b c)) ∧
    (¬ nan a → nan b → passes b [a, b] (f.add rm a b) ∧ passes b [a, b] (f.mul rm a b) ∧ passes b [a, b, c] (f.fma rm a b c)) ∧
    (¬ nan a → ¬ nan b → nan c → passes c [a, b, c] (f.fma rm a b c)) ∧
    (fin a → fin b → Claims.Rounded eb fb rm (u a + u b) 1 (f.add rm a b) ∧ Claims.Rounded eb fb rm (u a * u b) (2 ^ k) (f.mul rm a b) ∧
      (u a + u b = 0 → minus (f.add rm a b).1 = if minus a = minus b then minus a else rm == .rdn) ∧ minus (f.mul rm a b).1 = (minus a != minus b) ∧
      (fin c → Claims.Rounded eb fb rm (u a * u b + u c * 2 ^ k) (2 ^ k) (f.fma rm a b c)) ∧
      (∀ n, c = inf n → f.fma rm a b c = (inf n, 0))) ∧
    (∀ n, a = inf n → (fin b → f.add rm a b = (inf n, 0)) ∧ (∀ m, b = inf m → f.add rm a b = if n = m then (inf n, 0) else bad) ∧
      (fin b → u b = 0 → f.mul rm a b = bad ∧ (¬ nan c → f.fma rm a b c = bad)) ∧
      ((fin b ∧ u b ≠ 0) ∨ (∃ m, b = inf m) → let s := minus a != minus b
        f.mul rm a b = (inf s, 0) ∧ (fin c ∨ c = inf s → f.fma rm a b c = (inf s, 0)) ∧ (c = inf (!s) → f.fma rm a b c = bad))) ∧
    (∀ m, b = inf m → fin a → f.add rm a b = (inf m, 0)) ∧
    (∀ big : Bool, let r := f.minMax big a b
      (nan a → nan b → passes a [a, b] r) ∧ (¬ nan a → nan b → r.1 = a) ∧ (nan a → ¬ nan b → r.1 = b) ∧
      (signals a ∨ signals b → r.2 = 0b10000) ∧ (¬ signals a → ¬ signals b → r.2 = 0) ∧
      (¬ nan a → ¬ nan b → (r.1 = a ∨ r.1 = b) ∧ (big = true → key a ≤ key r.1 ∧ key b ≤ key r.1) ∧ (big = false → key r.1 ≤ key a ∧ key r.1 ≤ key b)))

/-- Conversions of lanes (R44, R65, Table 3-6): between floating-point formats a finite number is rounded once and a NaN keeps its sign
and the fraction bits that fit, quiet; to an integer in the direction, saturating with NV, a NaN 0; from an integer rounded once;
between integers saturating, or extended. -/
def Sys2Proof.Claims.FormatConversions : Prop :=
  ∀ (rm : Rounding) (x y : TileType) (a n k : Nat), let r := convertLane rm x y a
    (∀ p ∈ Claims.layouts, p.1 = x.fmt → x ∈ floatTypes → a < 2 ^ (1 + p.2.1 + p.2.2.1) →
      let s := a.testBit (p.2.1 + p.2.2.1)
      let v := Claims.units p.2.1 p.2.2.1 a
      (∀ q ∈ Claims.layouts, q.1 = y.fmt → y ∈ floatTypes → let top := q.2.2.1
        (Claims.finite p.2.1 p.2.2.1 a → Claims.Rounded q.2.1 top rm (v * 2 ^ q.2.2.2.1) (2 ^ p.2.2.2.1) r) ∧
        (∀ m, a = Claims.inf p.2.1 p.2.2.1 m → r = (Claims.inf q.2.1 top m, 0)) ∧
        (Claims.nan p.2.1 p.2.2.1 a → r.1 = Claims.inf q.2.1 top s + ((a % 2 ^ p.2.2.1) * 2 ^ top / 2 ^ p.2.2.1 ||| 2 ^ (top - 1)) ∧
          (r.2 = if a.testBit (p.2.2.1 - 1) then 0 else 0b10000))) ∧
      (y ∈ intTypes → let lim : Int := ((2 ^ (y.bits - 1) : Nat) : Int)
        (Claims.nan p.2.1 p.2.2.1 a → r = (0, 0b10000)) ∧
        (∀ m, a = Claims.inf p.2.1 p.2.2.1 m → r = (if m then 2 ^ (y.bits - 1) else 2 ^ (y.bits - 1) - 1, 0b10000)) ∧
        (Claims.finite p.2.1 p.2.2.1 a → ∃ w, Claims.Whole rm v (2 ^ p.2.2.2.1) w ∧
          (-lim ≤ w → w < lim → r.1 < 2 ^ y.bits ∧ signedOf y.bits r.1 = w ∧ (r.2 = if w * ((2 ^ p.2.2.2.1 : Nat) : Int) = v then 0 else 1)) ∧
          (lim ≤ w → r = (2 ^ (y.bits - 1) - 1, 0b10000)) ∧ (w < -lim → r = (2 ^ (y.bits - 1), 0b10000))))) ∧
    (∀ q ∈ Claims.layouts, q.1 = y.fmt → y ∈ floatTypes → x ∈ intTypes → Claims.Rounded q.2.1 q.2.2.1 rm (signedOf x.bits a * 2 ^ q.2.2.2.1) 1 r) ∧
    (x ∈ intTypes → y ∈ intTypes → r = (convertInt x.bits y.bits a, 0)) ∧
    (0 < n → 0 < k → let lim : Int := ((2 ^ (k - 1) : Nat) : Int)
      convertInt n k a < 2 ^ k ∧ signedOf k (convertInt n k a) = max (-lim) (min (signedOf n a) (lim - 1)))

/-- KBF blocks (R49, R50, R53 to R55, Table 3-4): an element is M × 2^(E - 127 - (m - 1)) under the exponent that its selector
names, and the default NaN where that is 0xFF; the encoder takes the exponents of R53, or of R54 where an element is a NaN, and
each element in the finer step where it fits, else in the coarser one, saturating. -/
def Sys2Proof.Claims.BlockFormats : Prop :=
  ∀ p ∈ Claims.layouts, ∀ kind m, (kind, m) ∈ [(0, 3), (1, 7), (2, 15)] → let f := p.1
    let eb := p.2.1
    let fb := p.2.2.1
    let k := p.2.2.2.1
    (∀ (rm : Rounding) (b : KbfBlock) (i : Nat), b.e0 < 256 → b.e1 < 256 → b.elems.getD i 0 < 2 ^ (m + 1) →
      let x := b.elems.getD i 0
      let E := if x / 2 ^ m = 1 then b.e1 else b.e0
      let r := kbfDecode kind b i f rm
      (E = 0xFF → r = (p.2.2.2.2, 0)) ∧
      (E ≠ 0xFF → Claims.Rounded eb fb rm (signedOf m x * 2 ^ (E + 23 + k - m)) (2 ^ 149) r ∧ (signedOf m x = 0 → r.1 = 0) ∧
        (f = fp32 → r.2 = 0 ∧ Claims.units eb fb r.1 = signedOf m x * 2 ^ (E + 23 - m)))) ∧
    (∀ vs : List Nat, vs.length = 32 → (∀ a ∈ vs, a < 2 ^ (1 + eb + fb)) → ∀ b : KbfBlock, (kbfEncode kind f vs).1 = b →
      let top := (vs.map (fun a => if a / 2 ^ fb % 2 ^ eb = 2 ^ eb - 1 then (if a % 2 ^ fb = 0 then 0xFE else 0)
        else if Claims.units eb fb a = 0 then 0 else Nat.min 0xFE ((Claims.units eb fb a).natAbs.log2 + 128 - k))).foldl Nat.max 0
      let half : Int := ((2 ^ (m - 1) : Nat) : Int)
      let stored := fun (s : Nat) (M : Int) => s * 2 ^ m + (M % ((2 ^ m : Nat) : Int)).toNat
      let steps := fun (E : Nat) (a : Nat) (q : Int) => Claims.Whole .rne (Claims.units eb fb a * 2 ^ (126 + m)) (2 ^ (k + E)) q
      let clamped := fun (q : Int) => max (-half) (min q (half - 1))
      let some' := ∃ a ∈ vs, Claims.nan eb fb a
      b.elems.length = 32 ∧ (some' → b.e0 = 0xFF ∧ b.e1 = top) ∧ (¬ some' → b.e0 = top ∧ b.e1 = top - m) ∧
      ∀ (i a : Nat), vs[i]? = some a → ∃ M : Nat, b.elems[i]? = some M ∧ (Claims.nan eb fb a → M = 0) ∧
        (∀ n, a = Claims.inf eb fb n → (¬ some' → M = stored 0 (if n then -half else half - 1)) ∧ (some' → M = stored 1 (if n then -half else half - 1))) ∧
        (Claims.finite eb fb a → (some' → ∃ q, steps b.e1 a q ∧ M = stored 1 (clamped q)) ∧
          (¬ some' → ∃ q1 q0, steps b.e1 a q1 ∧ steps b.e0 a q0 ∧ M = if -half ≤ q1 ∧ q1 < half then stored 1 q1 else stored 0 (clamped q0))))

/-- VCVT (R219): lane by lane from the source type into the part of row d that p names, active lanes only, with their flags; the
same type on both sides, a type code above 4 and a part that is not there are 0x02. -/
def Sys2Proof.Claims.VectorConverts : Prop :=
  ∀ (t : BitVec 2) (d a : BitVec 6) (p : BitVec 2) (k : BitVec 3) (s : State), s.curSq = .ex → t.toNat < s.cur.decl.tiles →
    s.cur.tileStored s.curCore t.toNat = false →
    let y := s.cur.tile t.toNat
    let x := TileType.ofCode k.toNat
    let m := x.lanes
    let n := y.lanes
    let dr := rowNum t d
    let takes := fun (i : Nat) => s.cur.vm.getLsbD i && (decide (n ≤ m) || (decide (p.toNat * m ≤ i) && decide (i < (p.toNat + 1) * m)))
    let new := fun (i : Nat) => convertLane s.rounding x y (Claims.lane x.bits (s.cur.row (rowNum t a)) (if n ≤ m then i + p.toNat * n else i - p.toNat * m))
    (4 < k.toNat → exec (.vcvt t d a p k) s = .next (s.stop (.trap 0x02))) ∧
    (k.toNat ≤ 4 → x = y ∨ max (m / n) (n / m) ≤ p.toNat → exec (.vcvt t d a p k) s = .next (s.stop (.trap 0x02))) ∧
    (k.toNat ≤ 4 → x ≠ y → p.toNat < max (m / n) (n / m) → s.cur.tileBusy t.toNat = false → Store.rising s.cur.rows = true →
      ∃ u, exec (.vcvt t d a p k) s = .next u ∧ (∀ q, q ≠ dr → u.cur.row q = s.cur.row q) ∧ s.sameMemory u ∧
        (∀ i, i < n → Claims.lane y.bits (u.cur.row dr) i =
          if takes i = true then (new i).1 % 2 ^ y.bits else Claims.lane y.bits (s.cur.row dr) i) ∧
        u.cur.fpflags = s.cur.fpflags ||| (List.range n).foldl (fun (g : FpFlags) i => if takes i = true then g ||| (new i).2 else g) 0)

/-- VKENC packs 64 lanes as two KBF blocks into the low bytes of row d and keeps the rest; VKDEC decodes two blocks into the
active lanes of a half (R220); VPLDEC decodes 64 elements of a landed louvre tile into the active lanes, and traps where its
operand, the scratchpad or the tile is not as R221 wants it. The model's own choices in it: log 29. -/
def Sys2Proof.Claims.VectorBlocks : Prop :=
  ∀ (t : BitVec 2) (d a : BitVec 6) (h : BitVec 1) (f : BitVec 2) (r : BitVec 5) (m : BitVec 1) (s : State) (v : Word × Taint) (bs : List Byte) (c : Nat),
    s.curSq = .ex → t.toNat < s.cur.decl.tiles → s.cur.tileStored s.curCore t.toNat = false → s.cur.tileBusy t.toNat = false →
    Store.rising s.cur.rows = true →
    let y := s.cur.tile t.toNat
    let dr := rowNum t d
    let la := fun (k : Nat) => Claims.lane y.bits (s.cur.row (rowNum t a)) (64 * h.toNat + k)
    let e0 := kbfEncode f.toNat y.fmt ((List.range 32).map la)
    let e1 := kbfEncode f.toNat y.fmt ((List.range 32).map (fun k => la (32 + k)))
    let packed := kbfPack f.toNat e0.1.elems ++ kbfPack f.toNat e1.1.elems ++ [e0.1.e0, e0.1.e1, e1.1.e0, e1.1.e1].map (BitVec.ofNat 8)
    let held := bytesOf 256 (s.cur.row (rowNum t a)).toNat
    let n := kbfBytes f.toNat
    let block := fun (i : Nat) => kbfBlock f.toNat ((held.drop (i * n)).take n) (held.getD (2 * n + 2 * i) 0).toNat (held.getD (2 * n + 2 * i + 1) 0).toNat
    let takes := fun (k : Nat) => decide (64 * h.toNat ≤ k) && decide (k < 64 * h.toNat + 64) && s.cur.vm.getLsbD k
    let new := fun (k : Nat) => kbfDecode f.toNat (block ((k - 64 * h.toNat) / 32)) ((k - 64 * h.toNat) % 32) y.fmt s.rounding
    let keeps := fun (u : State) => (∀ q, q ≠ dr → u.cur.row q = s.cur.row q) ∧ s.sameMemory u
    let off := v.1.toNat % 2 ^ 20
    let g := v.1.toNat / 2 ^ 20
    (y ∈ floatTypes → f ≠ 3 → (h = 0 ∨ y ≠ .fp32) →
      (∃ u, exec (.vkenc t d a h f) s = .next u ∧ keeps u ∧ u.cur.fpflags = s.cur.fpflags ||| (e0.2 ||| e1.2) ∧
        u.cur.row dr = BitVec.ofNat 2048 ((s.cur.row dr).toNat / 2 ^ (8 * packed.length) * 2 ^ (8 * packed.length) + numOf packed)) ∧
      (∃ u, exec (.vkdec t d a h f) s = .next u ∧ keeps u ∧
        (∀ k, k < y.lanes → Claims.lane y.bits (u.cur.row dr) k =
          if takes k = true then (new k).1 % 2 ^ y.bits else Claims.lane y.bits (s.cur.row dr) k) ∧
        u.cur.fpflags = s.cur.fpflags ||| (List.range y.lanes).foldl (fun (e : FpFlags) k => if takes k = true then e ||| (new k).2 else e) 0)) ∧
    (y = .fp32 → h = 1 → f ≠ 3 → exec (.vkenc t d a h f) s = .next (s.stop (.trap 0x02)) ∧ exec (.vkdec t d a h f) s = .next (s.stop (.trap 0x02))) ∧
    (y = .fp32 → s.scalars [r.toNat] = .ok () → s.src r.toNat = .ok v →
      (2 ^ 25 ≤ v.1.toNat → exec (.vpldec t d r m) s = .next (s.stop (.trap 0x02))) ∧
      (v.1.toNat < 2 ^ 25 → off % 128 ≠ 0 → exec (.vpldec t d r m) s = .next (s.stop (.trap 0x43))) ∧
      (v.1.toNat < 2 ^ 25 → off % 128 = 0 → s.cur.decl.scratch < off + 4224 → exec (.vpldec t d r m) s = .next (s.stop (.trap 0x26))) ∧
      (v.1.toNat < 2 ^ 25 → off % 128 = 0 → off + 4224 ≤ s.cur.decl.scratch →
        (s.cur.tileAt s.curCore off = none → exec (.vpldec t d r m) s = .next (s.stop (.trap 0x27))) ∧
        (s.cur.tileAt s.curCore off = some c → 2 ≤ c → s.readNow ((List.range 4224).map (fun i => .win s.curCore (off + i))) = .ok bs →
          let b := fun (k : Nat) => tileBlock bs (c - 1) (2 * g + k / 32)
          let mp := fun (k : Nat) => signedOf 15 ((b k).elems.getD (k % 32) 0) + (if m = 1 ∧ c - 1 < 15 then ((2 ^ (14 - (c - 1)) : Nat) : Int) else 0)
          ∃ u, exec (.vpldec t d r m) s = .next u ∧ keeps u ∧ u.cur.fpflags = s.cur.fpflags ∧
            ∀ k, k < 64 → Claims.lane 32 (u.cur.row dr) k =
              if s.cur.vm.getLsbD k then
                (if (b k).exp (k % 32) = 0xFF then fp32.defaultNan
                  else (fp32.round .rne (decide (mp k < 0)) (mp k).natAbs (((b k).exp (k % 32) : Int) - 141) false).1) % 2 ^ 32
              else Claims.lane 32 (s.cur.row dr) k)))

/-- VMEM (Table 11-13, R222, R223): VLD and VLDC put the elements of memory into the active lanes and empty the row's set;
VST and VSTC put one plain store of the active lanes' bytes into ex's order. The j-th active lane takes element j where the
form is compact, and lane i element i where it is not. What a store reads of a row that the matrix engine is writing: log 31. The
model's own choices in it: log 32. -/
def Obligations.VectorMemory : Prop :=
  ∀ (t : BitVec 2) (d : BitVec 6) (h r : BitVec 5) (s s1 : State) (hv : BitVec 256) (x : Word × Taint) (ls : List (Nat × List Loc)) (bs : List Byte),
    s.curSq = .ex → t.toNat < s.cur.decl.tiles → s.cur.tileStored s.curCore t.toNat = false → s.scalars [r.toNat] = .ok () →
    s.handleReg h.toNat = .ok hv → s.src r.toNat = .ok x → Store.rising s.cur.rows = true → Store.rising s.cur.rowTaint = true →
    let y := s.cur.tile t.toNat
    let z := y.bits / 8
    let dr := rowNum t d
    ∀ p ∈ [(false, Instr.vld t d h r, Instr.vst t d h r), (true, Instr.vldc t d h r, Instr.vstc t d h r)],
    let lanes := activeLanes y s.cur.vm p.1
    (s.cur.tileBusy t.toNat = false → s.vectorReach hv rightR (offsetOf x.1 0) z lanes .read = .ok (s1, ls) → s.after x.2 = .ok () →
      s.cur.stores.any (fun e => e.sq == .ex && overlap e.locs (ls.flatMap Prod.snd)) = false → s1.readNow (ls.flatMap Prod.snd) = .ok bs →
      ∃ u, exec p.2.1 s = .next u ∧ u.cur.rowSet dr = 0 ∧ (∀ q, q ≠ dr → u.cur.row q = s.cur.row q) ∧ s.sameMemory u ∧
        (∀ k, k < y.lanes → s.cur.vm.getLsbD k = false → Claims.lane y.bits (u.cur.row dr) k = Claims.lane y.bits (s.cur.row dr) k) ∧
        (∀ q, q ∈ ls → q.1 < y.lanes → (∀ q' ∈ ls, q'.1 = q.1 → q' = q) →
          Claims.lane y.bits (u.cur.row dr) q.1 = numOf (s.readLocs q.2) % 2 ^ y.bits)) ∧
    (s.vectorReach hv rightW (offsetOf x.1 0) z lanes .write = .ok (s1, ls) → s.cur.requests < 1024 → ls ≠ [] →
      ∃ u, exec p.2.2 s = .next u ∧ s.sameMemory u ∧ (∀ q, u.cur.row q = s.cur.row q) ∧
        u.cur.stores = s.cur.stores ++ [⟨s.cur.nextId, .ex, ls.flatMap Prod.snd,
          .plain (ls.flatMap (fun q => bytesOf z (Claims.lane y.bits (s.readRow dr 0) q.1))),
          s.cur.loadsOf (x.2 ||| s.cur.rowSet dr ||| s.seq.ctlTaint)⟩]) ∧
    (s.vectorReach hv rightW (offsetOf x.1 0) z lanes .write = .ok (s1, []) → exec p.2.2 s = .next (((s1.pop [r.toNat]).drewRows t.toNat [dr]).retire 2))

/-- VACC (R224): ACLR zeroes rows and their sets, AFMT changes a tile's type and no bit, AMOV copies a row with its set,
AXPOSE transposes a tile of FP32 or INT32, each row of which takes the sets of all, and is 0x02 on another; AWAIT waits for the
operations that name the tile. What AMOV reads of a row that the matrix engine is writing:
log 31. -/
def Obligations.Accumulators : Prop :=
  ∀ (t : BitVec 2) (d a c : BitVec 6) (u : BitVec 2) (y : BitVec 6) (s : State), s.curSq = .ex → t.toNat < s.cur.decl.tiles → s.cur.tileStored s.curCore t.toNat = false →
    Store.rising s.cur.rows = true → Store.rising s.cur.rowTaint = true →
    (s.cur.tileBusy t.toNat = false →
      (d.toNat + c.toNat ≤ 63 → ∃ v, exec (.aclr t d c) s = .next v ∧ s.sameMemory v ∧
        ∀ q, (rowNum t d ≤ q ∧ q ≤ rowNum t d + c.toNat → v.cur.row q = 0 ∧ v.cur.rowSet q = 0) ∧
          (q < rowNum t d ∨ rowNum t d + c.toNat < q → v.cur.row q = s.cur.row q ∧ v.cur.rowSet q = s.cur.rowSet q)) ∧
      (63 < d.toNat + c.toNat → exec (.aclr t d c) s = .next (s.stop (.trap 0x02))) ∧
      (y.toNat ≤ 4 → exec (.afmt t y) s = .next ((s.modCur (fun k => { k with tileType := k.tileType.setIfInBounds t.toNat (TileType.ofCode y.toNat) })).retire 2)) ∧
      (4 < y.toNat → exec (.afmt t y) s = .next (s.stop (.trap 0x02))) ∧
      (u.toNat < s.cur.decl.tiles → s.cur.tileStored s.curCore u.toNat = false → ∃ v, exec (.amov t d a u) s = .next v ∧ s.sameMemory v ∧
        v.cur.row (rowNum t d) = s.readRow (rowNum u a) 0 ∧ v.cur.rowSet (rowNum t d) = s.cur.rowSet (rowNum u a) ∧
        ∀ q, q ≠ rowNum t d → v.cur.row q = s.cur.row q ∧ v.cur.rowSet q = s.cur.rowSet q) ∧
      (s.cur.decl.tiles ≤ u.toNat → exec (.amov t d a u) s = .next (s.stop (.trap 0x22))) ∧
      (s.cur.tile t.toNat = .fp32 ∨ s.cur.tile t.toNat = .int32 → ∃ v, exec (.axpose t) s = .next v ∧ s.sameMemory v ∧
        (∀ i j, i < 64 → j < 64 → Claims.lane 32 (v.cur.row (64 * t.toNat + i)) j = Claims.lane 32 (s.cur.row (64 * t.toNat + j)) i) ∧
        (∀ q, q / 64 = t.toNat → v.cur.rowSet q = (List.range 64).foldl (fun (m : Taint) i => m ||| s.cur.rowSet (64 * t.toNat + i)) 0) ∧
        (∀ q, q / 64 ≠ t.toNat → v.cur.row q = s.cur.row q ∧ v.cur.rowSet q = s.cur.rowSet q)) ∧
      (s.cur.tile t.toNat ≠ .fp32 → s.cur.tile t.toNat ≠ .int32 → exec (.axpose t) s = .next (s.stop (.trap 0x02))) ∧
      exec (.await t) s = .next (s.retire 2)) ∧
    (s.cur.tileBusy t.toNat = true → ∀ i ∈ [Instr.await t, .afmt t 0, .aclr t 0 0, .amov t d a t], exec i s = .next (s.await .engine))

/-- A write of QTAIL (R259, R260, R321): discarded, with OVF set, while the queue is in ERROR, past the ring's size, behind the
tail, and while the TDI is not locked; the current tail appends nothing; the next index appends one record. OVF is cleared by a write to it; a reset waits
for the started records, then leaves the queue empty and out of ERROR (R271). The model's own choices in it: log 38. -/
def Sys2Proof.Claims.QueueRegisters : Prop :=
  ∀ (tdi q value : Nat) (s : State) (key : Nat) (x : Queue), s.tdiQueue tdi q = some (key, x) →
    let d := (BitVec.ofNat 32 value - x.head).toNat
    (s.tdiAccepts tdi = false ∨ x.error = true ∨ 2 ^ x.ringLog < d ∨ d < (x.tail - x.head).toNat →
      exec (.qtailWrite tdi q value) s = .next (s.modQueue key (fun x => { x with ovf := true }))) ∧
    (s.tdiAccepts tdi = true → x.error = false → d ≤ 2 ^ x.ringLog → (x.tail - x.head).toNat ≤ d →
      (BitVec.ofNat 32 value = x.tail → exec (.qtailWrite tdi q value) s = .next s) ∧
      (BitVec.ofNat 32 value = x.tail + 1 → exec (.qtailWrite tdi q value) s = .next (s.appendRecord key))) ∧
    (s.tdiAccepts tdi = true ↔ (s.tdi tdi).state = .locked ∨ (s.tdi tdi).state = .run) ∧
    exec (.qstateOvfClear tdi q) s = .next (s.modQueue key (fun x => { x with ovf := false })) ∧
    exec (.qctlReset tdi q) s = .next (s.modQueue key (fun x => { x with resetPending := true })) ∧
    (x.resetPending = true → (∃ r ∈ x.records, r.phase.started = true ∧ r.phase ≠ .complete) → exec (.queueResetComplete tdi q) s = .next s) ∧
    (Store.find? s.queues key = some x → x.resetPending = true → x.records = [] → ∃ t, exec (.queueResetComplete tdi q) s = .next t ∧
      Store.find? t.queues key = some { x with head := x.tail, error := false, ovf := false, bad := 0, resetPending := false } ∧ s.sameMemory t)

/-- Appending a record reads its 256 bytes at the ring's place for the tail, and puts it behind the others as appended, the
tail one on (R260). The model's own choices in it: log 27. -/
def Sys2Proof.Claims.RecordAppends : Prop :=
  ∀ (s s1 : State) (key : Nat) (q : Queue) (ls : List Loc), Store.find? s.queues key = some q →
    (∀ k ∈ q.records, k.ring ≠ q.tail.toNat) →
    s.locateRange (queueWho key q) false .read false .held 2 (q.ringBase + 256 * (q.tail.toNat % 2 ^ q.ringLog)) 256 = .ok (s1, ls) →
    firstCause s1.readCause ls = none →
    ∃ y r, Store.find? (s.appendRecord key).queues key = some y ∧ y.tail = q.tail + 1 ∧ y.head = q.head ∧ y.records = q.records ++ [r] ∧
      r.ring = q.tail.toNat ∧ r.bits = BitVec.ofNat 2048 (numOf (s.readLocs ls)) ∧ r.phase = .appended ∧
      r.silent = (areaCause q.area (recNum r.bits 0x64 4)).isSome

/-- The steps of a candidate (Table 15-2, R261, R262): a failed check completes it with FAULT and its cause; one that passes
comes to its wait list; there a negative signal completes it with SIGNEG, a positive one keeps it waiting, and zeros let it
start. The model's own choices in it: log 28. -/
def Sys2Proof.Claims.Candidates : Prop :=
  ∀ (tenant q : Nat) (s : State) (x : Queue) (r : Record), let key := queueKey tenant q
    s.consider key = some (x, r) →
    (r.phase = .appended →
      (∀ c, s.candCheck (queueWho key x) x r.bits = .error (.trap c) →
        exec (.candidateCheck tenant q) s = .next ((s.countCheck c).completeRecord key r.ring 0x13 c 0)) ∧
      (∀ i, s.candCheck (queueWho key x) x r.bits = .error (.fault i) → i.cause.toNat / 16 = 4 →
        exec (.candidateCheck tenant q) s = .next (s.completeRecord key r.ring 0x13 i.cause 0)) ∧
      (∀ t h g first last, s.candCheck (queueWho key x) x r.bits = .ok (t, h, g, first, last) → recNum r.bits 0x0C 1 ≠ 0 →
        exec (.candidateCheck tenant q) s = .next (t.modQueue key (fun y => y.modRecord r.ring (fun r => { r with
          phase := .waitList, decl := some h.decl, entries := h.entries, gangSize := if recFlag r.bits 1 then h.gang else 1,
          group := g, nextTask := first, endTask := last })))) ∧
      exec (.waitListEvaluation tenant q) s = .next s) ∧
    (r.phase = .waitList → ∀ off t bs, recWaits r.bits = [off] → s.candRead (queueWho key x) x.sigHandle rightR off 8 8 .read = .ok (t, bs) →
      (signedOf 64 (numOf bs) < 0 → exec (.waitListEvaluation tenant q) s = .next (t.completeRecord key r.ring 0x11 0 0)) ∧
      (0 < signedOf 64 (numOf bs) → exec (.waitListEvaluation tenant q) s = .next t) ∧
      (signedOf 64 (numOf bs) = 0 → recRanges r.bits = [] → exec (.waitListEvaluation tenant q) s = .next (t.startRecord key r.ring)))

/-- The start of a record captures its queue's signal handle and area, and lets its tasks go, those of a POD record once
every member has arrived at its start barrier (R36, R258, R264). Arrivals with another generation are ignored; a barrier
that is not complete within its timeout fails the record with 0xC4, one whose own handle is revoked completes with REVOKED (R267). The
model's own choices in it: log 28. -/
def Sys2Proof.Claims.RecordStarts : Prop :=
  ∀ (tenant q idx rank gen : Nat) (s : State) (x : Queue) (r : Record), let key := queueKey tenant q
    Store.find? s.queues key = some x → x.record idx = some r →
    (recFlag r.bits 3 = false → r.nextTask < r.endTask → r.faulted = none → r.revoked = false → r.live = 0 → ∃ y r',
      Store.find? (s.startRecord key idx).queues key = some y ∧ y.record idx = some r' ∧ r'.phase = .running ∧
      r'.sigHandle = x.sigHandle ∧ r'.area = x.area ∧ r'.nextTask = r.nextTask ∧ r'.endTask = r.endTask) ∧
    (gen ≠ recNum r.bits 0x68 4 → exec (.startBarrierArrival tenant q idx rank gen) s = .next s) ∧
    (recFlag r.bits 3 = true → gen = recNum r.bits 0x68 4 → r.arrivals.contains rank = false → r.phase = .startBarrier →
      (∃ k, k < r.group.size ∧ k ≠ rank ∧ r.arrivals.contains k = false) → exec (.startBarrierArrival tenant q idx rank gen) s =
        .next (s.modQueue key (fun x => x.modRecord idx (fun r => { r with arrivals := r.arrivals ++ [rank] })))) ∧
    (r.phase = .startBarrier → let bound := ((Store.find? s.parts x.part).map Partition.startTimeout).getD 0 * Config.cyclesPerMicro
      (r.since + bound ≤ s.cycle → exec (.podStartTimeout tenant q idx) s =
        .next (if r.revoked then s.completeRecord key idx 0x12 0x74 0 else s.completeRecord key idx 0x13 0xC4 0)) ∧
      (s.cycle < r.since + bound → exec (.podStartTimeout tenant q idx) s = .next s)) ∧
    (∀ status cause task, r.phase = .running → recFlag r.bits 3 = true → rank < r.group.size → rank ≠ r.group.rank →
      exec (.replicaCompletion tenant q idx rank status cause task) s =
        .next (s.replicaDone key idx rank (BitVec.ofNat 64 (statusWord (status % 256) (BitVec.ofNat 8 cause) (BitVec.ofNat 32 task)))))

/-- RANGE_MIGRATION (R263, R275): a range that the object does not hold is 0x73, and fewer frames than pages outside the partition's
slices are 0x62; each fails the candidate. Pages that lie in the partition's slices already are left alone: of memory nothing changes but
the frames and the table entries that the MC writes, and nothing at all where every page lies there; then the record starts with its
preferred die. The model's own choices in it: log 28, 37. -/
def Sys2Proof.Claims.RangeMigrations : Prop :=
  ∀ (tenant q : Nat) (frames : List Nat) (writes : List (Nat × Word)) (owners : List (Nat × Nat)) (s : State) (x : Queue) (r : Record),
    let key := queueKey tenant q
    s.consider key = some (x, r) → r.phase = .migration →
    (∀ c, s.migrateRanges (queueWho key x) (s.rootOf x.ctx) r.bits frames writes owners = .error (.trap c) →
      exec (.rangeMigration tenant q frames writes owners) s = .next ((s.countCheck c).completeRecord key r.ring 0x13 c 0)) ∧
    (∀ t ps, s.migrateRanges (queueWho key x) (s.rootOf x.ctx) r.bits frames writes owners = .ok t →
      t.rangePlaces (queueWho key x) (s.rootOf x.ctx) r.bits = .ok ps → exec (.rangeMigration tenant q frames writes owners) s =
        .next ((t.modQueue key (fun y => y.modRecord r.ring (fun r => { r with die := t.preferredDie x.part ps }))).startRecord key r.ring)) ∧
    ((∃ e ∈ recRanges r.bits, hLen (recHandle r.bits e.1) < (e.2.1 + e.2.2) * 65536) →
      s.migrateRanges (queueWho key x) (s.rootOf x.ctx) r.bits frames writes owners = .error (.trap 0x73)) ∧
    (∀ ps, s.rangePlaces (queueWho key x) (s.rootOf x.ctx) r.bits = .ok ps →
      let outside := ps.filter (fun p => p.2.2 || !s.inSlices x.part (p.2.1 * 65536))
      (frames.length < outside.length → s.migrateRanges (queueWho key x) (s.rootOf x.ctx) r.bits frames writes owners = .error (.trap 0x62)) ∧
      (outside = [] → ∃ t, s.migrateRanges (queueWho key x) (s.rootOf x.ctx) r.bits frames [] [] = .ok t ∧ s.sameMemory t) ∧
      ∀ t, s.migrateRanges (queueWho key x) (s.rootOf x.ctx) r.bits frames writes [] = .ok t →
        s.sameMemoryBut t ((frames.take outside.length).flatMap (fun f => (List.range 65536).map (fun i => Loc.hbm (f * 65536 + i))) ++
          writes.flatMap (fun w => entryPlaces w.1)))

/-- Abort forwarding (R268): a record that completes with another status than done and AFD clear puts its queue into ERROR,
and of the records that had not started none is left to start; a started record is as it was. -/
def Sys2Proof.Claims.AbortForwarding : Prop :=
  ∀ (s : State) (key ring status : Nat) (cause : Cause) (task : BitVec 32) (q : Queue) (r : Record),
    Store.find? s.queues key = some q → q.record ring = some r → status ≠ 2 → recFlag r.bits 4 = false →
    (q.records.map Record.ring).Nodup →
    ∃ y, Store.find? (s.completeRecord key ring status cause task).queues key = some y ∧ y.error = true ∧
      (∀ r' ∈ y.records, r'.phase.started = true) ∧
      (∀ k ∈ q.records, k.ring ≠ ring → k.phase.started = true → k.phase ≠ .complete → k ∈ y.records)

/-- TASK_DISPATCH (R27, R28, R274): the first record in the LW's order gives its next tasks to the cores chosen for them, in
task order; each begins at its entries with the registers of R28, on a core of its partition that was free. The model's own choices in it: log 37. -/
def Sys2Proof.Claims.Dispatches : Prop :=
  ∀ (part : Nat) (s : State) (key : Nat) (q : Queue) (r : Record) (rest : List (Nat × Queue × Record)) (cores : List Nat),
    s.serviceOrder part = (key, q, r) :: rest → s.seats key q r (recFlag r.bits 2) = some cores → cores.Nodup →
    exec (.taskDispatch part) s = .next (s.dispatch key q r cores) ∧
    (∀ n ∈ cores, s.coreFree key r.ring (key / 64) (recFlag r.bits 2) n = true ∧ s.clusterPart (n / 16) = some q.part) ∧
    (∀ i n, cores[i]? = some n → (∀ p ∈ s.tenants, p.2.rotating = false) → ∃ u, ((s.dispatch key q r cores).core n).task = some u ∧
      u.number = BitVec.ofNat 32 (r.nextTask + i) ∧ u.tenant = key / 64 ∧ u.ctx = q.ctx ∧ u.part = q.part ∧ u.ring = r.ring ∧
      ((s.dispatch key q r cores).core n).seqs.ctl.pc = r.entries.ctl ∧ ((s.dispatch key q r cores).core n).seqs.ctl.run = .running ∧
      ((s.dispatch key q r cores).core n).seqs.ctl.reg 7 = (BitVec.ofNat 32 (r.nextTask + i)).zeroExtend 64)

/-- CORE_CLAIM (R24): where no core with its zero walk done is free for the next tasks of a PROTECTED record, free cores are
claimed for it; other records claim none. The model's own choices in it: log 37. -/
def Sys2Proof.Claims.CoreClaims : Prop :=
  ∀ (tenant q idx : Nat) (s : State) (x : Queue) (r : Record) (cores : List Nat), let key := queueKey tenant q
    Store.find? s.queues key = some x → x.record idx = some r →
    (recFlag r.bits 2 = false → exec (.coreClaim tenant q idx) s = .next s) ∧
    (recFlag r.bits 2 = true → s.dispatchable x r = true → s.seats key x r true = none → s.seats key x r false = some cores →
      s.cores.any (fun (p : Nat × Core) => p.2.claim == some (key, idx)) = false →
      ∃ t, exec (.coreClaim tenant q idx) s = .next t ∧ (∀ n ∈ cores, (t.core n).claim = some (key, idx)) ∧ t.queues = s.queues)

/-- TASK_END (R15, R29): a task whose sequencers have all ended, with nothing outstanding, ends without fault, or with the
cause raised after an END; a sequencer halted for good ends it with FAULT once its accesses have performed; otherwise it runs
on. The model's own choices in it: log 21. -/
def Obligations.TaskEnds : Prop :=
  ∀ (core : Nat) (s : State) (k : Task), let c := s.core core
    c.task = some k → (∀ q, s.faults.any (fun f => f.unit == .seq core q) = false) →
    ((∀ q, (c.seqs.get q).run = .ended) → c.loads = [] → c.stores = [] → c.copies = [] → c.me.active = none → c.me.pendingOp = none → c.colls = [] →
      ((∀ q, (c.seqs.get q).late = none) → exec (.taskEnd core) s = .next (s.endTask core none)) ∧
      (∀ e, c.seqs.ld.late = some e → exec (.taskEnd core) s = .next (s.endTask core (some e)))) ∧
    (c.seqs.ld.run = .halted → c.loads = [] → c.stores = [] → exec (.taskEnd core) s = .next (s.endTask core (some c.seqs.ld.cause))) ∧
    ((∀ q, (c.seqs.get q).run ≠ .halted) → (∃ q, (c.seqs.get q).run = .running ∨ (c.seqs.get q).run = .waiting) → exec (.taskEnd core) s = .next s) ∧
    (core < 512 → c.loads = [] → c.stores = [] → k.launch = none → ∃ u, u = s.endTask core none ∧ (u.core core).task = none ∧
      (u.core core).seqs.ld.run = .idle ∧ (u.core core).copies = [] ∧ (u.core core).mints = [])

/-- The fault rings (R284, R285, Table 15-7): writes of FRBASE, FRSIZE and FRCONS; a restartable fault that finds no room is
held, and where 64 are held already its unit is to raise it afresh; FRES with action 0 lets the halted sequencer issue its instruction again, with action 1 the task ends, and an id
that names no halted unit is ignored. The model's own choices in it: log 38. -/
def Obligations.FaultRings : Prop :=
  ∀ (tdi id value : Nat) (s : State) (f : FaultRec), let t := s.tdi tdi
    let put := fun (x : Tdi) => Host.Outcome.next (φ := Fault) (ρ := Refusal) ({ s with tdis := Store.put tdi x s.tdis } : State)
    (tdi < 32 → (∀ g ∈ s.faults, g.tdi = tdi → g.held = false ∧ g.beyond = false) →
      (value < 2 ^ 57 → value % 4096 = 0 → exec (.registerWrite tdi 0x00 value) s = put { t with frbase := BitVec.ofNat 64 value }) ∧
      (value = 0 ∨ (4 ≤ value ∧ value ≤ 12) → exec (.registerWrite tdi 0x08 value) s = put { t with frsize := value }) ∧
      exec (.registerWrite tdi 0x14 value) s = put { t with frcons := BitVec.ofNat 32 value }) ∧
    (32 ≤ tdi → exec (.registerWrite tdi id value) s = .next s) ∧
    (∀ u i, i.toGuest = true → t.room = false → s.addFault u tdi i =
      { s with faults := s.faults ++ [⟨s.nextFault, u, i, tdi, true, decide (64 ≤ s.fstat tdi)⟩], nextFault := (s.nextFault + 1) % 2 ^ 32 }) ∧
    (∀ s1 ls, f.tdi = tdi → t.room = true →
      s.locateRange ((s.core (f.unit.core.getD 0)).who (f.unit.core.getD 0)) false .write false .held 2
        (t.frbase.toNat % 2 ^ 57 + t.frprod.toNat % 2 ^ t.frsize * 32) 32 = .ok (s1, ls) →
      (s.writeRing f).tdi tdi = { t with frprod := t.frprod + 1 } ∧ (∀ g ∈ (s.writeRing f).faults, g.id = f.id → g.held = false ∧ g.beyond = false)) ∧
    (s.guestFault tdi id = none → exec (.fresRetry tdi id) s = .next s ∧ exec (.fresEndTask tdi id) s = .next s) ∧
    (s.guestFault tdi id = some f →
      (∀ n q, f.unit = .seq n q → ((s.core n).seqs.get q).run = .halted → ∃ u, exec (.fresRetry tdi id) s = .next u ∧
        ((u.core n).seqs.get q).run = .running ∧ ((u.core n).seqs.get q).pc = ((s.core n).seqs.get q).pc ∧ ∀ g ∈ u.faults, g.id ≠ id) ∧
      (∀ n k, f.unit.core = some n → n < 512 → (s.core n).task = some k → k.launch = none → (s.core n).loads = [] → (s.core n).stores = [] →
        ∃ u, exec (.fresEndTask tdi id) s = .next u ∧ (u.core n).task = none ∧ ∀ g ∈ u.faults, g.id ≠ id))

/-- Faults of the engines and of the second stage, and invalidations (R252, R254, R283, R286). A resolved second-stage fault
lets its unit try again, once no page that the MC writes is being copied (R295), an unresolved one ends the task, or the candidate, with FAULT; a running copy or collective
halts at the element or chunk whose access fails; an invalidation sets its marker behind every copy and is pending beside those
before it, with its own bound, and a core without a task acknowledges on arrival. The model's own choices in it: log 38. -/
def Obligations.FaultService : Prop :=
  ∀ (id core cid elem : Nat) (writes : List (Nat × Word)) (owners : List (Nat × Nat)) (s : State) (f : FaultRec), let c := s.core core
    (s.faults.find? (fun f => f.id == id && !f.info.toGuest) = some f →
      let s1 := s.dropFault id
      (s.mcWaits writes = true → exec (.secondStageFaultService id true writes owners) s = .next s) ∧
      (∀ n q, s.mcWaits writes = false → f.unit = .seq n q → ((s.core n).seqs.get q).run = .halted → ∃ u, exec (.secondStageFaultService id true writes owners) s = .next u ∧
        ((u.core n).seqs.get q).run = .running ∧ ∀ g ∈ u.faults, g.id ≠ id) ∧
      (∀ key r, f.unit = .candidate key r →
        (s.mcWaits writes = false → exec (.secondStageFaultService id true writes owners) s =
          .next ((((s1.mcWrites writes).setOwners owners).checkCandidate key).evaluate key)) ∧
        exec (.secondStageFaultService id false writes owners) s = .next (s1.completeRecord key r 0x13 f.info.cause 0)) ∧
      (∀ n, f.unit.core = some n → exec (.secondStageFaultService id false writes owners) s = .next (s1.failTask n f.info.cause))) ∧
    (∀ k, c.copy? cid = some k →
      (c.copyMoves k = false → exec (.copyTranslationFault core cid elem false) s = .next s) ∧
      (c.copyMoves k = true → let t := s.runCopy core cid (elem + 1 - k.next)
        (∀ x, ((t.core core).copy? cid).bind Copy.fault = some x → exec (.copyTranslationFault core cid elem false) s = .next t) ∧
        ((t.core core).task = none → exec (.copyTranslationFault core cid elem false) s = .next t))) ∧
    (∀ k i, Store.find? c.colls cid = some k → c.collMoves k = true → let off := elem * k.esz / 4096 * 4096
      s.collRead core k.src (k.soff + off) (Nat.min 4096 (k.srcBytes c.group.axes - off)) = .error (.fault i) →
      s.restartable ((c.task.map Task.tdi).getD 0) i = true → exec (.copyTranslationFault core cid elem true) s =
        .next ((s.modCore core (fun c => c.modColl cid (fun k => { k with fault := some s.nextFault }))).addFault (.coll core cid)
          ((c.task.map Task.tdi).getD 0) i)) ∧
    (s.clusterPart (core / 16) = none → exec (.invalidation core) s = .next s) ∧
    (∀ part, s.clusterPart (core / 16) = some part →
      (c.task ≠ none → (∀ i ∈ c.invals, i.acked = false ∧ i.passed.ctl = false) → ∃ t, exec (.invalidation core) s = .next t ∧
        (t.core core).invals = c.invals ++ [⟨part, Quad.all false, false, s.cycle, s.writes + 1⟩] ∧
        (∀ k ∈ (t.core core).copies, k.oldMap = true) ∧ t.dies = s.dies ∧ s.sameMemory t) ∧
      (c.task = none → c.copies = [] → c.invals = [] → ∃ t, exec (.invalidation core) s = .next t ∧ (t.core core).invals = [] ∧ s.sameMemory t ∧
        ∀ p, Store.find? s.parts part = some p → ∃ p', Store.find? t.parts part = some p' ∧ p'.acks core = p.acks core + 1 ∧
          p'.invalsDone = ((p'.cores.map p'.acks).min?).getD p.invalsDone))

/-- A task at rest on its core: nothing outstanding, no wait half done, nothing to raise. -/
def Sys2Proof.Claims.Resting (s : State) (n : Nat) (k : Task) : Prop :=
  let c := s.core n
  n < 512 ∧ c.task = some k ∧ c.loads = [] ∧ c.stores = [] ∧ c.copies = [] ∧ c.mints = [] ∧ c.colls = [] ∧
    ∀ q, (c.seqs.get q).mark = none ∧ (c.seqs.get q).late = none ∧ (c.seqs.get q).run ≠ .halted

/-- The watchdogs (R39, R254, R288, R292): a gang of which every core has been stuck for 4,096 cycles ends with 0xA5; an
invalidation that waits beyond the quiescent bound, and tasks that remain beyond the drain bound, are hard-stopped, with
0xD5 and 0xD2. Before the bound none does anything. The model's own choices in it: log 36. -/
def Sys2Proof.Claims.Watchdogs : Prop :=
  ∀ (gang core ctx : Nat) (s : State) (k : Task) (i : Inval) (c : Context) (since : Nat),
    (∀ g, Store.find? s.gangs gang = some g →
      ((∃ n ∈ g.cores, (s.core n).stuck = false ∨ s.cycle < (s.core n).lastActive + 4096) → exec (.deadlockWatchdog gang) s = .next s) ∧
      (g.cores = [core] → core < 512 → (s.core core).stuck = true → (s.core core).lastActive + 4096 ≤ s.cycle → (s.core core).task = some k →
        k.gang = gang → k.launch = none → ∃ t, exec (.deadlockWatchdog gang) s = .next t ∧ (t.core core).task = none ∧
          ∀ q r, Store.find? s.queues (queueKey k.tenant k.queue) = some q → q.record k.ring = some r → r.faulted = none → 2 ≤ r.live →
            ∃ q' r', Store.find? t.queues (queueKey k.tenant k.queue) = some q' ∧ q'.record k.ring = some r' ∧
              r'.faulted = some (0xA5, k.number) ∧ r'.live = r.live - 1)) ∧
    ((s.core core).invals.head? = some i → (s.core core).task = some k →
      (i.since + s.boundOf k.part Partition.quiescentBound ≤ s.cycle → exec (.quiescentPointWatchdog core) s = .next (s.hardStop core 0xD5 true)) ∧
      (s.cycle < i.since + s.boundOf k.part Partition.quiescentBound → exec (.quiescentPointWatchdog core) s = .next s)) ∧
    (Store.find? s.ctxs ctx = some c → c.draining = some (since, false) →
      (s.cycle < since + s.boundOf c.part Partition.drainBound → exec (.drainWatchdog ctx) s = .next s) ∧
      (since + s.boundOf c.part Partition.drainBound ≤ s.cycle → s.coresOf ctx ≠ [] → s.stoppable (s.coresOf ctx) = true →
        exec (.drainWatchdog ctx) s = .next ((s.coresOf ctx).foldl (fun (t : State) n => t.hardStop n 0xD2 true)
          { s with ctxs := Store.put ctx { c with draining := some (since, true) } s.ctxs, replies := s.replies ++ [.preempted ctx 0xD2 none] })))

/-- Pre-emption at the end of a slice (R288): the drain begins, is reported complete with 0xD0, or 0xD2 where it was escalated,
once no task of the context is left, and a resumed context may dispatch again. -/
def Sys2Proof.Claims.Drains : Prop :=
  ∀ (ctx : Nat) (s : State) (c : Context), Store.find? s.ctxs ctx = some c →
    let put := fun (x : Context) => ({ s with ctxs := Store.put ctx x s.ctxs } : State)
    (c.draining = none → c.drained = false → exec (.sliceEndPreemption ctx) s = .next (put { c with draining := some (s.cycle, false) })) ∧
    (∀ since hard, c.draining = some (since, hard) →
      (s.coresOf ctx = [] → exec (.drainComplete ctx) s = .next { put { c with draining := none, drained := true } with
        replies := s.replies ++ [.preempted ctx (if hard then 0xD2 else 0xD0) none] }) ∧
      (s.coresOf ctx ≠ [] → exec (.drainComplete ctx) s = .next s)) ∧
    (c.drained = true → exec (.contextResume ctx) s = .next (put { c with drained := false })) ∧
    (∀ (q : Queue) (r : Record), q.ctx = ctx → c.draining ≠ none ∨ c.drained = true → s.dispatchable q r = false)

/-- HARD_STOP of a task at rest (R289, R332, R333, R373, Table 15-10): its image, the bytes that the TC seals under the next session
counter, is reported with 0xD1, the value joins the live set, and the core is free; no byte of memory changes. A full live set refuses
it with 0xD2, and a scratchpad row of it that cannot be read ends the task instead. A persistent stop through a fit handle binds a free
counter, seals the image under the counter's next value, writes it through the handle and leaves it to its commit, or, where it cannot be
written, reports that there is none; without a handle it is refused with 0xD2. The model's own choices in it: log 35, 36. -/
def Sys2Proof.Claims.HardStops : Prop :=
  ∀ (n : Nat) (s : State) (k : Task) (x : Context),
    Claims.Resting s n k → Store.rising s.cores = true → s.stoppedWith n = [n] → Store.find? s.ctxs k.ctx = some x →
    (x.live.length < 512 → s.imageCause n k = none → ∀ s3 s4 v bytes, s.nextSession k.ctx false = some (s3, v, none) →
      s3.sealImage n k false none v = some (s4, bytes) →
      v = Store.getD s.sessionCounts k.ctx 0 + 1 ∧ ∃ u, exec (.hardStop n false []) s = .next u ∧ (u.core n).task = none ∧
        u.replies = s.replies ++ [.image n 0xD1 true bytes, .preempted k.ctx 0xD1 none] ∧ u.tenants = s4.tenants ∧
        (∃ p, Store.find? u.parked (parkedNumber (queueKey k.tenant k.queue) k.ring k.number.toNat) = some p ∧ p.task = k) ∧
        (∃ y, Store.find? u.ctxs k.ctx = some y ∧ y.live = x.live ++ [v]) ∧ Store.find? u.sessionCounts k.ctx = some v ∧ s.sameMemory u) ∧
    (x.live.length < 512 → ∀ e, s.imageCause n k = some e → exec (.hardStop n false []) s = .next (s.endTask n (some e))) ∧
    (512 ≤ x.live.length → exec (.hardStop n false []) s = .next { s with replies := s.replies ++ [.preempted k.ctx 0xD2 none] }) ∧
    (∀ hv s1 idx, s.pageCounter k = some (s1, idx) → hPersist hv = true → s.accessCause (hTenant hv) hv rightS 0 (s.imageLength n k) 1 = none →
      s.imageCause n k = none → ∀ s3 bytes t,
      s1.sealImage n k false (some idx) (((Store.find? s.counters idx).map Counter.value).getD 0 + 1) = some (s3, bytes) →
      Store.find? s.tenants k.tenant = some t →
      let place := s3.serviceReach (s3.serviceWho (hTenant hv) (hContext hv)) hv rightS 0 bytes.length 1 .write
      (∀ s4 ls, place = .ok (s4, ls) → ∃ u, exec (.hardStop n true [hv]) s = .next u ∧ (u.core n).task = none ∧
        u.replies = s.replies ++ [.image n 0xD1 true bytes, .preempted k.ctx 0xD1 none] ∧
        u.commits = s.commits ++ [⟨idx, none, hv, k.tenant, k.ctx, t.gen, ((Store.find? s.counters idx).map Counter.value).getD 0 + 1, bytes⟩] ∧ State.sameMemory (s4.writeLocs (ls.zip bytes)) u) ∧
      (∀ e, place = .error e → ∃ u, exec (.hardStop n true [hv]) s = .next u ∧ (u.core n).task = none ∧
        u.replies = s.replies ++ [.image n 0xD1 false []] ∧ u.commits = s.commits ∧ s.sameMemory u)) ∧
    exec (.hardStop n true []) s = .next { s with replies := s.replies ++ [.preempted k.ctx 0xD2 none] }

/-- SAVE of a task at rest (R149, R290, R329, R332, R373): the image that the TC seals under the next session counter is written through
the handle, and d receives 0, or 2^63 + 1 where the live set is full or the image key has sealed its last image; a persistent SAVE without a
counter or a PERSIST handle is 2^63 + 2, with both the image sealed under the counter's next value is written, and SAVE waits for its
commit, whose outcome it receives. A scratchpad row that cannot be read traps. The task goes on. The model's own choices in it: log 35. -/
def Sys2Proof.Claims.Saves : Prop :=
  ∀ (d h : BitVec 5) (c : BitVec 1) (s s2 : State) (k : Task) (x : Context) (t : Tenant) (root hv : BitVec 256) (ls : List Loc) (v : Word) (e : Nat),
    s.curSq = .ctl → s.scalars [d.toNat] = .ok () → s.handleReg h.toNat = .ok hv →
    let n := s.curCore
    (s.seq.mark = some (.saved e v) → exec (.save d h c) s = .next ((s.put d.toNat v 0).retire 2)) ∧
    (s.seq.mark = some (.save e) → exec (.save d h c) s = .next (s.await .other)) ∧
    (Claims.Resting s n k → (∀ e, s.handleCause k.tenant hv rightS = some e → exec (.save d h c) s = .next (s.stop (.trap e)))) ∧
    (Claims.Resting s n k → Store.rising s.cores = true → s.handleCause k.tenant hv rightS = none →
      (s.counterOf k = none ∨ hPersist hv = false → exec (.save d h 1) s = .next ((s.put d.toNat (BitVec.ofNat 64 (2 ^ 63 + 2)) 0).retire 2)) ∧
      (∀ e, s.imageCause n k = some e → exec (.save d h 0) s = .next (s.stop (.trap e))) ∧
      (s.imageCause n k = none → s.reach hv rightS 0 (s.imageLength n k) 1 .write = .ok (s2, ls) → s2.writable ls = .ok () →
        Store.find? s.ctxs k.ctx = some x → Store.find? s.tenants k.tenant = some t → Store.find? t.imageRoots t.gen = some root →
        let used := Store.getD t.seals (k.ctx * 2 ^ 32 + t.gen) 0
        let m := Store.getD s.sessionCounts k.ctx 0 + 1
        let failed := Host.Outcome.next (φ := Fault) (ρ := Refusal) ((s2.put d.toNat (BitVec.ofNat 64 (2 ^ 63 + 1)) 0).retire 2)
        let written := fun (s3 u : State) (bytes : List Byte) => ({ s3 with tenants := u.tenants, draws := u.draws } : State).writeNow (ls.zip bytes)
        (512 ≤ x.live.length ∨ 2 ^ 32 ≤ used → exec (.save d h 0) s = failed) ∧
        (x.live.length < 512 → used < 2 ^ 32 → ∃ s3 u bytes y, s2.nextSession k.ctx false = some (s3, m, none) ∧
          Store.find? s3.ctxs k.ctx = some y ∧ y.live = x.live ++ [m] ∧ Store.find? s3.sessionCounts k.ctx = some m ∧
          ({ s3 with cores := s.cores, gangs := s.gangs, launches := s.launches } : State).sealImage n k true none m = some (u, bytes) ∧
          exec (.save d h 0) s = .next (((written s3 u bytes).put d.toNat 0 0).retire 2)) ∧
        (∀ i y, s.counterOf k = some (i, y) → hPersist hv = true →
          (2 ^ 32 ≤ used → exec (.save d h 1) s = failed) ∧
          (used < 2 ^ 32 → ∃ u bytes,
            ({ s2 with cores := s.cores, gangs := s.gangs, launches := s.launches } : State).sealImage n k true (some i) (y.value + 1) = some (u, bytes) ∧
            exec (.save d h 1) s = .next (State.awaitMark { written s2 u bytes with
              commits := s.commits ++ [⟨i, some n, hv, k.tenant, k.ctx, t.gen, y.value + 1, bytes⟩] } .other (.save d.toNat))))))

/-- PERSISTENT_COMMIT (R333, R334): the oldest commit of a counter, its image reading back as it was written, sealed under the
counter's next value, with a good answer of the store, takes that value with its commit record, the root in it wrapped; the waiting SAVE
receives it, and that of a hard stop is reported. Otherwise the counter stays, SAVE receives 2^63 + 1, and the failure is
reported. The other commits stay. The model's own choices in it: log 35, 39. -/
def Sys2Proof.Claims.Commits : Prop :=
  ∀ (idx : Nat) (good : Bool) (s s1 : State) (k : Commit) (x : Counter) (t : Tenant) (root : BitVec 256),
    s.commits.find? (fun k => k.counter == idx) = some k → Store.find? s.counters idx = some x →
    (s.readImage k.handle 0 k.image.length = .ok (s1, k.image) → x.commits < 1000000 → k.value = x.value + 1 → Store.find? s.tenants k.tenant = some t →
      Store.find? t.imageRoots k.gen = some root → ∃ u, exec (.persistentCommit idx true) s = .next u ∧
        Store.find? u.counters idx = some { x with
          value := x.value + 1, commits := x.commits + 1, record := some ⟨k.tenant, t.owner, k.gen, s.wrapped root⟩ } ∧
        (∀ n d, k.core = some n → (s.core n).seqs.ctl.mark = some (.save d) →
          (u.core n).seqs.ctl.mark = some (.saved d (BitVec.ofNat 64 (x.value + 1)))) ∧
        (k.core = none → u.replies = s.replies ++ [.committed idx (some (x.value + 1))]) ∧ u.commits = s.commits.erase k) ∧
    (good = false ∨ 1000000 ≤ x.commits ∨ k.value ≠ x.value + 1 ∨ (∀ t, s.readImage k.handle 0 k.image.length ≠ .ok (t, k.image)) →
      ∃ u, exec (.persistentCommit idx good) s = .next u ∧ u.counters = s.counters ∧
        (∀ n d, k.core = some n → (s.core n).seqs.ctl.mark = some (.save d) →
          (u.core n).seqs.ctl.mark = some (.saved d (BitVec.ofNat 64 (2 ^ 63 + 1)))) ∧
        (k.core = none → u.replies = s.replies ++ [.committed idx none]) ∧ u.commits = s.commits.erase k)

/-- RESTORE (R299, R314, R330, R378): another requester than the MC is refused; a refusal names the first check that fails and changes
nothing else: 0x94 for the header, 0x96 for a generation that is not held or an owner that is not the recorded one, 0x96 again for an
image that only a root no slot holds any more opens (the model's choice of how an old image is known: log 35), 0x94 for the tag,
0x95 for the counter; images of no whole gang are malformed, and where no cores are free the answer is exhausted; the image of a gang of one is
restored on the core chosen for it, with its sequencers as recorded, and its session counter leaves the live set. The model's own
choices in it: log 35, 36, 39. -/
def Sys2Proof.Claims.Restores : Prop :=
  ∀ (w : Requester) (h : BitVec 256) (hs : List (BitVec 256)) (s : State) (i : Image) (k : Task) (q : Quad SeqState) (n : Nat) (c : Cause),
    let answer := fun (status : Nat) (cause : Cause) => Host.Outcome.next (φ := Fault) (ρ := Refusal) ({ s with replies := s.replies ++ [.restored status cause] } : State)
    (w ≠ .mc → exec (.restore ⟨w, hs⟩) s = answer 1 0) ∧
    (s.openImage h = .error c → exec (.restore ⟨.mc, [h]⟩) s = answer 1 c) ∧
    (∀ s1 head, s.readImage h 0 0x100 = .ok (s1, head) →
      let gen := numAt head 0x10 4
      let tenant := Store.find? s.tenants (numAt head 0x0A 2)
      let record := if numAt head 8 1 = 1 then (Store.find? s.counters (numAt head 0x0E 2)).bind Counter.record else none
      let recorded := fun (r : CommitRecord) => record = some r ∧ r.gen = gen ∧ r.tenant = numAt head 0x0A 2
      let held := fun (t : Tenant) => gen = t.gen ∨ (t.older = true ∧ gen + 1 = t.gen)
      (goodImageHeader head (hLen h) = false → s.openImage h = .error 0x94) ∧
      (goodImageHeader head (hLen h) = true →
        (tenant = none → s.openImage h = .error 0x96) ∧
        (∀ t, tenant = some t → (∀ r, ¬recorded r) → ¬held t → s.openImage h = .error 0x96) ∧
        (∀ t r, tenant = some t → recorded r → r.owner ≠ t.owner → s.openImage h = .error 0x96) ∧
        (∀ t root, tenant = some t →
          (((∀ r, ¬recorded r) ∧ held t ∧ Store.find? t.imageRoots gen = some root) ∨ ∃ r, recorded r ∧ r.owner = t.owner ∧ root = s.wrapped r.root) →
          ∀ s2 bytes, s.readImage h 0 (numAt head 0x6C 4) = .ok (s2, bytes) →
          let top := bytes.take 0x100
          let good := fun (root : BitVec 256) => Crypto.gcmTag (imageKey root (numAt bytes 0x0C 2) (numAt bytes 0x10 4)) ((bytes.drop 0x60).take 12) top
            ((bytes.drop 0x100).take (bytes.length - 0x110)) = bytes.drop (bytes.length - 16)
          let fresh := if numAt top 8 1 = 1 then (Store.find? s.counters (numAt top 0x0E 2)).map Counter.value = some (numAt top 0x18 8)
            else numAt top 0x20 8 = s.sessionEpoch.toNat ∧ numAt top 0x18 8 ∈ ((Store.find? s.ctxs (numAt top 0x0C 2)).map Context.live).getD []
          (¬good root → (∃ old ∈ s.retired, good old) → s.openImage h = .error 0x96) ∧
          (¬good root → (∀ old ∈ s.retired, ¬good old) → s.openImage h = .error 0x94) ∧
          (good root → ¬fresh → s.openImage h = .error 0x95) ∧
          (good root → fresh → ∃ i, s.openImage h = .ok i ∧ i.head = top ∧ i.counter = numAt top 0x18 8)))) ∧
    (s.openImage h = .ok i → s.imagePlan i = none → exec (.restore ⟨.mc, [h]⟩) s = answer 2 0) ∧
    (s.openImage h = .ok i → s.imagePlan i = some (i, k, q) →
      (s.wholeGang [i] = false → exec (.restore ⟨.mc, [h]⟩) s = answer 2 0) ∧
      (s.wholeGang [i] = true → s.restoreSeats k 1 (Store.find? s.parked i.parked).isSome = none → exec (.restore ⟨.mc, [h]⟩) s = answer 3 0) ∧
      (s.wholeGang [i] = true → s.restoreSeats k 1 (Store.find? s.parked i.parked).isSome = some [n] → (∀ p ∈ s.tenants, p.2.rotating = false) →
        ∃ t k', exec (.restore ⟨.mc, [h]⟩) s = .next t ∧ t.replies = s.replies ++ [.restored 0 0] ∧ (t.core n).task = some k' ∧
          k'.number = k.number ∧ k'.tenant = k.tenant ∧ k'.ctx = k.ctx ∧
          (∀ r, r ≠ .ex → (t.core n).seqs.get r = q.get r) ∧
          ((t.core n).seqs.ex = q.ex ∨ ∃ e, (t.core n).seqs.ex = { q.ex with cause := e, late := some 0x74 }) ∧
          (i.persistent = false → ∀ x, Store.find? s.ctxs i.ctx = some x → ∃ y, Store.find? t.ctxs i.ctx = some y ∧ i.counter ∉ y.live)))

/-- MIGRATION and the copy of a slice to another while its tasks are stopped (R294, R296, Table 15-11), of a partition of which
no task runs: its queues, contexts and accounts leave the module, after the frames that carry the last dirty pages; the slice's bytes
move and its accesses go to the new place. The model's own choices in it: log 20, 38. -/
def Sys2Proof.Claims.Migrations : Prop :=
  ∀ (part slice target : Nat) (handles : List (BitVec 256)) (s : State) (p : Partition), Store.find? s.parts part = some p → s.coresIn part = [] →
    (∃ u, exec (.migration part handles) s = .next u ∧ (∀ q ∈ u.queues, q.2.part ≠ part) ∧ (∀ c ∈ u.ctxs, c.2.part ≠ part) ∧
      (∃ y, Store.find? u.parts part = some y ∧ y.accounts = [] ∧ y.dirty = []) ∧
      (∃ fs, (s.sendPages part p.dirty).replies = s.replies ++ fs ∧ ∀ r ∈ fs, ∃ port f tag, r = .frame port f tag) ∧
      u.replies = (s.sendPages part p.dirty).replies ++ [.migrated part p.dirty ((s.queues.filter (fun (q : Nat × Queue) => q.2.part == part)).map (fun (q : Nat × Queue) =>
        (q.1, { q.2 with records := q.2.records.map (fun r => { r with live := 0 }) }))) p.accounts]) ∧
    (p.slices.contains slice = true → target < 32 → s.sliceFree target = true → p.moving.any (fun m => m.slice == slice) = false →
      exec (.legacySliceCopy part slice target) s = .next ((s.moveRange (p.physical slice * Config.sliceBytes) (target * Config.sliceBytes)
        Config.sliceBytes).modPart part (fun p => { p with sliceMap := Store.put slice target p.sliceMap }))) ∧
    (s.sliceFree target = false → exec (.legacySliceCopy part slice target) s = .next s)

/-- SLICE_MOVE and SLICE_MOVE_PAGE (R295): a slice begins to move to a free slice with every page Old; page by page turns
Copying and then New; through all of it, where no write of a service unit waits and no fault for a ring, every byte of the slice reads
as it did. The model's own choices in it: log 20. -/
def Sys2Proof.Claims.SliceMoves : Prop :=
  ∀ (part slice target : Nat) (s : State) (p : Partition), Store.find? s.parts part = some p →
    (p.slices.contains slice = true → target < 32 → s.sliceFree target = true → p.moving.all (fun m => m.slice != slice) = true →
      exec (.sliceMove part slice target) s = .next (s.modPart part (fun p => { p with moving := p.moving ++ [⟨slice, target, 0, false⟩] }))) ∧
    (∀ m, p.moving.find? (fun m => m.slice == slice) = some m → Store.rising s.parts = true → Memory.wf s.hbm = true →
      List.find? (fun q : Nat × Partition => q.2.moving.any (fun m => m.slice == slice) || (Store.find? q.2.sliceMap slice).isSome) s.parts = some (part, p) →
      m.next < slicePages → p.physical slice ≠ m.target → (m.copying = true → s.waiting = [] ∧ s.faults = []) →
      ∃ t y, exec (.sliceMovePage part slice) s = .next t ∧ Store.find? t.parts part = some y ∧
        (m.copying = false → y.moving.find? (fun m => m.slice == slice) = some { m with copying := true }) ∧
        (m.copying = true → m.next + 1 < slicePages → y.moving.find? (fun m => m.slice == slice) = some { m with next := m.next + 1, copying := false }) ∧
        (m.copying = true → m.next + 1 = slicePages → Store.find? y.sliceMap slice = some m.target ∧ ∀ x ∈ y.moving, x.slice ≠ slice) ∧
        ∀ off, off < Config.sliceBytes → t.readLoc (.hbm (slice * Config.sliceBytes + off)) = s.readLoc (.hbm (slice * Config.sliceBytes + off)))

/-- DIRTY_BITMAP_READ and HOST_ACCESS (R166, R293, R294): 64 bits of the bitmap are read and cleared at once, after the frames that carry
the pages they name; the host reads and writes
at guest-physical addresses of the partition of its TDI (log 38), of the 32 that there are; of each 32-byte granule it may miss the writes that no release
has covered up to it (R248, R255), and nothing else. The model's own choices in it: log 14, 38. -/
def Sys2Proof.Claims.HostSide : Prop :=
  ∀ (part word tdi addr len : Nat) (data : List Byte) (s : State) (p : Partition) (ls : List Loc),
    (Store.find? s.parts part = some p → ∃ w t y, exec (.dirtyBitmapRead part word) s = .next t ∧
      (∃ fs, t.replies = s.replies ++ fs ++ [.dirty w] ∧ ∀ r ∈ fs, ∃ port f tag, r = .frame port f tag) ∧
      (∀ i, i < 64 → w.getLsbD i = (p.page (64 * word + i)).any p.dirty.contains) ∧ Store.find? t.parts part = some y ∧
      (∀ g, g ∈ y.dirty ↔ g ∈ p.dirty ∧ ∀ i, i < 64 → p.page (64 * word + i) ≠ some g) ∧ (Store.rising s.parts = true → s.sameMemory t)) ∧
    (32 ≤ tdi → ∀ write, exec (.hostAccess tdi addr len write data) s = .next s) ∧
    (∀ n c, tdi < 32 → List.find? (fun (c : Nat × Context) => c.2.tdi == tdi) s.ctxs = some (n, c) →
      let place := fun (acc : Acc) (i : Nat) => match s.secondStage c.part (addr + i) with
        | .error _ => none
        | .ok l => if l.perm.allows acc then some (if l.perm.d then Loc.discarded else physLoc false l.addr) else none
      ((List.range len).mapM (place .read) = some ls → firstCause s.readCause ls = none →
        exec (.hostAccess tdi addr len false data) s = .next { s.draw with replies := s.replies ++ [.read (ls.zipIdx.map (fun p =>
          s.readMissing ((Config.pick s.draws).testBit ((addr + p.2) / 32 - addr / 32)) p.1))] } ∧
        ∀ l ∈ ls, (∀ w ∈ s.past, w.loc = l → w.isShown 4 = true) → ∀ miss, s.readMissing miss l = s.readLoc l) ∧
      ((List.range data.length).mapM (place .write) = some ls → (∀ a, Loc.hbm a ∈ ls → s.hbmHeld a = false) → Loc.discarded ∉ ls →
        exec (.hostAccess tdi addr len true data) s = .next (s.writeFrom [Config.hostAgent] Strength.plain (ls.zip data))))

/-- Tokens (R272 to R274): the budget of SET_BUDGET counts from the next period; at the boundary of a period debts are repaid
up to half of the budget and balances refilled, and a record that has waited the whole period rises; a tenant out of tokens
borrows from the idle one with the most, within twice its budget and eight times in debt. The model's own choices in it: log 38. -/
def Sys2Proof.Claims.TenantTokens : Prop :=
  ∀ (part tenant tokens : Nat) (s : State) (p : Partition), Store.find? s.parts part = some p →
    (1024 ≤ tenant → ∃ t, exec (.setBudget part tenant tokens) s = .next t ∧ Store.find? t.parts part = some p) ∧
    (tenant < 1024 → ∃ t y, exec (.setBudget part tenant tokens) s = .next t ∧ Store.find? t.parts part = some y ∧
      Store.find? y.accounts tenant = some ({ (Store.getD p.accounts tenant ⟨0, 0, 0, 0, 0⟩ : Account) with budget := tokens } : Account) ∧
      ∀ m, m ≠ tenant → Store.find? y.accounts m = Store.find? p.accounts m) ∧
    (s.cycle < p.period + 170000 → exec (.arbitrationPeriod part) s = .next s) ∧
    (p.period + 170000 ≤ s.cycle → ∃ t y, exec (.arbitrationPeriod part) s = .next t ∧ Store.find? t.parts part = some y ∧
      y.period = p.period + 170000 ∧
      (∀ m a, Store.find? p.accounts m = some a → ∃ b, Store.find? y.accounts m = some b ∧ b.budget = a.budget ∧ b.borrowed = 0 ∧
        b.debt = a.debt - Nat.min a.debt (a.budget / 2) ∧
        b.balance = min a.balance 0 + (a.budget : Int) - ((Nat.min a.debt (a.budget / 2) : Nat) : Int)) ∧
      ∀ key q, Store.find? s.queues key = some q → q.part = part → ∃ q', Store.find? t.queues key = some q' ∧
        q'.records = q.records.map (fun r => if s.dispatchable q r = true ∧ r.since ≤ p.period then { r with periods := r.periods + 1 } else r)) ∧
    (∀ a, Store.find? p.accounts tenant = some a → 0 < a.balance → exec (.tokenBorrow part tenant) s = .next s) ∧
    (∀ a m l, Store.find? p.accounts tenant = some a →
      let idle := p.accounts.filter (fun (x : Nat × Account) => x.1 != tenant && decide (0 < x.2.balance) && !s.tenantBusy part x.1)
      idle.find? (fun x => idle.all (fun y => decide (y.2.balance ≤ x.2.balance))) = some (m, l) →
      a.balance ≤ 0 → s.tenantOrder part tenant 0 ≠ [] → a.borrowed < 2 * a.budget → a.debt < 8 * a.budget →
      let x := Nat.min (Nat.min 4096 l.balance.toNat) (Nat.min (2 * a.budget - a.borrowed) (8 * a.budget - a.debt))
      let got : Account := { a with balance := a.balance + x, borrowed := a.borrowed + x, debt := a.debt + x }
      let lent : Account := { l with balance := l.balance - x }
      exec (.tokenBorrow part tenant) s = .next (s.modPart part (fun p => { p with accounts := Store.put m lent (Store.put tenant got p.accounts) })))

/-- Caps, quotas and shares (R276, R341, R380): a set that does not fit as a whole changes nothing; above its cap a partition's
throttle level rises, by at least one, to at most 63, and below 95 % of it falls by one. The model's own choices in it: log 38. -/
def Sys2Proof.Claims.Caps : Prop :=
  ∀ (part watts stack units : Nat) (sets : List (Nat × Nat)) (s : State) (p : Partition), Store.find? s.parts part = some p →
    let level := fun (n : Nat) => Host.Outcome.next (φ := Fault) (ρ := Refusal) ({ s with parts := Store.put part { p with level := n } s.parts } : State)
    (p.cap ≠ 0 →
      (p.cap < watts → exec (.powerCapTick part watts) s = level (Nat.min 63 (p.level + Nat.max 1 ((64 * (watts - p.cap) + p.cap - 1) / p.cap)))) ∧
      (100 * watts < 95 * p.cap → exec (.powerCapTick part watts) s = level (p.level - 1))) ∧
    (let t := sets.foldl (fun (t : State) c => t.modPart c.1 (fun p => { p with cap := c.2 })) s;
      let sum := t.parts.foldl (fun (n : Nat) (p : Nat × Partition) => n + p.2.cap) 0
      (sum + 520 ≤ 2400 → exec (.setPowerCap sets) s = .next t) ∧ (2400 < sum + 520 → exec (.setPowerCap sets) s = .next s)) ∧
    (let q := sets.foldl (fun (m : Store Nat) c => Store.put c.1 c.2 m) s.quotas;
      let sum := (q.map Prod.snd).foldl (· + ·) 0
      (sum ≤ 512 → exec (.setSlotQuota sets) s = .next { s with quotas := q }) ∧ (512 < sum → exec (.setSlotQuota sets) s = .next s)) ∧
    (let y : Partition := { p with cistern := p.cistern.zipIdx.map (fun (x : Nat × Nat) => if x.2 = stack then units else x.1) };
      let t : State := { s with parts := Store.put part y s.parts }
      stack < 8 → units ≠ 0 →
      (t.parts.foldl (fun (n : Nat) (p : Nat × Partition) => n + p.2.cistern.getD stack 0) 0 ≤ 96 → exec (.setCisternShare part stack units) s = .next t) ∧
      (96 < t.parts.foldl (fun (n : Nat) (p : Nat × Partition) => n + p.2.cistern.getD stack 0) 0 → exec (.setCisternShare part stack units) s = .next s))

/-- QUEUE_CONFIGURE and PARTITION_CREATE (R258, R277, R339): what is asked for stands in the queue, its ring indices and records
go on (log 38), and its context has the root; a new partition has throttle level 0, no cap, the bounds asked for or the defaults,
and changes no quota; what does not fit changes nothing, and so does what the MC cannot write yet (R295). The model's own choices in
it: log 38. -/
def Sys2Proof.Claims.Configures : Prop :=
  ∀ (cfg : QueueSetup) (new : PartSetup) (s : State),
    (s.goodSetup cfg = false → exec (.queueConfigure cfg) s = .next s) ∧
    (s.goodSetup cfg = true → ∃ t q c, exec (.queueConfigure cfg) s = .next t ∧ Store.find? t.queues (queueKey cfg.tenant cfg.queue) = some q ∧
      q.ctx = cfg.ctx ∧ q.part = cfg.part ∧ q.tdi = cfg.tdi ∧ q.ringBase = cfg.ringBase ∧ q.ringLog = cfg.ringLog ∧ q.sigHandle = cfg.sigHandle ∧
      q.area = cfg.areaLen ∧ q.energy = 0 ∧ Store.find? t.ctxs cfg.ctx = some c ∧ c.root = cfg.root ∧ c.tenant = cfg.tenant ∧
      (∀ x, Store.find? s.queues (queueKey cfg.tenant cfg.queue) = some x → q.tail = x.tail ∧ q.head = x.head ∧ q.records = x.records) ∧ s.sameMemory t) ∧
    (s.goodPartition new = false ∨ s.mcWaits new.writes = true → exec (.partitionCreate new) s = .next s) ∧
    (s.goodPartition new = true → s.mcWaits new.writes = false → ∃ t p, exec (.partitionCreate new) s = .next t ∧ Store.find? t.parts new.part = some p ∧
      p.clusters = new.clusters ∧ p.slices = new.slices ∧ p.ports = new.ports ∧ p.root = new.root ∧ p.modules = new.modules ∧ p.rank = new.rank ∧
      p.cap = 0 ∧ p.level = 0 ∧ p.cistern = List.replicate 8 1 ∧ t.quotas = s.quotas ∧ p.startTimeout = new.startTimeout.getD 100000 ∧
      p.drainBound = new.drainBound.getD 2000 ∧ p.quiescentBound = new.quiescentBound.getD 2000)

/-- FLR and TDI_ERROR (R291, R321): every context of the TDI is gone with its tasks and queues; no status word is written and no
signal decremented; of a context whose pre-emption or commit was in progress 0xD3 is reported; TDI_ERROR leaves the TDI in ERROR.
The model's own choices in it: log 38. -/
def Sys2Proof.Claims.FunctionResets : Prop :=
  ∀ (tdi : Nat) (s : State), Store.rising s.ctxs = true → tdi < 32 →
    ∀ i ∈ [Instr.flr tdi, .tdiError tdi], ∃ t rs, exec i s = .next t ∧ (∀ c ∈ t.ctxs, c.2.tdi ≠ tdi) ∧ t.hbm = s.hbm ∧ t.host = s.host ∧ t.peer = s.peer ∧
      (∀ q ∈ t.queues, ∀ c, Store.find? s.ctxs q.2.ctx = some c → c.tdi ≠ tdi) ∧
      (∀ n k, (t.core n).task = some k → (s.core n).task = some k ∧ ∀ c, Store.find? s.ctxs k.ctx = some c → c.tdi ≠ tdi) ∧
      t.replies = s.replies ++ rs ∧ (∀ r ∈ rs, ∃ n c, r = .preempted n 0xD3 none ∧ Store.find? s.ctxs n = some c ∧ c.tdi = tdi) ∧
      (∀ n c, Store.find? s.ctxs n = some c → c.tdi = tdi → c.draining ≠ none → Reply.preempted n 0xD3 none ∈ rs) ∧
      (i = .tdiError tdi → (t.tdi tdi).state = .error)

/-- A request comes through a session of a TDI that is locked or runs (R321), and the session has presented an owner identity, or
none: the driver's. -/
def Sys2Proof.Claims.Session (s : State) (w : Requester) (owner : Option (BitVec 384)) : Prop :=
  ∃ id x, w = .session id ∧ Store.find? s.sessions id = some x ∧ s.tdiAccepts x.tdi = true ∧ x.owner = owner

/-- A request comes through no session of a TDI that is locked or runs (R321). -/
def Sys2Proof.Claims.NoSession (s : State) (w : Requester) : Prop :=
  ∃ id, w = .session id ∧ ∀ x, Store.find? s.sessions id = some x → s.tdiAccepts x.tdi = false

/-- BIND, POLICY and UNBIND (Table 17-1, R299, R305, R321): from a tenant's session, the lowest free slot, the identity it has
presented, a new sealing key, generation 1 and epoch 0; only the owner sets a policy; an unbound tenant has no page, no stream and
no context left, its contexts and sweeps are reported as ended, and what its pages held reads as zero. Any other requester is
answered with status 1. The model's own choices in it: log 39. -/
def Sys2Proof.Claims.TenantRequests : Prop :=
  ∀ (w v : Requester) (tenant : Nat) (owner : BitVec 384) (pol : TenantPolicy) (s : State) (x : Tenant),
    let answer := fun (n : Nat) => Host.Outcome.next (φ := Fault) (ρ := Refusal) { s with replies := s.replies ++ [.status n] }
    (v = .mc ∨ Claims.Session s v none ∨ Claims.NoSession s v → exec (.bind v tenant pol) s = answer 1 ∧ exec (.policy v tenant pol) s = answer 1 ∧
      (v ≠ .mc → exec (.unbind ⟨v, tenant⟩) s = answer 1)) ∧
    (Claims.Session s w (some owner) → Store.find? s.tenants tenant = some x →
      exec (.bind w tenant pol) s = answer 1 ∧
      (x.owner ≠ owner → exec (.policy w tenant pol) s = answer 1 ∧ exec (.unbind ⟨w, tenant⟩) s = answer 1) ∧
      (x.owner = owner → goodPolicy pol = false → exec (.policy w tenant pol) s = answer 2) ∧
      (x.owner = owner → goodPolicy pol = true → exec (.policy w tenant pol) s = .next { s with
        tenants := Store.put tenant { x with policy := pol } s.tenants, replies := s.replies ++ [.status 0] }) ∧
      (Store.rising s.tenants = true → Store.rising s.ctxs = true → ∀ u, (u = w ∧ x.owner = owner) ∨ u = .mc →
        ∃ t rs, exec (.unbind ⟨u, tenant⟩) s = .next t ∧ t.replies = s.replies ++ rs ++ [.status 0] ∧
        (∀ r ∈ rs, (∃ c, r = .preempted c 0xD3 none) ∨ ∃ a b, r = .revoked 0 a b) ∧ (∀ y ∈ t.sweeps, y.2.tenant ≠ tenant) ∧
        Store.find? t.tenants tenant = none ∧ (∀ y ∈ t.streams, y.2.tenant ≠ tenant) ∧ (∀ c ∈ t.ctxs, c.2.tenant ≠ tenant) ∧
        (∀ p ∈ t.pages, p.2.slot ≠ some x.slot) ∧
        (∀ p ∈ s.pages, p.2.slot = some x.slot → ∀ a, a / 65536 = p.1 → Memory.read t.hbm a = 0))) ∧
    (Claims.Session s w (some owner) → Store.find? s.tenants tenant = none →
      exec (.policy w tenant pol) s = answer 1 ∧ exec (.unbind ⟨w, tenant⟩) s = answer 1 ∧
      (1024 ≤ tenant ∨ goodPolicy pol = false → exec (.bind w tenant pol) s = answer 2) ∧
      (tenant < 1024 → goodPolicy pol = true →
        ((∀ k, k < 1024 → ∃ p ∈ s.tenants, p.2.slot = k) → exec (.bind w tenant pol) s = answer 3) ∧
        (∀ k, k < 1024 → (∀ p ∈ s.tenants, p.2.slot ≠ k) → (∀ j, j < k → ∃ p ∈ s.tenants, p.2.slot = j) → ∃ t y, exec (.bind w tenant pol) s = .next t ∧
          t.replies = s.replies ++ [.status 0] ∧ Store.find? t.tenants tenant = some y ∧ y.slot = k ∧ y.owner = owner ∧ y.policy = pol ∧ y.epoch = 0 ∧
          y.nextSerial = 1 ∧ y.revoked = [] ∧ y.gen = 1 ∧ y.older = false ∧ y.rotating = false ∧ ∀ m, m ≠ tenant → Store.find? t.tenants m = Store.find? s.tenants m)))

/-- MINT for the driver (R299, R304, R321): for a context of the tenant and of the TDI of the driver's session, the handle of HREQ's rules
with the driver's masks and status 0, or no handle and a status (R139's as MINT answers them: log 39); for a context of another tenant
status 2, for one of another TDI status 1, as for another requester. The model's own choices in it: log 39. -/
def Sys2Proof.Claims.DriverMints : Prop :=
  ∀ (w v : Requester) (tenant ctx base len rights fmt flags : Nat) (s t : State) (c : Context) (h : BitVec 256) (st : Nat),
    (v = .mc ∨ (∃ o, Claims.Session s v (some o)) ∨ Claims.NoSession s v →
      exec (.mint ⟨v, tenant⟩ ctx base len rights fmt flags) s = .next { s with replies := s.replies ++ [.minted 1 0] }) ∧
    (Claims.Session s w none → Store.find? s.ctxs ctx = none → exec (.mint ⟨w, tenant⟩ ctx base len rights fmt flags) s = .next { s with replies := s.replies ++ [.minted 2 0] }) ∧
    (Claims.Session s w none → Store.find? s.ctxs ctx = some c → s.sessionTdi w ≠ some c.tdi →
      exec (.mint ⟨w, tenant⟩ ctx base len rights fmt flags) s = .next { s with replies := s.replies ++ [.minted 1 0] }) ∧
    (Claims.Session s w none → Store.find? s.ctxs ctx = some c → s.sessionTdi w = some c.tdi →
      (c.tenant ≠ tenant → exec (.mint ⟨w, tenant⟩ ctx base len rights fmt flags) s = .next { s with replies := s.replies ++ [.minted 2 0] }) ∧
      (c.tenant = tenant → s.mint tenant ctx c.part true ⟨base % 2 ^ 57, len, BitVec.ofNat 8 rights, BitVec.ofNat 8 flags, fmt,
          decide (2 ^ 57 ≤ base) || decide (256 ≤ rights) || decide (32 ≤ flags)⟩ = (t, st, h) →
        (st = 0 → exec (.mint ⟨w, tenant⟩ ctx base len rights fmt flags) s = .next { t with replies := t.replies ++ [.minted 0 h] }) ∧
        (st ≠ 0 → exec (.mint ⟨w, tenant⟩ ctx base len rights fmt flags) s = .next { s with replies := s.replies ++ [.minted (match st with
          | 1 => 1
          | 2 => if 2 ^ 57 ≤ base ∨ 256 ≤ rights ∨ 32 ≤ flags ∨ 2 ^ 57 < base + Nat.max len 1 then 2 else 1
          | 3 => 2
          | _ => 3) 0] })))

/-- Requests over an SPDM session (R299, R323): one takes place only where a secured message of the session carries it, sealed with
AES-256-GCM under the session's key, and what is answered at once leaves in another; a message that does not open to the request,
or one of another session, does nothing. The texts, and the IV of direction and number, are the model's own choices: log 39. -/
def Sys2Proof.Claims.SecuredMessages : Prop :=
  ∀ (id : Nat) (cipher tag : List Byte) (i : Instr) (s : State), s.powered = true → s.failedStep = none →
    let b := s.begin
    let opens := fun (x : Sys2Proof.Machine.Session) => Crypto.gcmTag x.key (bytesOf 4 0 ++ bytesOf 8 x.heard) [] cipher = tag ∧
      Crypto.gcmCrypt x.key (bytesOf 4 0 ++ bytesOf 8 x.heard) cipher = Config.requestText i
    (∀ n, s.turn.move = .op i → sessionOf i = some n → step s = .next b) ∧
    (s.turn.move = .sealed id cipher tag i →
      (sessionOf i ≠ some id ∨ (∀ x, Store.find? b.sessions id = some x → ¬opens x) → step s = .next b) ∧
      (∀ x, sessionOf i = some id → Store.find? b.sessions id = some x → opens x →
        Store.find? (b.hears id).sessions id = some { x with heard := x.heard + 1 } ∧
        ∀ t, exec i (b.hears id) = .next t → step s = .next (State.answers b t id))) ∧
    (∀ (t : State) (x : Sys2Proof.Machine.Session) (rs : List Reply) (r : Reply), t.replies = b.replies ++ rs ++ [r] → Store.find? t.sessions id = some x →
      let ct := Crypto.gcmCrypt x.key (bytesOf 4 1 ++ bytesOf 8 x.sent) (Config.replyText r)
      State.answers b t id = { t with
        sessions := Store.put id { x with sent := x.sent + 1 } t.sessions,
        messages := t.messages ++ [(id, ct, Crypto.gcmTag x.key (bytesOf 4 1 ++ bytesOf 8 x.sent) [] ct)] })

/-- REVOKE and REVOCATION_SWEEP (R185, R299, R303, R306, R307): a request of the driver or of the tenant's owner begins a sweep, or is
refused with status 1 where the list is full, as any other requester's is, and with 2 where the serial has more than 32 bits. The
sweep's first step lists the serial, or advances the epoch and empties the list, or refuses the sweep for want of room. Its second ends
with 0x74 every copy that names the handle and has not begun, counts them, and writes nothing. Its third stops the others, one that a
fault has halted at once with 0x74, and is over when none of them runs on. Its fourth clears V in every handle register that it
names, on the cores of its tenant, and counts them. Its last, once those cores have nothing outstanding and no write through the
handle waits for a page that is being copied, reports the counts to the requester, over its session, or to the ctl that waits. The model's own choices in it: log 39, 43. -/
def Obligations.Revocations : Prop :=
  ∀ (r v : Requester) (tenant serial : Nat) (all : Bool) (s : State) (x : Tenant) (id : Nat) (w : Sweep), Store.find? s.tenants tenant = some x →
    Store.rising s.cores = true →
    let ns := s.tenantCores tenant
    let names := fun (k : Copy) => s.sweepNames w k.dst || (k.mode.reads && s.sweepNames w k.src)
    let live := fun (k : Copy) => names k && k.status == 0 && !k.landed
    let ended := fun (t : State) (n : Nat) (k : Copy) => ∃ k' ∈ (t.core n).copies, k'.id = k.id ∧ k'.status = 0x74
    (Claims.Session s r none ∨ Claims.Session s r (some x.owner) →
      (all = true ∨ (serial < 2 ^ 32 ∧ x.revoked.length < 1024) → ∃ t n, exec (.revoke ⟨r, tenant⟩ serial all) s = .next t ∧
        Store.find? t.sweeps n = some ⟨tenant, serial, all, true, r.number, 0, 0, 0, false, false⟩ ∧ t.replies = s.replies) ∧
      (all = false → serial < 2 ^ 32 → 1024 ≤ x.revoked.length → ∃ t, exec (.revoke ⟨r, tenant⟩ serial all) s = .next t ∧
        t.replies = s.replies ++ [.revoked 1 0 0]) ∧
      (all = false → 2 ^ 32 ≤ serial → exec (.revoke ⟨r, tenant⟩ serial all) s = .next { s with replies := s.replies ++ [.revoked 2 0 0] })) ∧
    (v = .mc ∨ Claims.NoSession s v ∨ (∃ o, o ≠ x.owner ∧ Claims.Session s v (some o)) →
      exec (.revoke ⟨v, tenant⟩ serial all) s = .next { s with replies := s.replies ++ [.revoked 1 0 0] }) ∧
    ((∀ p ∈ s.sweeps, p.2.tenant = tenant → p.2.done = true) → exec (.revocationSweep tenant) s = .next s) ∧
    (List.find? (fun (p : Nat × Sweep) => p.2.tenant == tenant && !p.2.done) s.sweeps = some (id, w) →
      (w.stage = 0 → w.all = true ∨ x.revoked.length < 1024 → ∃ t y, exec (.revocationSweep tenant) s = .next t ∧
        Store.find? t.sweeps id = some { w with stage := 1 } ∧ Store.find? t.tenants tenant = some y ∧ y.gen = x.gen ∧
        (w.all = true → y.epoch = x.epoch + 1 ∧ y.nextSerial = 1 ∧ y.revoked = []) ∧
        (w.all = false → y.epoch = x.epoch ∧ w.serial ∈ y.revoked ∧ ∀ k ∈ x.revoked, k ∈ y.revoked)) ∧
      (w.stage = 0 → w.all = false → 1024 ≤ x.revoked.length →
        (w.external = true → exec (.revocationSweep tenant) s = .next (State.sealTo { s with
          sweeps := Store.erase id s.sweeps, replies := s.replies ++ [.revoked 1 0 0] } w.session (.revoked 1 0 0))) ∧
        (w.external = false → exec (.revocationSweep tenant) s = .next { s with sweeps := Store.put id { w with refused := true, done := true } s.sweeps })) ∧
      (w.stage = 1 → ∃ t, exec (.revocationSweep tenant) s = .next t ∧
        Store.find? t.sweeps id = some { w with stage := 2, copies := (ns.map (fun n => (s.core n).copies.countP (fun k => live k && !k.touched))).sum } ∧
        (∀ n ∈ ns, ∀ k ∈ (s.core n).copies, live k = true → k.touched = false → ended t n k) ∧
        (∀ n ∈ ns, ∀ k ∈ (t.core n).copies, live k = true → k.touched = true) ∧
        s.sameMemoryBut t (ns.flatMap (fun n => ((s.core n).copies.filter (fun k => live k && !k.touched)).flatMap (fun k =>
          (((s.core n).copy? k.id).map (fun y => y.staged.map (fun b => b.2.1))).getD [])))) ∧
      (w.stage = 2 → ∃ t y, exec (.revocationSweep tenant) s = .next t ∧ Store.find? t.sweeps id = some y ∧ (y = w ∨ y = { w with stage := 3 }) ∧
        (y.stage = 3 → ∀ n ∈ ns, ∀ k ∈ (t.core n).copies, live k = true → k.units ≤ k.next) ∧
        (∀ n ∈ ns, ∀ k ∈ (s.core n).copies, live k = true → (s.core n).copy? k.id = some k → k.fault ≠ none → (s.core n).saving = false →
          s.copying (k.staged.map (fun b => b.2.1)) = false → (t.core n).task ≠ none → ended t n k)) ∧
      (w.stage = 3 → ∃ t, exec (.revocationSweep tenant) s = .next t ∧
        Store.find? t.sweeps id = some { w with stage := 4, regs := (ns.map (fun n => (s.core n).handles.toList.countP (s.sweepNames w))).sum } ∧
        (∀ n ∈ ns, ∀ i, i < 32 → (t.core n).handles[i]? = ((s.core n).handles[i]?).map (fun h =>
          if s.sweepNames w h then h &&& ~~~((1 : BitVec 256) <<< 191) else h)) ∧ (∀ n, n ∉ ns → t.core n = s.core n) ∧
        (∀ n, (t.core n).scratch = (s.core n).scratch) ∧ t.hbm = s.hbm) ∧
      (4 ≤ w.stage → (∀ n ∈ ns, (s.core n).loads = [] ∧ (s.core n).stores = [] ∧ (∀ b ∈ (s.core n).me.preloads, s.sweptPreload w b = false) ∧
          ∀ k ∈ (s.core n).copies, k.staged = [] ∨ s.sweepNames w k.dst = false) → (∀ d ∈ s.waiting, s.sweepNames w d.handle = false) →
        (w.external = true → exec (.revocationSweep tenant) s = .next (State.sealTo { s with
          sweeps := Store.erase id s.sweeps, replies := s.replies ++ [.revoked 0 w.regs w.copies] } w.session (.revoked 0 w.regs w.copies))) ∧
        (w.external = false → exec (.revocationSweep tenant) s = .next { s with sweeps := Store.put id { w with done := true } s.sweeps })))

/-- ROTATE, ROTATION_PAGE_CONVERT and BANK_ROW_REKEY (R299, R311, R312): for the driver or the tenant's owner a rotation begins with
the next generation and a new root; it is answered with status 3 while one runs, and with 1 where the last generation is reached or
another asks; the walkers take the pages and rows in order, no byte of memory changes, and the older generation goes with the last
of them. The model's own choices in it: log 39. -/
def Sys2Proof.Claims.Rotations : Prop :=
  ∀ (w v : Requester) (tenant slice core m : Nat) (s : State) (x : Tenant), Store.find? s.tenants tenant = some x →
    let answer := fun (status value : Nat) => Host.Outcome.next (φ := Fault) (ρ := Refusal) { s with replies := s.replies ++ [.rotated status (BitVec.ofNat 64 value)] }
    (v = .mc ∨ Claims.NoSession s v ∨ (∃ o, o ≠ x.owner ∧ Claims.Session s v (some o)) → exec (.rotate ⟨v, tenant⟩) s = answer 1 (2 ^ 63 + 2)) ∧
    (Claims.Session s w none ∨ Claims.Session s w (some x.owner) →
      (x.rotating = true → exec (.rotate ⟨w, tenant⟩) s = answer 3 (2 ^ 63 + 1)) ∧
      (x.rotating = false → 2 ^ 32 - 1 ≤ x.gen → exec (.rotate ⟨w, tenant⟩) s = answer 1 (2 ^ 63 + 2)) ∧
      (x.rotating = false → x.gen < 2 ^ 32 - 1 → ∃ t y, exec (.rotate ⟨w, tenant⟩) s = .next t ∧ t.replies = s.replies ++ [.rotated 0 (BitVec.ofNat 64 (x.gen + 1))] ∧
        Store.find? t.tenants tenant = some y ∧ y.gen = x.gen + 1 ∧ Store.find? y.imageRoots (x.gen + 1) = some (Config.randomKey s.draws) ∧
        y.rotating = y.older ∧ s.sameMemory t)) ∧
    (List.find? (fun (p : Nat × Tenant) => p.2.rotating && (Store.find? p.2.marks slice).isSome) s.tenants = some (tenant, x) →
      s.nextMark x.slot slice (Store.getD x.marks slice 0) = some m → ∃ t y, exec (.rotationPageConvert slice) s = .next t ∧ s.sameMemory t ∧
        Store.find? t.tenants tenant = some y ∧ y.gen = x.gen ∧ (y.rotating = true → (t.owner (slice * slicePages + m)).newer = true) ∧
        (y.rotating = false → y.older = false ∧ y.marks = [])) ∧
    (∀ k, (s.core core).bankMark = some k → ∃ t, exec (.bankRowRekey core) s = .next t ∧ s.sameMemory t ∧
      (t.core core).bankMark = (if k + 1 < 16384 then some (k + 1) else none))

/-- ZERO_WALK_ROW and HBM_SCRUB_PAGE (R319, R320): the row at the watermark becomes zero unless a write has scrubbed it, and an
unscrubbed page becomes zero; no other byte changes. -/
def Sys2Proof.Claims.Scrubs : Prop :=
  ∀ (core page : Nat) (s : State), let c := s.core core
    (16384 ≤ c.watermark ∨ 512 ≤ core → exec (.zeroWalkRow core) s = .next s) ∧
    (c.watermark < 16384 → core < 512 → ∃ t, exec (.zeroWalkRow core) s = .next t ∧ (t.core core).watermark = c.watermark + 1 ∧
      (∀ o, o / 64 = c.watermark → c.scrubbed.contains c.watermark = false → t.readLoc (.win core o) = 0) ∧
      (∀ l : Loc, l.isMemory = true → c.scrubbed.contains c.watermark = true ∨ (∀ o, l = .win core o → o / 64 ≠ c.watermark) → t.readLoc l = s.readLoc l) ∧
      (c.scrubbed.contains c.watermark = false → core * 16384 + c.watermark ∉ t.badRows ∧ core * 16384 + c.watermark ∉ t.lostRows)) ∧
    ((s.owner page).scrub = false → exec (.hbmScrubPage page) s = .next s) ∧
    ((s.owner page).scrub = true → page * 65536 < Config.hbmBytes → ∃ t, exec (.hbmScrubPage page) s = .next t ∧ (t.owner page).scrub = false ∧
      (t.owner page).slot = (s.owner page).slot ∧
      (∀ a, Memory.read t.hbm a = if a / 65536 = page then 0 else Memory.read s.hbm a) ∧ t.cores = s.cores ∧ t.host = s.host ∧ t.peer = s.peer)

/-- Streams, persistent counters and fuse counters (R299, R321, R322, R333, R335): each request is answered with the status of
Table 17-1, one that comes from another than the table names with 1; a counter is bound to one task; an advance of a fuse counter
blows both fuses of the next pair, and only with a verified manifest whose version is high enough. The model's own choices in it:
log 39. -/
def Obligations.StoredState : Prop :=
  ∀ (w d v : Requester) (tenant stream last ctx task idx version : Nat) (outward signed : Bool) (key : BitVec 256) (s : State) (x : Tenant),
    let answer := fun (n : Nat) => Host.Outcome.next (φ := Fault) (ρ := Refusal) { s with replies := s.replies ++ [.status n] }
    let counter := fun (n value : Nat) => Host.Outcome.next (φ := Fault) (ρ := Refusal) { s with replies := s.replies ++ [.counter n value] }
    let own := s.counters.filter (fun (p : Nat × Counter) => !p.2.paged)
    let mine := own.countP (fun (p : Nat × Counter) => (p.2.bound.map Prod.fst) == some tenant)
    Store.find? s.tenants tenant = some x → Claims.Session s w (some x.owner) → Claims.Session s d none → Claims.NoSession s v →
    (∀ u ∈ [d, v, .mc], exec (.streamOpen ⟨u, tenant⟩ stream outward key last) s = answer 1 ∧
      (Store.find? s.streams stream ≠ none → exec (.streamClose ⟨u, tenant⟩ stream) s = answer 1)) ∧
    (∀ u ∈ [w, v, .mc], exec (.counterBind ⟨u, tenant⟩ ctx task) s = counter 1 0) ∧
    (∀ u ∈ [w, v, .mc], exec (.counterRead ⟨u, idx⟩) s = counter 1 0) ∧ (∀ u ∈ [w, d, v], ∀ cut, exec (.fuseAdvance ⟨u, idx⟩ version signed cut) s = answer 1) ∧
    (65536 ≤ stream ∨ 2 ^ 64 ≤ last → exec (.streamOpen ⟨w, tenant⟩ stream outward key last) s = answer 2) ∧
    (stream < 65536 → last < 2 ^ 64 → Store.find? s.streams stream = none → exec (.streamOpen ⟨w, tenant⟩ stream outward key last) s = .next { s with
      streams := Store.put stream ⟨tenant, outward, key, last⟩ s.streams, replies := s.replies ++ [.status 0] }) ∧
    (∀ y, Store.find? s.streams stream = some y →
      (stream < 65536 → last < 2 ^ 64 → exec (.streamOpen ⟨w, tenant⟩ stream outward key last) s = answer 3) ∧
      (y.tenant ≠ tenant → exec (.streamClose ⟨w, tenant⟩ stream) s = answer 1) ∧
      (y.tenant = tenant → (∀ p ∈ s.cores, s.usesStream p.1 stream tenant = false) → exec (.streamClose ⟨w, tenant⟩ stream) s = .next { s with
        streams := Store.erase stream s.streams, replies := s.replies ++ [.status 0] }) ∧
      (y.tenant = tenant → (∃ p ∈ s.cores, s.usesStream p.1 stream tenant = true) → exec (.streamClose ⟨w, tenant⟩ stream) s = .next s)) ∧
    (Store.find? s.streams stream = none → exec (.streamClose ⟨w, tenant⟩ stream) s = answer 2) ∧
    (x.policy.maxCounters ≤ mine ∨ (∃ p ∈ own, p.2.bound = some (tenant, ctx, task)) → exec (.counterBind ⟨d, tenant⟩ ctx task) s = counter 1 0) ∧
    (mine < x.policy.maxCounters → (∀ p ∈ own, p.2.bound ≠ some (tenant, ctx, task)) →
      ((∀ i, i < 4096 → (Store.find? s.counters i).bind Counter.bound ≠ none) → exec (.counterBind ⟨d, tenant⟩ ctx task) s = counter 3 0) ∧
      (idx < 4096 → (Store.find? s.counters idx).bind Counter.bound = none →
        (∀ j, j < idx → (Store.find? s.counters j).bind Counter.bound ≠ none) → ∃ t y, exec (.counterBind ⟨d, tenant⟩ ctx task) s = .next t ∧
          Store.find? t.counters idx = some y ∧ y.bound = some (tenant, ctx, task) ∧ y.paged = false ∧
          y.value = ((Store.find? s.counters idx).map Counter.value).getD 0 ∧ t.replies = s.replies ++ [.counter 0 idx])) ∧
    (idx < 4096 → exec (.counterRead ⟨d, idx⟩) s = counter 0 (((Store.find? s.counters idx).map Counter.value).getD 0)) ∧
    (4096 ≤ idx → exec (.counterRead ⟨d, idx⟩) s = counter 2 0) ∧
    (4 ≤ idx → exec (.fuseAdvance ⟨.mc, idx⟩ version signed false) s = answer 2) ∧
    (∀ f, s.fuses[idx]? = some f →
      (signed = false ∨ version < f.value + 1 → ∀ cut, exec (.fuseAdvance ⟨.mc, idx⟩ version signed cut) s = answer 1) ∧
      (signed = true → f.value + 1 ≤ version → 128 ≤ f.value → ∀ cut, exec (.fuseAdvance ⟨.mc, idx⟩ version signed cut) s = answer 3) ∧
      (signed = true → f.value + 1 ≤ version → f.value < 128 → exec (.fuseAdvance ⟨.mc, idx⟩ version signed false) s = .next { s with
        fuses := s.fuses.setIfInBounds idx ⟨f.a ||| (1 : BitVec 128) <<< f.value, f.b ||| (1 : BitVec 128) <<< f.value⟩, replies := s.replies ++ [.status 0] }) ∧
      (signed = true → f.value + 1 ≤ version → f.value < 128 → ∃ t g, exec (.fuseAdvance ⟨.mc, idx⟩ version signed true) s = .next t ∧ t.powered = false ∧
        t.fuses[idx]? = some g ∧ g.b = f.b ∧ (g.a = f.a ∨ g.a = f.a ||| (1 : BitVec 128) <<< f.value)))

/-- TDISP, SPDM and the links (R321, R323, R324, R337, R338, R361, R372): an interface locks, starts once its stream stands, and
stops in order; each measurement block is answered as Table 17-8 says, signed with the identity key where the request brings a
nonce, and index 0 with the certificates, but after a failed bring-up with the failing step and nothing for index 0; a link opens only for an
authentic peer; a frame whose tag is right under its generation's key clears the count of frames that failed in a row, a
contribution under a generation not held ends its collective with 0xC2, and any other frame counts, until the link closes after
the replays; link keys advance when the first link is updated and retire when the last one is. The model's own choices in it:
log 39. -/
def Obligations.Interfaces : Prop :=
  ∀ (tdi port core id : Nat) (peer : BitVec 384) (peerPort : Nat) (result : Bool) (f : Frame) (tag : List Byte) (s : State) (p : Partition) (l : Link),
    (tdi < 32 → let t := s.tdi tdi
      let put := fun (x : TdiState) => Host.Outcome.next (φ := Fault) (ρ := Refusal) ({ s with tdis := Store.put tdi { t with state := x } s.tdis } : State)
      exec (.tdispMessage tdi 0) s = put .unlocked ∧ (t.state = .unlocked → exec (.tdispMessage tdi 1) s = put .locked) ∧
      (t.state = .locked → t.stream = true → exec (.tdispMessage tdi 2) s = put .run) ∧
      (t.state ≠ .locked ∨ t.stream = false → exec (.tdispMessage tdi 2) s = .next s) ∧
      (t.state ≠ .unlocked → exec (.tdispMessage tdi 1) s = .next s)) ∧
    (let answer := fun (bytes : List Byte) => Host.Outcome.next (φ := Fault) (ρ := Refusal) { s with replies := s.replies ++ [.measurement bytes] };
      let topology := s.links.toList.flatMap (fun l => match l.peer with
        | some (c, q) => bytesOf 48 c.toNat ++ [BitVec.ofNat 8 q]
        | none => List.replicate 48 0 ++ [0xFF])
      (s.failedStep = none → (∀ n ∈ [1, 2, 3, 5, 6, 8], exec (.spdmMessage ⟨tdi, n, none⟩) s = answer (Crypto.sha384 (s.measurement tdi n))) ∧
        exec (.spdmMessage ⟨tdi, 0, none⟩) s = answer s.certificates ∧
        exec (.spdmMessage ⟨tdi, 4, none⟩) s = answer (s.fuses.toList.map (fun f => BitVec.ofNat 8 f.value)) ∧
        exec (.spdmMessage ⟨tdi, 7, none⟩) s = answer topology ∧
        (∀ v : BitVec 256, ∃ t, exec (.spdmMessage ⟨tdi, 7, some v⟩) s = .next t ∧ s.sameMemory t ∧ t.replies = s.replies ++ [.signed topology
          (Crypto.brainpool.sign (Crypto.brainpool.scalar s.identity.toNat) (Crypto.brainpool.scalar s.drawn512) (Config.transcript (bytesOf 32 v.toNat) topology))])) ∧
      (∀ k n v, s.failedStep = some k → exec (.spdmMessage ⟨tdi, n, v⟩) s = if n = 0 then .next s else answer [BitVec.ofNat 8 k])) ∧
    (s.links[port]? = some l → (∃ t, exec (.linkOpen port true peer peerPort) s = .next t ∧ t.links[port]? = some ⟨some (peer, peerPort), l.sent, 0⟩ ∧ ∀ k, k ≠ port → t.links[k]? = s.links[k]?) ∧
      (∃ t, exec (.linkOpen port false peer peerPort) s = .next t ∧ t.links[port]? = some { l with peer := none })) ∧
    (s.links[port]? = some l → Store.find? s.parts f.part = some p →
      (l.peer = none ∨ p.ports.contains port = false → exec (.frameReceive port f tag core id result) s = .next s) ∧
      (l.peer ≠ none → p.ports.contains port = true →
        let under := f.gen = p.linkGen ∨ (result = false ∧ p.linkOlder = true ∧ f.gen + 1 = p.linkGen)
        (under → p.goodFrame port f tag = true → exec (.frameReceive port f tag core id result) s =
          .next { s with links := modAt s.links port (fun l => { l with fails := 0 }) }) ∧
        (result = false → ¬ under → (s.core core).task.map Task.part = some f.part →
          exec (.frameReceive port f tag core id result) s = .next (s.endColl core id 0xC2)) ∧
        (under ∧ p.goodFrame port f tag = false ∨ result = true ∧ ¬ under →
          (l.fails < 8 → ∃ t, exec (.frameReceive port f tag core id result) s = .next t ∧ t.links[port]? = some { l with fails := l.fails + 1 }) ∧
          (8 ≤ l.fails → ∃ t n, exec (.frameReceive port f tag core id result) s = .next t ∧ t.links[port]? = some ⟨none, n, 0⟩)))) ∧
    (∀ part, Store.find? s.parts part = some p →
      (p.ports.contains port = true → p.linkOlder = false → ∃ t y, exec (.linkKeyUpdate part port) s = .next t ∧ Store.find? t.parts part = some y ∧
        y = { p with linkGen := p.linkGen + 1, linkOlder := true, linkUpdated := [port], linkKeys := y.linkKeys } ∧
        y.linkKey (p.linkGen + 1) port = Config.randomKey (s.draws + port)) ∧
      (p.ports.contains port = true → p.linkOlder = true → p.linkUpdated.contains port = false → ∃ t y, exec (.linkKeyUpdate part port) s = .next t ∧
        Store.find? t.parts part = some y ∧ y = { p with linkUpdated := p.linkUpdated ++ [port], linkKeys := y.linkKeys } ∧
        y.linkKey p.linkGen port = Config.randomKey (s.draws + port)) ∧
      (p.linkOlder = false ∨ (∃ k ∈ p.ports, p.linkUpdated.contains k = false) → exec (.linkKeyRetire part) s = .next s) ∧
      (p.linkOlder = true → p.ports.all p.linkUpdated.contains = true → ∃ t y, exec (.linkKeyRetire part) s = .next t ∧ Store.find? t.parts part = some y ∧
        y.linkGen = p.linkGen ∧ y.linkOlder = false ∧ y.linkUpdated = [] ∧ (Store.rising s.parts = true → s.sameMemory t)))

/-- RSLOT (R342, R343, R380): a reservation takes as many slots as it asks for, from the quota and then the pool, or none with
2^63 + 0xC1 where they cannot be supplied; of two in one cycle that the pool cannot both supply, the pointer's order decides, and
the other has 2^63 + 0xC1 in its register and no slot; a draw of a partition of other modules alone counts and competes likewise; a
release gives back the last n; a number out of range is 0x02. Both receive the source's taint. The model's own choices in it: log 33, 34. -/
def Sys2Proof.Claims.ReductionSlots : Prop :=
  ∀ (d a : BitVec 5) (t : BitVec 3) (s : State) (x : Word × Taint) (c : Context),
    s.curSq = .ctl → s.scalars [d.toNat, a.toNat] = .ok () → s.src a.toNat = .ok x → Store.find? s.ctxs s.who.ctx = some c →
    let n := x.1.toNat
    let held := c.slots.length
    let done := fun (u : State) (v : Nat) => Host.Outcome.next (φ := Fault) (ρ := Refusal) (((u.pop [a.toNat]).put d.toNat (BitVec.ofNat 64 v) x.2).retire 2)
    (wfSlotType t = true →
      (n = 0 ∨ 64 < held + n → exec (.rslotReserve d a t) s = .next (s.stop (.trap 0x02))) ∧
      (1 ≤ n → held + n ≤ 64 →
        let takes := fun (s0 : State) (q : Nat) => let u : State := { s0 with ctxs := Store.put s.who.ctx { c with
            slots := c.slots ++ (List.range n).map (fun i => (t.toNat, decide (i < q), s.curCore)) } s0.ctxs };
          done (if q = n then u else u.drew ⟨s.cycle, s.who.part, s.curCore, none, s.who.ctx, held, n, d.toNat, []⟩) (held + n)
        (∀ q, s.drawSlots s.who.part n = some q → exec (.rslotReserve d a t) s = takes s q) ∧
        (s.drawSlots s.who.part n = none →
          ((∀ y ∈ s.drawsNow, s.behind y.part ≤ s.behind s.who.part) → exec (.rslotReserve d a t) s = done s (2 ^ 63 + 0xC1)) ∧
          (∀ y q, s.drawsNow = [y] → s.behind s.who.part < s.behind y.part → (s.undraw y).drawSlots s.who.part n = some q →
            exec (.rslotReserve d a t) s = takes (s.undraw y) q)))) ∧
    (∀ (y : SlotDraw) (z : Context), y.planes = [] → y.coll = none → Store.find? s.ctxs y.ctx = some z →
      (Store.find? (s.undraw y).ctxs y.ctx).map Context.slots = some (z.slots.take y.first ++ z.slots.drop (y.first + y.count)) ∧
      (0 < y.reg → y.reg < 31 → (s.core y.core).seqs.ctl.regs.size = 32 → ((s.undraw y).core y.core).seqs.ctl.reg y.reg = BitVec.ofNat 64 (2 ^ 63 + 0xC1))) ∧
    (∀ (part m : Nat) (planes : List Nat), s.partition part = none → part < 16 → planes ≠ [] → (∀ i ∈ planes, i < 16) →
      let fits := fun (u : State) => ∀ i ∈ planes, m ≤ u.poolFree i ∧ m ≤ u.planeFree i
      let takes := fun (u : State) => State.drew { u with poolDrawn := Vector.ofFn (fun (i : Fin 16) => u.poolDrawn[i] + (if planes.contains i.val then m else 0)) }
        ⟨s.cycle, part, 0, none, 0, 0, m, 0, planes⟩
      (fits s → s.outside (.poolDrawn part m planes) = takes s) ∧
      (¬fits s → (∀ y ∈ s.drawsNow, s.behind y.part ≤ s.behind part) → s.outside (.poolDrawn part m planes) = s) ∧
      (∀ y, ¬fits s → s.drawsNow = [y] → s.behind part < s.behind y.part → fits (s.undraw y) → s.outside (.poolDrawn part m planes) = takes (s.undraw y))) ∧
    (∀ y : SlotDraw, y.planes ≠ [] → ∀ i : Fin 16, (s.undraw y).poolDrawn[i] = s.poolDrawn[i] - (if y.planes.contains i.val then y.count else 0)) ∧
    (n = 0 ∨ held < n → exec (.rslotRelease d a) s = .next (s.stop (.trap 0x02))) ∧
    (1 ≤ n → n ≤ held → ∃ u y, exec (.rslotRelease d a) s = .next u ∧ Store.find? u.ctxs s.who.ctx = some y ∧ y.slots = c.slots.take (held - n) ∧
      u.seq = (((s.seq.pop s.curSq [a.toNat]).put s.curSq d.toNat (BitVec.ofNat 64 (held - n)) x.2).advance 2).resume ∧ s.sameMemory u)

/-- The reduction aperture (R339, R344): APST is a release at partition scope, contributes its value, and waits where a module has not
loaded the round before the last; where another module of the group cannot be reached both trap with 0xC4 (R339); APLD takes the next round's result, as an acquire, or waits for it; a round completes with the
sum of every module's contribution, modulo 2^64 for INT64, modulo 2^32 for INT32, and in some order of arrival for FP32, behind what
the others have released. LAYX takes a valid layout and no other (R346). The model's own choices in it: log 33. -/
def Sys2Proof.Claims.Aperture : Prop :=
  ∀ (d a h : BitVec 5) (x3 : BitVec 3) (s : State) (hv : BitVec 256) (x v : Word × Taint) (key type : Nat),
    (s.scalars [d.toNat, a.toNat] = .ok () → s.handleReg h.toNat = .ok hv → s.src a.toNat = .ok x → s.src d.toNat = .ok v →
      let w := s.apWord key
      (s.curSq = .st → s.apertureCheck hv (rightW ||| rightE) (offsetOf x.1 0) = .ok (key, type) → s.after (x.2 ||| v.2) = .ok () →
        (∀ e ∈ s.cur.stores, e.sq = .st → ∃ bs, e.kind = .streaming bs) →
        let size := s.cur.group.size
        let u := s.release s.curCore .st 3
        let u' := if 1 < size then u.sendChunks (u.openPorts s.who.part) 0 1 else u
        (s.reachesAll s.who.part s.cur.group = false → (∀ e ∈ s.cur.stores, e.sq = .st → ∃ bs, e.kind = .streaming bs) → exec (.apst d a h) s = .next (s.stop (.trap 0xC4))) ∧
        (s.reachesAll s.who.part s.cur.group = true → w.puts.length < 2 ∨ ((∀ n ∈ w.writers, w.puts.length < Store.getD w.loads n 0 + 2) ∧ (size ≤ 1 ∨ w.puts.length < w.peersLoaded + 2)) →
          exec (.apst d a h) s = .next (((u'.pop [d.toNat, a.toNat]).setApWord key { w.touch s.curCore with puts := w.puts ++ [apValue type v.1] }).retire 2)) ∧
        (s.reachesAll s.who.part s.cur.group = true → 2 ≤ w.puts.length → (∃ n ∈ w.writers, Store.getD w.loads n 0 + 2 ≤ w.puts.length) ∨ (1 < size ∧ w.peersLoaded + 2 ≤ w.puts.length) →
          exec (.apst d a h) s = .next (s.await .other))) ∧
      (s.curSq = .ld → s.seq.mark = none → s.apertureCheck hv (rightR ||| rightI) (offsetOf x.1 0) = .ok (key, type) →
        let k := Store.getD w.loads s.curCore 0 + 1
        let t := s.setApWord key { w.touch s.curCore with loads := Store.put s.curCore k w.loads }
        (s.reachesAll s.who.part s.cur.group = false → exec (.apld d a h) s = .next (s.stop (.trap 0xC4))) ∧
        (∀ y, s.reachesAll s.who.part s.cur.group = true → w.results[k - 1]? = some y → exec (.apld d a h) s = .next ((t.acquireAll.put d.toNat y 0).retire 2)) ∧
        (s.reachesAll s.who.part s.cur.group = true → w.results[k - 1]? = none → exec (.apld d a h) s = .next (t.awaitMark .other (.round key k))))) ∧
    (∀ core slot word peers released c e mine, Store.find? s.ctxs ((s.core core).who core).ctx = some c → c.slots[slot]? = some e →
      let k := apKey ((s.core core).who core).ctx slot word
      let w := s.apWord k
      w.puts[w.results.length]? = some mine →
      (peers.length + 1 ≠ (s.core core).group.size → exec (.apertureRoundComplete core slot word ⟨peers, released⟩) s = .next s) ∧
      (peers.length + 1 = (s.core core).group.size → ∃ sum : Word,
        exec (.apertureRoundComplete core slot word ⟨peers, released⟩) s = .next ((s.writePeers released).setApWord k { w with results := w.results ++ [sum] }) ∧
        (e.1 = 1 → ∃ xs : List Word, List.Perm xs (mine :: peers) ∧
          sum = BitVec.ofNat 64 ((xs.map (fun v => (v.setWidth 32).toNat)).foldl (fun a v => (fp32.add .rne a v).1) 0)) ∧
        (e.1 = 0 → sum = (mine :: peers).foldl (· + ·) 0) ∧ (2 ≤ e.1 → sum = (((mine :: peers).foldl (· + ·) 0).setWidth 32).setWidth 64))) ∧
    (s.curSq = .ctl → s.scalars [a.toNat] = .ok () → s.src a.toNat = .ok x →
      (goodLayout x.1 = true → exec (.layx a x3) s = .next (((s.pop [a.toNat]).modCur (fun c => { c with layouts := c.layouts.setIfInBounds x3.toNat x.1 })).retire 2)) ∧
      (goodLayout x.1 = false → exec (.layx a x3) s = .next (s.stop (.trap 0x02))))

/-- COLL that passes the steps of R348 in their order takes a free id for a collective with what it captured and its number on its
channel, and touches no memory; with every id held it is 0x27 (R348, R349). One that a member has cancelled before is ended at once
(R350). The model's own choices in it: log 33. -/
def Obligations.CollectiveIssues : Prop :=
  ∀ (d a : BitVec 5) (e l : BitVec 1) (y x : BitVec 3) (lit : BitVec 32) (s : State) (v0 v1 v2 v3 : Word × Taint) (src dst : BitVec 256),
    let c := s.cur
    let l1 := c.layouts[x.toNat]?.getD 0
    let l2 := c.layouts[y.toNat]?.getD 0
    let w := v0.1.toNat
    let fmt := w / 1024 % 64
    let es := (List.range 4).map (fun i => bitsOf v3.1.toNat (16 * i + 15) (16 * i))
    let axes := c.group.axes
    ∀ k : Coll, k.fmt = fmt → k.l1 = l1 → k.l2 = l2 → k.extents = es.take (layoutDims l1) → k.louvre = (l == 1) → k.exchange = (e == 1) →
      k.src = src → k.dst = dst → k.soff = v1.1.toNat → k.doff = v2.1.toNat → k.channel = w / 65536 % 16 → k.lit = lit →
    let sb := k.srcBytes axes
    let db := k.dstBytes axes
    let right := fun (h : BitVec 256) (off len : Nat) (r : BitVec 8) => if needM s.curCore h off len then r ||| rightM else r
    let rs := [a.toNat, a.toNat + 1, a.toNat + 2, a.toNat + 3]
    wfGroup a 3 = true → s.curSq = .ctl → s.scalars (d.toNat :: rs) = .ok () → s.src a.toNat = .ok v0 → s.src (a.toNat + 1) = .ok v1 →
    s.src (a.toNat + 2) = .ok v2 → s.src (a.toNat + 3) = .ok v3 →
    (2 ^ 20 ≤ w → exec (.coll d a e l y x lit) s = .next (s.stop (.trap 0x02))) ∧
    (w < 2 ^ 20 → litKind lit ≠ 1 → goodLiteral .ctl lit = true → s.completionCause lit = none →
      (fmt = 7 ∨ fmt = 6 ∨ fmt = 5 ∨ (fmt = 3 ∧ l = 0) ∨ (fmt = 10 ∧ l = 1)) → (l = 0 ∨ e = 0) →
      (∀ i, i < 4 → (es.getD i 0 ≠ 0 ↔ i < layoutDims l1)) →
      s.handleReg (w % 32) = .ok src → s.handleReg (w / 32 % 32) = .ok dst →
      s.handleCause s.who.tenant src (right src k.soff sb (rightR ||| rightE)) = none →
      s.handleCause s.who.tenant dst (right dst k.doff db (rightW ||| rightI)) = none →
      (fmt = 10 → k.soff % 64 = 0 ∧ hLen src % 66 = 0) → (fmt ≠ 10 → k.soff % k.esz = 0) → k.doff % k.esz = 0 →
      k.soff < 2 ^ 41 → k.doff < 2 ^ 41 → k.soff + sb ≤ (if fmt = 10 then hLen src / 66 * 64 else hLen src) → k.doff + db ≤ hLen dst →
      s.sideCause ⟨src, (k.soff : Nat), [], 0, sb, none, false, none⟩ [] = none → s.sideCause ⟨dst, (k.doff : Nat), [], 0, db, none, false, none⟩ [] = none →
      (l = 1 → hOnchip dst = true ∧ 0 ≤ k.scratchAt s.curCore ∧ k.scratchAt s.curCore < 0x100000 ∧ k.scratchAt s.curCore + db ≤ (c.decl.scratch : Int)) →
      k.tiles axes ≤ 128 →
      ((∀ i, i < 16 → c.heldColl i ≠ none) → exec (.coll d a e l y x lit) s = .next (s.stop (.trap 0x27))) ∧
      (∀ id, id < 16 → c.heldColl id = none → (∀ i, i < id → c.heldColl i ≠ none) →
        let key := (c.task.map (fun t => t.channelKey (w / 65536 % 16))).getD 0
        let nth := Store.getD s.collCounts key 0
        ∃ t k', exec (.coll d a e l y x lit) s = .next t ∧ s.sameMemory t ∧ Store.find? t.collCounts key = some (nth + 1) ∧
        (s.collGone.contains (key, nth) = false → k'.ended = none ∧ t.seq = (((s.seq.pop .ctl rs).put .ctl d.toNat (BitVec.ofNat 64 id) 0).advance 4).resume) ∧
        (s.collGone.contains (key, nth) = true → k'.ended = some 0x100) ∧
        Store.find? t.cur.colls id = some k' ∧ k'.held = true ∧ k'.started = false ∧ k'.nth = nth ∧ k'.src = src ∧ k'.dst = dst ∧
        k'.soff = k.soff ∧ k'.doff = k.doff ∧ k'.extents = k.extents ∧ k'.fmt = fmt ∧ k'.l1 = l1 ∧ k'.l2 = l2 ∧ k'.lit = lit ∧
        k'.counters = List.replicate (k.tiles axes) 0 ∧ k'.cuts = List.replicate (k.tiles axes) 15))

/-- COLLW reads the status of a collective that has ended, joins its writes and frees its id, and waits for one that has not; with
cancel it asks for the cancel first; an id that is not held is 0x27 (R248, R352). PLCNT reads a tile's counter, PLWAIT waits on it and
joins what it shows of that tile, and PLCUT lowers the tile's cut (R355, R357). The model's own choices in it: log 33. -/
def Sys2Proof.Claims.CollectiveWaits : Prop :=
  ∀ (d a : BitVec 5) (n : BitVec 5) (n4 : BitVec 4) (s : State) (x : Word × Taint) (k : Coll),
    s.scalars [d.toNat, a.toNat] = .ok () → s.scalars [a.toNat] = .ok () → s.src a.toNat = .ok x →
    (s.curSq = .ctl → let id := x.1.toNat % 16
      (s.cur.heldColl id = none → exec (.collw d a) s = .next (s.stop (.trap 0x27)) ∧ exec (.collwCancel d a) s = .next (s.stop (.trap 0x27))) ∧
      (s.cur.heldColl id = some k →
        (∀ w, k.ended = some w → ∀ i ∈ [Instr.collw d a, .collwCancel d a], exec i s = .next (((((s.pop [a.toNat]).joins s.curCore .ctl (Awaited.ofColl k.order)).modCur (fun c => c.modColl id (fun k =>
          { k with held := false }))).put d.toNat (w.setWidth 64) 0).retire 2)) ∧
        (k.ended = none → exec (.collw d a) s = .next (s.await .other) ∧ exec (.collwCancel d a) s =
          .next ((s.modCur (fun c => c.modColl id (fun k => { k with cancelling := true }))).awaitMark .other .cancelled)))) ∧
    (x.1.toNat < 2 ^ 12 → let id := x.1.toNat % 16
      let tile := x.1.toNat / 16
      (s.cur.tileCount id tile = none → exec (.plcnt d a) s = .next (s.stop (.trap 0x27))) ∧
      (∀ c, s.cur.tileCount id tile = some c → exec (.plcnt d a) s = .next (((s.pop [a.toNat]).put d.toNat (BitVec.ofNat 64 c) 0).retire 2) ∧
        (Store.find? s.cur.colls id = some k → wfPlanes n = true →
          (n.toNat ≤ c → exec (.plwait a n) s = .next (((s.pop [a.toNat]).joins s.curCore s.curSq (Awaited.ofTile k.order tile c)).retire 2)) ∧
          (c < n.toNat → k.ended = none → exec (.plwait a n) s = .next (s.await .other)) ∧
          (c < n.toNat → k.ended ≠ none → exec (.plwait a n) s = .next (s.stop (.trap 0x27))))) ∧
      (s.curSq = .ctl → Store.find? s.cur.colls id = some k → (if tile = 255 then k.counters ≠ [] else tile < k.counters.length) →
        ∃ t y, exec (.plcut a n4) s = .next t ∧ Store.find? t.cur.colls id = some y ∧ y.counters = k.counters ∧ s.sameMemory t ∧
          ∀ i, y.cuts[i]? = (k.cuts[i]?).map (fun c => if tile = 255 ∨ i = tile then Nat.min c n4.toNat else c))) ∧
    (2 ^ 12 ≤ x.1.toNat → exec (.plcnt d a) s = .next (s.stop (.trap 0x02)))

/-- The events of a collective (R339, R341, R350 to R355, R359): at its rendezvous, where every member has issued, it ends with 0xC0 where
their words or layouts disagree and with 0xC1 where a reduction has no slot, the pointer's order deciding between requests of one
cycle, and otherwise starts; a member that cannot be reached
ends the task with 0xC4, also later while chunks are to come, and one that is being cancelled does not start; it ends at this member with
what ended it. A chunk enters the partition's share where there is room and leaves it in its turn; what lands is what the chunks have
brought, from what the chunks have sent; a louvre tile lands plane by plane, its counter behind the bytes, until its cut. An end
sets the status, frees the drawn slot and counts, and carries CANCELLED where a cancel was asked for. The model's own choices in it: log 33, 34. -/
def Sys2Proof.Claims.CollectiveEvents : Prop :=
  ∀ (core id : Nat) (s : State) (k : Coll) (t : Task) (members : List (Nat × CollWords)), let c := s.core core
    Store.find? c.colls id = some k → c.task = some t →
    (k.ended = none → litKind k.lit = 0 ∨ litKind k.lit = 4 → ∀ st, ∃ k', Store.find? ((s.endColl core id st).core core).colls id = some k' ∧
      k'.ended = some (if k.cancelling then st ||| 0x100 else st) ∧
      k'.drawn = none ∧ k'.slot = none ∧ k'.chunks = [] ∧ k'.held = k.held ∧
      ((s.endColl core id st).core core).ccnt = c.ccnt + (if litKind k.lit = 4 then BitVec.ofNat 32 (litCount k.lit) else 0)) ∧
    (k.cancelling = true → ∀ reachable, exec (.collectiveRendezvous core id members reachable) s = .next s) ∧
    (k.started = false → k.ended = none → k.cancelling = false → let meets := exec (.collectiveRendezvous core id members true) s
      let start := fun (s : State) (d : Option Bool) (h : Option Nat) => Host.Outcome.next (φ := Fault) (ρ := Refusal)
        (s.modCore core (fun c => c.modColl id (fun k => { k with started := true, drawn := d, slot := h })))
      exec (.collectiveRendezvous core id members false) s = .next (s.failTask core 0xC4) ∧
      (s.reachesAll t.part t.group = false → meets = .next (s.failTask core 0xC4)) ∧
      (s.reachesAll t.part t.group = true →
        (k.met t.group members = false → meets = .next s) ∧
        (k.met t.group members = true →
          (layoutSteps t.group.axes k.l1 k.l2 k.extents = none ∨ (∃ m ∈ members, m.2 ≠ k.words) ∨
            ((k.louvre = true ∨ k.exchange = true) ∧ k.step t.group.axes = none) → meets = .next (s.endColl core id 0xC0)) ∧
          (∀ xs, layoutSteps t.group.axes k.l1 k.l2 k.extents = some xs → (∀ m ∈ members, m.2 = k.words) →
            ((k.louvre = true ∨ k.exchange = true) → k.step t.group.axes ≠ none) →
            (k.exchange = true ∨ xs.any FabricStep.reduces = false → meets = start s none none) ∧
            (k.exchange = false → xs.any FabricStep.reduces = true →
              (∀ h, s.heldSlot t.ctx k.slotType = some h → meets = start s none (some h)) ∧
              (s.heldSlot t.ctx k.slotType = none → s.drawSlots t.part 1 = none → (∀ y ∈ s.drawsNow, s.behind y.part ≤ s.behind t.part) →
                meets = .next (s.endColl core id 0xC1)) ∧
              (s.heldSlot t.ctx k.slotType = none → s.drawSlots t.part 1 = some 1 → meets = start s (some true) none) ∧
              (s.heldSlot t.ctx k.slotType = none → s.drawSlots t.part 1 = some 0 →
                meets = start (s.drew ⟨s.cycle, t.part, core, some id, t.ctx, 0, 0, 0, []⟩) (some false) none) ∧
              (∀ y, s.heldSlot t.ctx k.slotType = none → s.drawSlots t.part 1 = none → s.drawsNow = [y] → s.behind t.part < s.behind y.part →
                (s.undraw y).drawSlots t.part 1 = some 0 →
                meets = start ((s.undraw y).drew ⟨s.cycle, t.part, core, some id, t.ctx, 0, 0, 0, []⟩) (some false) none)))))) ∧
    (∀ status peers, k.ended = none →
      (k.cancelling = true → exec (.collectiveCompletion core id status peers) s = .next (s.endColl core id 0x100)) ∧
      (k.cancelling = false →
        (status ∈ [0x100, 0x74, 0x93, 0xC0, 0xC1, 0xC2] → exec (.collectiveCompletion core id status peers) s = .next (s.endColl core id (BitVec.ofNat 9 status))) ∧
        (c.collMoves k = true → s.cutOff t.part k t.group = true → exec (.collectiveCompletion core id 0 peers) s = .next (s.failTask core 0xC4)) ∧
        (c.collMoves k = true → s.cutOff t.part k t.group = false → k.louvre = true → k.landed = true →
          exec (.collectiveCompletion core id 0 peers) s = .next (s.endColl core id 0)) ∧
        (∀ s1 mine s2, c.collMoves k = true → k.louvre = false → k.passedAll t.group = true →
          (∀ r, r < t.group.size → r ≠ t.group.rank → ∃ p ∈ peers, p.1 = r ∧ p.2.length = k.srcBytes t.group.axes) →
          s.ownPart core k t.group = .ok (s1, mine) →
          let result := s.collResult k t.group (fun r => if r = t.group.rank then mine else ((peers.find? (fun p => p.1 == r)).map Prod.snd).getD [])
          (k.brought t.group result = false → exec (.collectiveCompletion core id 0 peers) s = .next s) ∧
          (k.brought t.group result = true → s1.collWrite core k.order 0 k.dst k.doff result = .ok s2 →
            exec (.collectiveCompletion core id 0 peers) s = .next (s2.endColl core id 0))))) ∧
    (∀ tile peers n, k.counters[tile]? = some n →
      (1 ≤ n → k.cuts.getD tile 15 < n → exec (.planeLanding core id tile peers) s = .next s) ∧
      (c.collMoves k = true → n < 16 → n = 0 ∨ n ≤ k.cuts.getD tile 15 →
        (s.cutOff t.part k t.group = true → exec (.planeLanding core id tile peers) s = .next (s.failTask core 0xC4)) ∧
        (∀ bs s1 s2, s.cutOff t.part k t.group = false →
          (Store.find? k.formed tile = some bs ∧ s1 = s) ∨ (Store.find? k.formed tile = none ∧ s.formTile core k tile peers = .ok (s1, some bs)) →
          let p := if n = 0 then (0, bs.take 0x180) else (0x180 + (n - 1) * 0x100, (bs.drop (0x180 + (n - 1) * 0x100)).take 0x100)
          (k.tileCame t.group tile p.1 p.2 = false → exec (.planeLanding core id tile peers) s = .next s) ∧
          (k.tileCame t.group tile p.1 p.2 = true → s1.collWrite core k.order (32 * tile + n) k.dst (k.doff + 4224 * tile + p.1) p.2 = .ok s2 →
            ∃ u k', exec (.planeLanding core id tile peers) s = .next u ∧ Store.find? (u.core core).colls id = some k' ∧
              k'.counters = k.counters.set tile (n + 1) ∧ ∀ l : Loc, l.isMemory = true → u.readLoc l = s2.readLoc l)))) ∧
    (∀ data, c.collMoves k = true → k.travels t.group = true →
      let axes := t.group.axes
      (s.cutOff t.part k t.group = true → ∀ enters, s.moveChunk core id enters data = s.failTask core 0xC4) ∧
      (s.cutOff t.part k t.group = false →
        (k.allChunks axes ≤ k.passed + k.chunks.length ∨ s.chunkRoom t.part ≤ s.chunksHeld t.part → s.moveChunk core id true data = s) ∧
        (∀ s1 bs, k.passed + k.chunks.length < k.allChunks axes → s.chunksHeld t.part < s.chunkRoom t.part →
          s.chunkOf core k t.group (k.passed + k.chunks.length) data = .ok (s1, bs) → s.moveChunk core id true data =
            s1.modCore core (fun c => { c.modColl id (fun k => { k with chunks := k.chunks ++ [bs] }) with lastActive := s1.cycle })) ∧
        (k.chunks = [] → s.moveChunk core id false data = s) ∧
        (∀ bs rest, k.chunks = bs :: rest → k.spoiled = none → ∃ k', Store.find? ((s.moveChunk core id false data).core core).colls id = some k' ∧
          k'.chunks = rest ∧ k'.passed = k.passed + 1 ∧ (k.passed < k.outChunks axes → k'.gone = k.gone ++ bs) ∧
          ((chunkAt (k.plan axes) k.passed).2 = false → k.allChunks axes ≤ k.passed + k.lastChunks axes → k'.come = k.come ++ bs)))) ∧
    (∀ j data, (chunkAt (k.plan t.group.axes) j).2 = false → data.length = (chunkAt (k.plan t.group.axes) j).1 →
      s.chunkOf core k t.group j data = .ok (s, data))

/-- Power and heat (R366 to R368, R370, R375): above a limit the level of every partition without a cap rises by one, and
otherwise falls; the thermal level rises from 105 degrees on and falls below 100; a trip removes power and is recorded; a droop
gates its die for 64 cycles; the second's hottest junction is counted in its bin of five degrees. The model's own choices in it: log 40. -/
def Sys2Proof.Claims.PowerAndHeat : Prop :=
  ∀ (w10 w1 die degrees : Nat) (s : State),
    let run := if 2400 < w10 then s.excursion + 1 else 0
    let above := 2700 < w10 ∨ 1000 ≤ run ∨ 2400 < w1
    (∃ t, exec (.moduleLimiterTick w10 w1) s = .next t ∧ t.excursion = run ∧ s.sameMemory t ∧
      ∀ n p, Store.find? s.parts n = some p → ∃ q, Store.find? t.parts n = some q ∧
        (p.cap ≠ 0 → q.level = p.level) ∧ (p.cap = 0 → above → q.level = Nat.min 63 (p.level + 1)) ∧ (p.cap = 0 → ¬above → q.level = p.level - 1)) ∧
    (∀ d, s.dies[die]? = some d → ∃ t y, exec (.thermalLevelTick die degrees) s = .next t ∧ t.dies[die]? = some y ∧ y.droopUntil = d.droopUntil ∧ y.tlb = d.tlb ∧
      (105 ≤ degrees → y.qt = Nat.min 63 (d.qt + 1)) ∧ (degrees < 100 → y.qt = d.qt - 1) ∧ (100 ≤ degrees → degrees < 105 → y.qt = d.qt)) ∧
    (∃ t, exec .thermalTrip s = .next t ∧ t.powered = false ∧ t.lifetime.trips = Nat.min (s.lifetime.trips + 1) 255 ∧ t.counters = s.counters ∧ t.fuses = s.fuses) ∧
    (∀ d, s.dies[die]? = some d → ∃ t y, exec (.supplyDroop die) s = .next t ∧ t.dies[die]? = some y ∧ y.droopUntil = s.cycle + 64 ∧ y.qt = d.qt ∧
      ∀ v, s.lifetime.droops[die]? = some v → t.lifetime.droops[die]? = some (Nat.min (v + 1) (2 ^ 32 - 1))) ∧
    (∃ t, exec (.junctionTemperatureSample degrees) s = .next t ∧ t.lifetime.seconds = Nat.min (s.lifetime.seconds + 1) (2 ^ 64 - 1) ∧
      ∀ i v, s.lifetime.temps[i]? = some v → t.lifetime.temps[i]? = some (
        if i = (if degrees < 45 then 0 else if 115 ≤ degrees then 15 else (degrees - 40) / 5) then Nat.min (v + 1) (2 ^ 32 - 1) else v))

/-- The lifetime record and the patrol (R373 to R377, Table 21-5): LIFE_READ answers the record with its digest; a save goes to
the two copies in turn, and waits for a persistent commit; a corrected error is counted and nothing else, one beyond
correction poisons its line. The model's own choices in it: log 40. -/
def Sys2Proof.Claims.LifetimeRecord : Prop :=
  ∀ (line : Nat) (s : State),
    exec .lifeRead s = .next { s with replies := s.replies ++ [.life (lifeBytes s.lifetime (s.fuses.toList.map Fuse.value))] } ∧
    (∀ l fuses, lifeBytes l fuses = lifeBody l fuses ++ Crypto.sha384 (lifeBody l fuses)) ∧
    (s.commits ≠ [] → exec .lifetimeSave s = .next s) ∧
    (s.commits = [] → s.lifetime.saveSeq < 2 ^ 64 - 1 → ∃ t copy, exec .lifetimeSave s = .next t ∧ t.lifetime.saveSeq = s.lifetime.saveSeq + 1 ∧
      copy.saveSeq = s.lifetime.saveSeq + 1 ∧ copy.temps = s.lifetime.temps ∧ copy.seconds = s.lifetime.seconds ∧
      (s.lifetime.saveSeq % 2 = 1 → t.saved0 = some copy ∧ t.saved1 = s.saved1) ∧ (s.lifetime.saveSeq % 2 = 0 → t.saved1 = some copy ∧ t.saved0 = s.saved0)) ∧
    exec (.patrolScrub line 0) s = .next s ∧
    (line * 64 < Config.hbmBytes →
      (∃ t, exec (.patrolScrub line 1) s = .next t ∧ t = { s with lifetime := t.lifetime } ∧
        ∀ v, s.lifetime.hbmCorrected[stackOf line]? = some v → t.lifetime.hbmCorrected[stackOf line]? = some (Nat.min (v + 1) (2 ^ 32 - 1))) ∧
      (∃ t, exec (.patrolScrub line 2) s = .next t ∧ t.poison.contains line = true ∧ s.sameMemory t ∧
        ∀ a, s.hbmAddr a / 64 = line → (s.owner (s.hbmAddr a / 65536)).scrub = false → t.readCause (.hbm a) = some 0xE1))

/-- The resets (R371, R372, R333, R335): both leave no task, no queue, no context, no partition, no tenant and no translation; every
reset keeps the persistent counters, the fuse counters and the saved copies of the lifetime record. A step of bring-up has its effect
where neither it nor an earlier one fails: half-blown fuse pairs are made whole at step 2, the session epoch is drawn at step 4, the
better copy is read at step 8; firmware with a security version below its fuse counter fails, at the latest, the step that loads it.
A loss of power stops the module. The model's own choices in it: log 40. -/
def Obligations.Resets : Prop :=
  ∀ (s : State), let done := fun (k : Nat) => s.bootFailure.all (fun f => decide (k < f))
    (∀ i ∈ [Instr.coldReset, .warmReset], ∃ t, exec i s = .next t ∧ t.cores = [] ∧ t.queues = [] ∧ t.ctxs = [] ∧ t.parts = [] ∧ t.tenants = [] ∧ t.tdis = [] ∧
      t.streams = [] ∧ t.sweeps = [] ∧ t.commits = [] ∧ t.faults = [] ∧ t.hbm = [] ∧ t.pages = [] ∧ t.powered = true ∧ t.cycle = 0 ∧
      t.failedStep = s.bootFailure ∧ t.counters = s.counters ∧ t.saved0 = s.saved0 ∧ t.saved1 = s.saved1 ∧ t.host = s.host ∧ t.persistRoot = s.persistRoot ∧
      (done 4 = true → t.sessionEpoch = Config.sessionEpoch s.draws) ∧
      (∀ j : Nat, t.fuses[j]? = (s.fuses[j]?).map (fun f => if done 2 then ⟨f.a ||| f.b, f.a ||| f.b⟩ else f)) ∧
      (∀ n, (t.core n).task = none) ∧ (∀ n, t.tdi n = Tdi.reset) ∧ (∀ p, (t.owner p).scrub = true) ∧
      (i = .coldReset → done 8 = true → t.lifetime.coldResets = Nat.min ((s.saved.getD Lifetime.zero).coldResets + 1) 65535) ∧
      (i = .warmReset → t.lifetime = if done 8 then s.saved.getD Lifetime.zero else Lifetime.zero)) ∧
    (∀ i k, (i, k) ∈ [(0, 3), (1, 5), (2, 10)] → (s.fuses[i]?.map Fuse.value).getD 0 ≤ Config.firmwareVersion s.draws i ∨ ∃ f, s.bootFailure = some f ∧ f ≤ k) ∧
    exec .powerLoss s = .next { s with powered := false }

/-- One step takes one turn: of what the agenda or the free choice names, in a state in which the cycles have passed, one where the
core's place in the cycle is past; without power none but a cold reset, and after a failed bring-up none but a measurement, a reset,
a thermal trip and a loss of power (R7, R16, R370, R372, R379). The model's own choices in it: log 1, 12. -/
def Sys2Proof.Claims.StepTurns : Prop :=
  ∀ s : State,
    (s.powered = true → s.failedStep = none →
      (∀ i, s.turn.move = .op i → sessionOf i = none → step s = exec i s.begin) ∧
      (∀ c id n, s.turn.move = .copy c id n → step s = .next (s.begin.copyProgress c id n)) ∧
      (∀ x, s.turn.move = .strike x → step s = .next (s.begin.strike x)) ∧
      (∀ c id enters data, s.turn.move = .chunk c id enters data → step s = .next (s.begin.moveChunk c id enters data)) ∧
      (∀ x, s.turn.move = .outside x → step s = .next (s.begin.outside x)) ∧
      (∀ c q, s.turn.move = .issue c q → ((s.begin.core c).seqs.get q).run = .idle ∨ ((s.begin.core c).seqs.get q).run = .ended ∨
        ((s.begin.core c).seqs.get q).run = .halted → step s = .next { s.begin with curCore := c, curSq := q })) ∧
    (s.powered = true → s.failedStep ≠ none → (∀ i, s.turn.move = .op i → survivesBringUp i = true → step s = exec i s.begin) ∧
      ((∀ i, s.turn.move = .op i → survivesBringUp i = false) → step s = .next s.begin)) ∧
    (s.powered = false → (s.turn.move = .op .coldReset → step s = exec .coldReset s.begin) ∧ (s.turn.move ≠ .op .coldReset → step s = .fault .noPower)) ∧
    s.begin.cycle = s.cycle + (if s.turn.cycles = 0 ∧ s.inCycle s.turn.move = false then 1 else s.turn.cycles) ∧ s.begin.agenda = s.agenda.drop 1 ∧
    (∀ n, (s.begin.core n).seqs = (s.core n).seqs ∧ (s.begin.core n).handles = (s.core n).handles ∧ (s.begin.core n).task = (s.core n).task) ∧
    s.sameMemory s.begin ∧
    (∀ i, survivesBringUp i = true ↔ (∃ m, i = .spdmMessage m) ∨ i = .coldReset ∨ i = .warmReset ∨ i = .powerLoss ∨ i = .thermalTrip)

/-- A step that issues runs the instruction that the parcels at the program counter decode to (R67 to R72, R81, R83, R91): on a
running sequencer with nothing to raise and no SAVE of its task in progress, in a body, where the unit is no REP and is not guarded
off; where the cycle is held back on its die or partition, one of majors 0x30 to 0x37 does not issue (R276, R368); a guarded-off unit
passes; parcels that are no instruction raise the cause that their decoding names. A restored sequencer first reads its block's
length again (log 35). The model's own choices in it: log 1. -/
def Sys2Proof.Claims.Decoded : Prop :=
  ∀ (s t : State) (c : Nat) (q : Sq) (ps : List Parcel) (i : Instr) (n : Nat),
    s.powered = true → s.failedStep = none → s.turn.move = .issue c q →
    let b0 := { s.begin with curCore := c, curSq := q }
    b0.seq.run = .running ∨ b0.seq.run = .waiting → b0.standsStill = false → b0.seq.late = none →
    ((∀ k, b0.cur.task = some k → k.unread = false) →
      (b0.seq.reread = false → b0.rereadCode = .ok b0) ∧
      (∀ u l, b0.seq.reread = true → b0.seq.rep = none → b0.parcel (b0.seq.hdr + 1) = .ok (u, l) → u.seq.rep = none →
        b0.rereadCode = .ok (u.modSeq (fun x => { x with reread := false, length := l.toNat % 2 ^ 12 })))) ∧
    (∀ e, b0.rereadCode = .error e → step s = .next (b0.stop e)) ∧
    ∀ b, b0.rereadCode = .ok b → b.seq.rep = none → b.seq.inBody = true → b.fetchParcels b.seq.pc = .ok (t, ps) →
    (decode ps = .ok (i, n) → i.wf = true → ¬(ps.length = 1 ∧ (ps.headD 0).toNat / 2048 = 0x10) →
      (b.seq.guardRuns = true → b0.gated c = false ∨ throttled i = false → step s = exec i t) ∧
      (b.seq.guardRuns = true → b0.gated c = true → throttled i = true → step s = .next b0) ∧ (b.seq.guardRuns = false → step s = .next (t.retire n))) ∧
    (decode ps = .ok (i, n) → i.wf = false → step s = .next (b0.stop (.trap 0x02))) ∧
    (∀ e, decode ps = .error e → step s = .next (b0.stop (.trap e)))

/-- The parcels at an offset of the code are the bytes at that place, read once for each granule and block entry (R67, R75): a
granule that the sequencer has read is not read again. The model's own choices in it: log 9. -/
def Sys2Proof.Claims.Fetches : Prop :=
  ∀ (s s1 : State) (p : Nat) (g : BitVec 256) (t : Task) (ls : List Loc),
    (Store.find? s.seq.granules (p / 16) = some g → s.parcel p = .ok (s, g.extractLsb' (p % 16 * 16) 16)) ∧
    (Store.find? s.seq.granules (p / 16) = none → s.cur.task = some t → s.handleCause t.tenant t.code rightX = none →
      s.locate s.who t.code (p / 16 * 32) 32 .code false (s.cur.mapping s.curSq) = .ok (s1, ls) → firstCause s1.readCause ls = none →
      ∃ u x, s.parcel p = .ok (u, x) ∧ x.toNat = numOf (s.readLocs ls) / 2 ^ (p % 16 * 16) % 2 ^ 16 ∧ u.seq.pc = s.seq.pc ∧ u.seq.regs = s.seq.regs ∧
        (∃ y, Store.find? u.seq.granules (p / 16) = some y ∧ y.toNat = numOf (s.readLocs ls) % 2 ^ 256) ∧ s.sameMemory u) ∧
    (∀ c, Store.find? s.seq.granules (p / 16) = none → s.cur.task = some t → s.handleCause t.tenant t.code rightX = some c → s.parcel p = .error (.trap c))

/-- Words of the spec's tables of examples, bit by bit, decode to the instructions that the tables name (Tables 5-11, 7-12, 9-9,
11-15, 16-3, 19-4, 20-4). -/
def Obligations.DecodeWords : Prop :=
  ∀ p ∈ ([([0b1100000000000000, 0b0010000000001000], Instr.hdr 2 8, 2), ([0b1000000011000011], .rep 0 0 0 1 1 3, 1),
      ([0b0000110000010100], .mov 16 20, 1), ([0b1100000101110011, 0b1000000000000010, 0b0000000000000001, 0b0010001101000101], .addLit 14 14 0 0x00012345, 4),
      ([0b1100001001111011, 0b1111111111111111], .addi 15 15 (-1), 2), ([0b1100011100010001, 0b0101011111111101], .cmpi 2 5 2 (-3), 2),
      ([0b1100101100110001, 0b1111111111110100], .brc 6 1 (-12), 2), ([0b1101001100011101, 0b0000000000000000], .winit 3 20, 2),
      ([0b1110000000000000, 0b0000001100000000], .trap 3, 2), ([0b1110000010000000, 0b0000001000000001], .gets 16 2, 2),
      ([0b1101010000101000, 0b1000011100101010, 0, 0b0000000001000000], .ldLit 5 2 3 2 1 2 0 64, 4),
      ([0b1101011000110000, 0b1000011000001010], .aadd 6 2 3 2 1, 2), ([0b1101110010100000, 0b0000000100000000], .cesh 20 0 0 1, 2),
      ([0b1101101000100000, 0b1000011000000000, 0b0001000000000000, 0b0000000000000001], .cpy 4 2 1 16 0x10000001, 4),
      ([0b1111000001000110, 0b0001110010000011], .vfma 1 6 7 8, 2), ([0b1111011101000000, 0b0000000000000001], .afmt 1 0, 2),
      ([0b1110011100000000, 0b0000000000000010], .mxgo, 2), ([0b1110001110100100, 0b0000000001001000, 0b0010000100000000, 1], .coll 20 16 0 1 1 0 0x21000001, 4),
      ([0b1001111111110110], .br16 (-10), 1)] : List (List Parcel × Instr × Nat)), decode p.1 = .ok (p.2.1, p.2.2)

/-- Decoding and encoding agree: every well-formed instruction of a stream is read back from its words, whatever follows them,
with every operand at every value that the encoding admits (R67 to R69, R83). -/
def Obligations.DecodeEncode : Prop :=
  ∀ (i : Instr) (rest : List Parcel), i.wf = true → i.isStream = true → decode (encode i ++ rest) = .ok (i, (encode i).length)

/-- The fuse counters and the persistent counters are at least at these values. -/
def Sys2Proof.Claims.AtLeast (fuses counters : Nat → Nat) (s : State) : Prop :=
  (∀ i, fuses i ≤ ((s.fuses[i]?).map Fuse.value).getD 0) ∧ (∀ i, counters i ≤ ((Store.find? s.counters i).map Counter.value).getD 0)

/-- No step, no reset and no loss of power among them, lets a fuse counter or a persistent counter fall (R333, R335). -/
def Obligations.NeverFall : Prop :=
  ∀ (fuses counters : Nat → Nat) (s t : State), Claims.AtLeast fuses counters s → step s = .next t → Claims.AtLeast fuses counters t

/-- Every step keeps every byte memory of the module in the model's canonical form, so that equal memories are equal data. The form is
the model's own representation and no rule of the spec (log 44); that a byte it does not list reads zero is what a scrub leaves
(R319, R320). -/
def Obligations.MemoryCanonical : Prop :=
  ∀ s t : State, s.memoryWf = true → step s = .next t → t.memoryWf = true

/-- At reset (R371) no core has a task, every sequencer is idle with its registers at zero, nothing is configured and no tenant is
bound, every TDI is unlocked, every page and row is unscrubbed, and the memories are canonical. That a register of an idle core
is zero, that no persistent counter has a value and that the fuse counters stand at 0 are the model's choices (log 3). -/
def Obligations.ResetState : Prop :=
  let s := State.reset
  (∀ n, (s.core n).task = none ∧ (s.core n).watermark = 0 ∧ (s.core n).scrubbed = [] ∧
    ∀ q, ((s.core n).seqs.get q).run = .idle ∧ ∀ i, ((s.core n).seqs.get q).reg i = 0 ∧ ((s.core n).seqs.get q).set i = 0) ∧
  s.queues = [] ∧ s.ctxs = [] ∧ s.parts = [] ∧ s.tenants = [] ∧ s.streams = [] ∧ (∀ n, (s.tdi n).state = .unlocked) ∧
  (∀ p, (s.owner p).scrub = true) ∧ s.powered = true ∧ s.failedStep = none ∧ s.memoryWf = true ∧
  s.counters = [] ∧ ∀ f ∈ s.fuses.toList, f.value = 0

/-- The laws of the model's own memory, on which the frames rest: a byte written reads back, every other byte of memory stays, and
the memories stay canonical. -/
def Sys2Proof.Claims.MemoryBytes : Prop :=
  ∀ (s : State) (l : Loc) (b : Byte),
    (s.memoryWf = true → (s.writeLoc l b).memoryWf = true) ∧
    (s.memoryWf = true → l.isMemory = true → l ≠ .discarded → (s.writeLoc l b).readLoc l = b) ∧
    s.sameMemoryBut (s.writeLoc l b) [l] ∧ ∀ m : List (Loc × Byte), s.sameMemoryBut (s.writeLocs m) (m.map Prod.fst)

/-- What an instruction of the scalar part leaves as it was whenever it answers a next state, its stops included: all of memory,
every other core and sequencer, and every register and taint set of its own but those named. -/
def Sys2Proof.Claims.Quiet (s t : State) (ds : List Nat) : Prop := s.onlySequencer t ∧ s.sameMemory t ∧ s.sameRegsBut t ds

/-- Frames: the ALU instructions change register d alone, no predicate and not the control taint (R105, R106, R108, R109, R111); the
compares no register and one predicate (R107, R110); the predicate instructions no register, no taint set and one predicate (R112,
R113); HST no byte but the 32 that its handle and offset reach (R141). -/
def Sys2Proof.Claims.Frames : Prop :=
  ∀ (d a b m : BitVec 5) (u v n1 : BitVec 1) (lit : BitVec 32) (i6 n6 : BitVec 6) (n5 : BitVec 5) (i14 : BitVec 14) (c : BitVec 11) (r pd pa pb : BitVec 3) (s t : State),
    (∀ i ∈ Claims.aluTable.map (fun p => p.1 d a b u) ++ Claims.aluLitTable.map (fun p => p.1 d a u lit) ++
        Claims.divTable.flatMap (fun p => [p.1 d a b u, p.2.1 d a u lit]) ++
        [Instr.madd d a b u, .maddLit d a u lit, .bfi d a b u, .bfiLit d a u lit, .selp d a b u, .selpLit d a u lit, .mov d a, .clz d a u, .ctz d a u,
          .popc d a u, .addi d a i14, .andi d a i14, .ori d a i14, .xori d a i14, .shli d a n6, .shri d a n6, .sari d a n6, .roti d a n6,
          .addi6 d i6, .shliShort d n6, .shriShort d u n5, .lith d lit, .addShort d a, .subShort d a, .andShort d a, .orShort d a, .xorShort d a,
          .li6 d i6, .lit d lit],
      exec i s = .next t → Claims.Quiet s t [d.toNat] ∧ t.seq.preds = s.seq.preds ∧ t.seq.ctlTaint = s.seq.ctlTaint) ∧
    (∀ i ∈ Claims.compareTable.flatMap (fun p => [p.1 d a b u, p.2.1 d a u lit]) ++ [Instr.cmpi d a r c],
      exec i s = .next t → Claims.Quiet s t [] ∧ ∀ k, k ≠ d.toNat % 8 → t.seq.preds.getLsbD k = s.seq.preds.getLsbD k) ∧
    (∀ i ∈ [Instr.pand pd pa pb u, .por pd pa pb u, .pxor pd pa pb u, .pandLit pd pa u lit, .porLit pd pa u lit, .pxorLit pd pa u lit, .pnot pd pa u,
        .pset pd v u, .pmov pd n1 pa],
      exec i s = .next t → Claims.Quiet s t [] ∧ t.seq.ctlTaint = s.seq.ctlTaint ∧ ∀ k, k ≠ pd.toNat → t.seq.preds.getLsbD k = s.seq.preds.getLsbD k) ∧
    (∀ hv x s1 ls, s.handleReg m.toNat = .ok hv → s.src a.toNat = .ok x → s.reach hv rightW (offsetOf x.1 0) 32 32 .write = .ok (s1, ls) →
      exec (.hst d a m) s = .next t → s.sameMemoryBut t ls)

/-- R140, on ctl, where the two handle registers are declared: HMOV sets h[d] := h[a] and nothing else, and HCLR sets h[d] := 0,
whose V is 0. -/
def Obligations.HandleMoves : Prop :=
  ∀ (d a : BitVec 5) (s : State) (v w : BitVec 256), s.curSq = .ctl → s.handleReg a.toNat = .ok v → s.handleReg d.toNat = .ok w →
    exec (.hmov d a) s = .next ((s.modCur (fun c => { c with handles := c.handles.setIfInBounds d.toNat v })).retire 2) ∧
    exec (.hclr d) s = .next ((s.modCur (fun c => { c with handles := c.handles.setIfInBounds d.toNat 0 })).retire 2) ∧ hValid 0 = false

/-- R148: QSTAT on ctl writes the state of queue s[a][5:0] of the running context into d as Table 7-10 lays it out, the ring index
of the oldest record not yet complete, the records appended and not yet complete, where 16 bits hold their number, and the state, 3
in ERROR, 2 where a record with flag B, started and not complete, holds the candidate behind it, 1 where a record is not complete,
and 0 where none is; a queue that is not configured reads as zero. -/
def Obligations.QueueReads : Prop :=
  ∀ (d a : BitVec 5) (s : State) (n : Word × Taint), s.curSq = .ctl → s.scalars [d.toNat, a.toNat] = .ok () → s.src a.toNat = .ok n →
    (s.ownQueue (n.1.toNat % 64) = none → exec (.qstat d a) s = .next (((s.pop [a.toNat]).put d.toNat 0 0).retire 2)) ∧
    (∀ q, s.ownQueue (n.1.toNat % 64) = some q → let count := q.records.countP (fun r => r.phase != .complete)
      let holds := ∃ (i j : Nat) (x y : Record), q.records[i]? = some x ∧ q.records[j]? = some y ∧ i < j ∧ x.bits.getLsbD 32 = true ∧ x.phase ≠ .complete ∧ y.phase.started = false ∧
        ∀ (n : Nat) (z : Record), n < j → q.records[n]? = some z → z.phase.started = true
      ∃ pending state, pending < 2 ^ 16 ∧ (count < 2 ^ 16 → pending = count) ∧
        (q.error = true → state = 3) ∧ (q.error = false → holds → state = 2) ∧ (q.error = false → ¬ holds → 0 < count → state = 1) ∧
        (q.error = false → ¬ holds → count = 0 → state = 0) ∧
        exec (.qstat d a) s = .next (((s.pop [a.toNat]).put d.toNat (BitVec.ofNat 64 (q.head.toNat * 2 ^ 32 + pending * 2 ^ 16 + state)) 0).retire 2))

/-- R150: TRAP n, n from 0 to 14, raises 0xF0 + n; a word of major 0x20 with fn8 0 is TRAP with n in reg11[3:0] where a and
reg11[10:4] are 0, and 0x02 where one of them is not; n = 15 is 0x02 at decode. -/
def Obligations.TrapRaises : Prop :=
  ∀ (n : BitVec 4) (w : BitVec 32) (s : State),
    (n ≠ 15 → exec (.trap n) s = .next (s.stop (.trap (0xF0 + n.zeroExtend 8))) ∧ (Instr.trap n).wf = true) ∧
    (n = 15 → exec (.trap n) s = .next (s.stop (.trap 0x02)) ∧ (Instr.trap n).wf = false) ∧
    (w.extractLsb' 24 8 = 0xE0 → w.extractLsb' 0 8 = 0 →
      (w.extractLsb' 12 12 = 0 → decode (longParcels w) = .ok (.trap (w.extractLsb' 8 4), 2)) ∧
      (w.extractLsb' 12 12 ≠ 0 → decode (longParcels w) = .error 0x02))

/-- A trap leaves its sequencer in STATE 4 with the cause and the parcel offset of the unit in its status word, and changes
nothing else (R93, Table 1-3). -/
def Sys2Proof.Claims.TrapState : Prop :=
  ∀ (n : BitVec 4) (s : State), n ≠ 15 →
    ∃ t, exec (.trap n) s = .next t ∧ s.onlySequencer t ∧ t.seq = { s.seq with
      cause := 0xF0 + n.zeroExtend 8, run := .halted, waitOn := none, mark := none } ∧
      t.seq.statusWord = s.seq.pc % 2 ^ 32 * 2 ^ 32 + (0xF0 + n.toNat) * 2 ^ 24 + 4 * 2 ^ 20

/-- The ALU functions complete with Table 7-1's value; a zero divisor traps with 0xB0. -/
def Obligations.ScalarAlu : Prop :=
  Claims.AluRegister ∧ Claims.AluLiteral ∧ Claims.Divide ∧ Claims.AluThree

/-- Moves, immediates, shifts by a constant and bit counts complete with their value. -/
def Obligations.ScalarOthers : Prop :=
  Claims.OneSource ∧ Claims.FieldBits ∧ Claims.BitCounts

/-- Compares and predicate instructions write one predicate. -/
def Obligations.ComparesAndPredicates : Prop :=
  Claims.Compares ∧ Claims.Predicates

/-- HDR enters its block or traps with 0x05; passes, REP, PB and NOP. -/
def Obligations.BlocksRun : Prop :=
  Claims.BlockEntry ∧ Claims.BlockPasses ∧ Claims.Prefixes

/-- Branches, calls, jumps, LOOP and END. -/
def Obligations.ControlTransfers : Prop :=
  Claims.TransferEnters ∧ Claims.Branches ∧ Claims.BranchOnRegister ∧ Claims.Loop ∧ Claims.EndStream

/-- TKS and TKW add and take tokens, wait, or trap on the wrong side. -/
def Obligations.TokenQueues : Prop :=
  Claims.Tokens ∧ Claims.TokenSides

/-- Rill advances, waits, geometry and status. -/
def Obligations.RillInstructions : Prop :=
  Claims.Rills ∧ Claims.RillState

/-- Barrier and superstep instructions, and when a phase completes. -/
def Obligations.BarriersAndSupersteps : Prop :=
  Claims.Barriers ∧ Claims.BarrierPhase ∧ Claims.Supersteps

/-- The order of a handle's checks, and the instructions that read a handle. -/
def Obligations.HandleUse : Prop :=
  Claims.HandleCheckOrder ∧ Claims.HandleRegisters ∧ Claims.HandleFields

/-- Mint requests and their answers, HREVK, KROT and KSTAT. -/
def Obligations.Keys : Prop :=
  Claims.MintRequests ∧ Claims.MintAnswers ∧ Claims.KeyInstructions

/-- What a trap leaves; GETS, SETS, YIELD, CLK and ENRG. -/
def Obligations.SystemInstructions : Prop :=
  Claims.TrapState ∧ Claims.SystemRegisters ∧ Claims.SystemReads

/-- LD is issued, delivered and performed. -/
def Obligations.LoadsPerform : Prop :=
  Claims.Loads ∧ Claims.LoadEvents

/-- ST, SIGADD and the atomics are issued and perform. -/
def Obligations.StoresPerform : Prop :=
  Claims.Stores ∧ Claims.StorePerforms ∧ Claims.Atomics

/-- SIGWAIT, FENCE, ALIGN, TCLR, QPT, PREF, SPL and FIL. -/
def Obligations.OrderAndSpills : Prop :=
  Claims.SignalWaits ∧ Claims.OrderMarkers ∧ Claims.Prefetches ∧ Claims.Spills

/-- CESH, CWAIT, CCNT and CSTAT. -/
def Obligations.ShapesAndCounts : Prop :=
  Claims.ShapeFields ∧ Claims.CompletionCounts

/-- A copy moves its elements and completes. -/
def Obligations.CopyRuns : Prop :=
  Claims.CopyElements ∧ Claims.CopyBlocks ∧ Claims.CopyRecords ∧ Claims.CopyEnds ∧ Claims.Decrements

/-- An operation starts, fills its blocks, commits its row-steps and meets its set. -/
def Obligations.MatrixRuns : Prop :=
  Claims.MatrixSteps ∧ Claims.MatrixColumns ∧ Claims.Rendezvous

/-- VFP, VINT and VSFU act in each active lane. -/
def Obligations.VectorArithmetic : Prop :=
  Claims.VectorFloat ∧ Claims.VectorInteger ∧ Claims.VectorSpecial

/-- Compares, masks, reductions and permutations. -/
def Obligations.VectorAcrossLanes : Prop :=
  Claims.VectorMasks ∧ Claims.VectorReductions ∧ Claims.VectorPermutes

/-- VCVT, VKENC, VKDEC and VPLDEC, and the arithmetic and the conversions of the number formats. -/
def Obligations.VectorFormats : Prop :=
  Claims.VectorConverts ∧ Claims.VectorBlocks ∧ Claims.FormatArithmetic ∧ Claims.FormatConversions ∧ Claims.BlockFormats

/-- Queue registers, appends and abort forwarding. -/
def Obligations.LaunchQueues : Prop :=
  Claims.QueueRegisters ∧ Claims.RecordAppends ∧ Claims.AbortForwarding

/-- A candidate's steps and a record's start. -/
def Obligations.RecordsStart : Prop :=
  Claims.Candidates ∧ Claims.RecordStarts ∧ Claims.RangeMigrations

/-- Tasks are dispatched to the cores chosen for them. -/
def Obligations.TasksStart : Prop :=
  Claims.Dispatches ∧ Claims.CoreClaims

/-- Watchdogs act at their bound; a drain empties a context. -/
def Obligations.WatchdogsAndDrains : Prop :=
  Claims.Watchdogs ∧ Claims.Drains

/-- HARD_STOP and SAVE seal an image. -/
def Obligations.StopsAndSaves : Prop :=
  Claims.HardStops ∧ Claims.Saves

/-- PERSISTENT_COMMIT and RESTORE. -/
def Obligations.CommitsAndRestores : Prop :=
  Claims.Commits ∧ Claims.Restores

/-- Migration, slice moves, the dirty bitmap and host access. -/
def Obligations.Moves : Prop :=
  Claims.Migrations ∧ Claims.SliceMoves ∧ Claims.HostSide

/-- Tokens, power caps, quotas and cistern shares. -/
def Obligations.TokensAndCaps : Prop :=
  Claims.TenantTokens ∧ Claims.Caps

/-- Queues and partitions are configured; FLR and TDI_ERROR remove. -/
def Obligations.Management : Prop :=
  Claims.Configures ∧ Claims.FunctionResets

/-- BIND, POLICY, UNBIND, MINT, and the messages that carry requests. -/
def Obligations.TenantsAndMints : Prop :=
  Claims.TenantRequests ∧ Claims.DriverMints ∧ Claims.SecuredMessages

/-- Key rotation and zeroing change no other byte. -/
def Obligations.RotationsAndScrubs : Prop :=
  Claims.Rotations ∧ Claims.Scrubs

/-- RSLOT, APST, APLD and LAYX. -/
def Obligations.SlotsAndAperture : Prop :=
  Claims.ReductionSlots ∧ Claims.Aperture

/-- COLLW, PLWAIT, PLCNT, PLCUT and the events of a collective. -/
def Obligations.CollectivesRun : Prop :=
  Claims.CollectiveWaits ∧ Claims.CollectiveEvents

/-- Power, heat, the lifetime record and the patrol. -/
def Obligations.PowerAndRecord : Prop :=
  Claims.PowerAndHeat ∧ Claims.LifetimeRecord

/-- A step runs the instruction that the fetched parcels decode to. -/
def Obligations.StepRunsDecoded : Prop :=
  Claims.Decoded ∧ Claims.Fetches ∧ Claims.StepTurns

/-- A byte written reads back and others stay; what the scalar instructions and HST leave unchanged. -/
def Obligations.FramesAndBytes : Prop :=
  Claims.MemoryBytes ∧ Claims.Frames
end

