-- ==== Sys2Proof/Laws/Crypto.lean ====
section
/-!
SUPPORT. GCM opens what it seals: a block of AES under full round keys has 16 bytes, and the key stream of GCM applied twice
gives the text back.
-/
namespace Sys2Proof.Machine.Crypto

theorem xorBytes_length (x y : List Byte) : (xorBytes x y).length = min x.length y.length := List.length_zipWith

theorem xorBytes_twice : ∀ (x y : List Byte), x.length ≤ y.length → xorBytes (xorBytes x y) y = x
  | [], _, _ => rfl
  | a :: x, b :: y, h => by
    have := xorBytes_twice x y (by simpa using h)
    simp only [xorBytes, List.zipWith_cons_cons] at this ⊢
    rw [this, BitVec.xor_assoc, BitVec.xor_self, BitVec.xor_zero]

theorem shiftRows_length (s : List Byte) : (shiftRows s).length = 16 := by simp [shiftRows]

theorem rounds_length : ∀ (ks : List (List Byte)) (s : List Byte), ks ≠ [] → (∀ k ∈ ks, k.length = 16) → (rounds ks s).length = 16
  | [k], s, _, h => by simp [rounds, xorBytes_length, shiftRows_length, h]
  | _ :: k :: ks, _, _, h => rounds_length (k :: ks) _ (by simp) (fun x hx => h x (List.mem_cons_of_mem _ hx))

theorem aesBlock_length {ks : List (List Byte)} (b : List Byte) (hn : 2 ≤ ks.length) (h : ∀ k ∈ ks, k.length = 16) : (aesBlock ks b).length = 16 := by
  match ks with
  | _ :: _ :: _ => exact rounds_length _ _ (by simp) (fun x hx => h x (List.mem_cons_of_mem _ hx))

/-- A text is its own cipher's text: the key stream undoes itself. -/
theorem gcmCrypt_twice (key : BitVec 256) (iv text : List Byte) (hn : 2 ≤ (roundKeys (keyBytes key)).length)
    (h : ∀ k ∈ roundKeys (keyBytes key), k.length = 16) : gcmCrypt key iv (gcmCrypt key iv text) = text := by
  have len : ∀ n : Nat, ((List.range n).flatMap (fun i => aesBlock (roundKeys (keyBytes key)) (iv ++ beBytes 4 (i + 2)))).length = 16 * n := by
    intro n
    induction n with
    | zero => rfl
    | succ n ih => rw [List.range_succ, List.flatMap_append, List.length_append, ih]; simp [aesBlock_length _ hn h]; omega
  have same : (gcmCrypt key iv text).length = text.length := by
    simp only [gcmCrypt, xorBytes_length, len]; omega
  unfold gcmCrypt at same ⊢
  simp only [same]
  exact xorBytes_twice _ _ (by rw [len]; omega)

end Sys2Proof.Machine.Crypto
end

