-- ==== Sys2Proof/Laws/Dispatch.lean ====
section
/-!
SUPPORT. One equation per arm of `exec`, so that no proof unfolds the dispatch itself.
-/
namespace Sys2Proof.Machine

section Arms
variable (st : State)
@[simp] theorem exec_hdr (r l : BitVec 12) : exec (.hdr r l) st = execHdr r l st := rfl
@[simp] theorem exec_nop : exec (.nop) st = execNop st := rfl
@[simp] theorem exec_mov (d a : BitVec 5) : exec (.mov d a) st = execMov d a st := rfl
@[simp] theorem exec_addShort (d a : BitVec 5) : exec (.addShort d a) st = execAddShort d a st := rfl
@[simp] theorem exec_subShort (d a : BitVec 5) : exec (.subShort d a) st = execSubShort d a st := rfl
@[simp] theorem exec_andShort (d a : BitVec 5) : exec (.andShort d a) st = execAndShort d a st := rfl
@[simp] theorem exec_orShort (d a : BitVec 5) : exec (.orShort d a) st = execOrShort d a st := rfl
@[simp] theorem exec_xorShort (d a : BitVec 5) : exec (.xorShort d a) st = execXorShort d a st := rfl
@[simp] theorem exec_addi6 (d : BitVec 5) (i : BitVec 6) : exec (.addi6 d i) st = execAddi6 d i st := rfl
@[simp] theorem exec_shliShort (d : BitVec 5) (n : BitVec 6) : exec (.shliShort d n) st = execShliShort d n st := rfl
@[simp] theorem exec_shriShort (d : BitVec 5) (x : BitVec 1) (n : BitVec 5) : exec (.shriShort d x n) st = execShriShort d x n st := rfl
@[simp] theorem exec_li6 (d : BitVec 5) (i : BitVec 6) : exec (.li6 d i) st = execLi6 d i st := rfl
@[simp] theorem exec_tclr (d : BitVec 5) (x : BitVec 1) : exec (.tclr d x) st = execTclr d x st := rfl
@[simp] theorem exec_adv (n : BitVec 5) (x : BitVec 1) (w : BitVec 4) : exec (.adv n x w) st = execAdv n x w st := rfl
@[simp] theorem exec_tks (n : BitVec 5) (q : BitVec 4) : exec (.tks n q) st = execTks n q st := rfl
@[simp] theorem exec_tkw (n : BitVec 5) (q : BitVec 4) : exec (.tkw n q) st = execTkw n q st := rfl
@[simp] theorem exec_arr (b : BitVec 5) : exec (.arr b) st = execArr b st := rfl
@[simp] theorem exec_rep (v x b a d : BitVec 1) (n : BitVec 6) : exec (.rep v x b a d n) st = execRep v x b a d n st := rfl
@[simp] theorem exec_pmov (d : BitVec 3) (n : BitVec 1) (a : BitVec 3) : exec (.pmov d n a) st = execPmov d n a st := rfl
@[simp] theorem exec_ret : exec (.ret) st = execRet st := rfl
@[simp] theorem exec_br16 (d : BitVec 11) : exec (.br16 d) st = execBr16 d st := rfl
@[simp] theorem exec_endStream : exec (.endStream) st = execEndStream st := rfl
@[simp] theorem exec_qpt : exec (.qpt) st = execQpt st := rfl
@[simp] theorem exec_spl (d s : BitVec 5) : exec (.spl d s) st = execSpl d s st := rfl
@[simp] theorem exec_fil (d s : BitVec 5) : exec (.fil d s) st = execFil d s st := rfl
@[simp] theorem exec_add (d a b : BitVec 5) (u : BitVec 1) : exec (.add d a b u) st = execAdd d a b u st := rfl
@[simp] theorem exec_sub (d a b : BitVec 5) (u : BitVec 1) : exec (.sub d a b u) st = execSub d a b u st := rfl
@[simp] theorem exec_mul (d a b : BitVec 5) (u : BitVec 1) : exec (.mul d a b u) st = execMul d a b u st := rfl
@[simp] theorem exec_mulh (d a b : BitVec 5) (u : BitVec 1) : exec (.mulh d a b u) st = execMulh d a b u st := rfl
@[simp] theorem exec_mulhu (d a b : BitVec 5) (u : BitVec 1) : exec (.mulhu d a b u) st = execMulhu d a b u st := rfl
@[simp] theorem exec_div (d a b : BitVec 5) (u : BitVec 1) : exec (.div d a b u) st = execDiv d a b u st := rfl
@[simp] theorem exec_divu (d a b : BitVec 5) (u : BitVec 1) : exec (.divu d a b u) st = execDivu d a b u st := rfl
@[simp] theorem exec_rem (d a b : BitVec 5) (u : BitVec 1) : exec (.rem d a b u) st = execRem d a b u st := rfl
@[simp] theorem exec_remu (d a b : BitVec 5) (u : BitVec 1) : exec (.remu d a b u) st = execRemu d a b u st := rfl
@[simp] theorem exec_and (d a b : BitVec 5) (u : BitVec 1) : exec (.and d a b u) st = execAnd d a b u st := rfl
@[simp] theorem exec_or (d a b : BitVec 5) (u : BitVec 1) : exec (.or d a b u) st = execOr d a b u st := rfl
@[simp] theorem exec_xor (d a b : BitVec 5) (u : BitVec 1) : exec (.xor d a b u) st = execXor d a b u st := rfl
@[simp] theorem exec_andn (d a b : BitVec 5) (u : BitVec 1) : exec (.andn d a b u) st = execAndn d a b u st := rfl
@[simp] theorem exec_shl (d a b : BitVec 5) (u : BitVec 1) : exec (.shl d a b u) st = execShl d a b u st := rfl
@[simp] theorem exec_shr (d a b : BitVec 5) (u : BitVec 1) : exec (.shr d a b u) st = execShr d a b u st := rfl
@[simp] theorem exec_sar (d a b : BitVec 5) (u : BitVec 1) : exec (.sar d a b u) st = execSar d a b u st := rfl
@[simp] theorem exec_rot (d a b : BitVec 5) (u : BitVec 1) : exec (.rot d a b u) st = execRot d a b u st := rfl
@[simp] theorem exec_min (d a b : BitVec 5) (u : BitVec 1) : exec (.min d a b u) st = execMin d a b u st := rfl
@[simp] theorem exec_max (d a b : BitVec 5) (u : BitVec 1) : exec (.max d a b u) st = execMax d a b u st := rfl
@[simp] theorem exec_minu (d a b : BitVec 5) (u : BitVec 1) : exec (.minu d a b u) st = execMinu d a b u st := rfl
@[simp] theorem exec_maxu (d a b : BitVec 5) (u : BitVec 1) : exec (.maxu d a b u) st = execMaxu d a b u st := rfl
@[simp] theorem exec_clz (d a : BitVec 5) (u : BitVec 1) : exec (.clz d a u) st = execClz d a u st := rfl
@[simp] theorem exec_ctz (d a : BitVec 5) (u : BitVec 1) : exec (.ctz d a u) st = execCtz d a u st := rfl
@[simp] theorem exec_popc (d a : BitVec 5) (u : BitVec 1) : exec (.popc d a u) st = execPopc d a u st := rfl
@[simp] theorem exec_sext (d a b : BitVec 5) (u : BitVec 1) : exec (.sext d a b u) st = execSext d a b u st := rfl
@[simp] theorem exec_zext (d a b : BitVec 5) (u : BitVec 1) : exec (.zext d a b u) st = execZext d a b u st := rfl
@[simp] theorem exec_bfx (d a b : BitVec 5) (u : BitVec 1) : exec (.bfx d a b u) st = execBfx d a b u st := rfl
@[simp] theorem exec_bfi (d a b : BitVec 5) (u : BitVec 1) : exec (.bfi d a b u) st = execBfi d a b u st := rfl
@[simp] theorem exec_selp (d a b : BitVec 5) (u : BitVec 1) : exec (.selp d a b u) st = execSelp d a b u st := rfl
@[simp] theorem exec_addsat (d a b : BitVec 5) (u : BitVec 1) : exec (.addsat d a b u) st = execAddsat d a b u st := rfl
@[simp] theorem exec_subsat (d a b : BitVec 5) (u : BitVec 1) : exec (.subsat d a b u) st = execSubsat d a b u st := rfl
@[simp] theorem exec_madd (d a b : BitVec 5) (u : BitVec 1) : exec (.madd d a b u) st = execMadd d a b u st := rfl
@[simp] theorem exec_cmpeq (d a b : BitVec 5) (u : BitVec 1) : exec (.cmpeq d a b u) st = execCmpeq d a b u st := rfl
@[simp] theorem exec_cmpne (d a b : BitVec 5) (u : BitVec 1) : exec (.cmpne d a b u) st = execCmpne d a b u st := rfl
@[simp] theorem exec_cmplt (d a b : BitVec 5) (u : BitVec 1) : exec (.cmplt d a b u) st = execCmplt d a b u st := rfl
@[simp] theorem exec_cmple (d a b : BitVec 5) (u : BitVec 1) : exec (.cmple d a b u) st = execCmple d a b u st := rfl
@[simp] theorem exec_cmpltu (d a b : BitVec 5) (u : BitVec 1) : exec (.cmpltu d a b u) st = execCmpltu d a b u st := rfl
@[simp] theorem exec_cmpleu (d a b : BitVec 5) (u : BitVec 1) : exec (.cmpleu d a b u) st = execCmpleu d a b u st := rfl
@[simp] theorem exec_addLit (d a : BitVec 5) (u : BitVec 1) (lit : BitVec 32) : exec (.addLit d a u lit) st = execAddLit d a u lit st := rfl
@[simp] theorem exec_subLit (d a : BitVec 5) (u : BitVec 1) (lit : BitVec 32) : exec (.subLit d a u lit) st = execSubLit d a u lit st := rfl
@[simp] theorem exec_mulLit (d a : BitVec 5) (u : BitVec 1) (lit : BitVec 32) : exec (.mulLit d a u lit) st = execMulLit d a u lit st := rfl
@[simp] theorem exec_mulhLit (d a : BitVec 5) (u : BitVec 1) (lit : BitVec 32) : exec (.mulhLit d a u lit) st = execMulhLit d a u lit st := rfl
@[simp] theorem exec_mulhuLit (d a : BitVec 5) (u : BitVec 1) (lit : BitVec 32) : exec (.mulhuLit d a u lit) st = execMulhuLit d a u lit st := rfl
@[simp] theorem exec_divLit (d a : BitVec 5) (u : BitVec 1) (lit : BitVec 32) : exec (.divLit d a u lit) st = execDivLit d a u lit st := rfl
@[simp] theorem exec_divuLit (d a : BitVec 5) (u : BitVec 1) (lit : BitVec 32) : exec (.divuLit d a u lit) st = execDivuLit d a u lit st := rfl
@[simp] theorem exec_remLit (d a : BitVec 5) (u : BitVec 1) (lit : BitVec 32) : exec (.remLit d a u lit) st = execRemLit d a u lit st := rfl
@[simp] theorem exec_remuLit (d a : BitVec 5) (u : BitVec 1) (lit : BitVec 32) : exec (.remuLit d a u lit) st = execRemuLit d a u lit st := rfl
@[simp] theorem exec_andLit (d a : BitVec 5) (u : BitVec 1) (lit : BitVec 32) : exec (.andLit d a u lit) st = execAndLit d a u lit st := rfl
@[simp] theorem exec_orLit (d a : BitVec 5) (u : BitVec 1) (lit : BitVec 32) : exec (.orLit d a u lit) st = execOrLit d a u lit st := rfl
@[simp] theorem exec_xorLit (d a : BitVec 5) (u : BitVec 1) (lit : BitVec 32) : exec (.xorLit d a u lit) st = execXorLit d a u lit st := rfl
@[simp] theorem exec_andnLit (d a : BitVec 5) (u : BitVec 1) (lit : BitVec 32) : exec (.andnLit d a u lit) st = execAndnLit d a u lit st := rfl
@[simp] theorem exec_shlLit (d a : BitVec 5) (u : BitVec 1) (lit : BitVec 32) : exec (.shlLit d a u lit) st = execShlLit d a u lit st := rfl
@[simp] theorem exec_shrLit (d a : BitVec 5) (u : BitVec 1) (lit : BitVec 32) : exec (.shrLit d a u lit) st = execShrLit d a u lit st := rfl
@[simp] theorem exec_sarLit (d a : BitVec 5) (u : BitVec 1) (lit : BitVec 32) : exec (.sarLit d a u lit) st = execSarLit d a u lit st := rfl
@[simp] theorem exec_rotLit (d a : BitVec 5) (u : BitVec 1) (lit : BitVec 32) : exec (.rotLit d a u lit) st = execRotLit d a u lit st := rfl
@[simp] theorem exec_minLit (d a : BitVec 5) (u : BitVec 1) (lit : BitVec 32) : exec (.minLit d a u lit) st = execMinLit d a u lit st := rfl
@[simp] theorem exec_maxLit (d a : BitVec 5) (u : BitVec 1) (lit : BitVec 32) : exec (.maxLit d a u lit) st = execMaxLit d a u lit st := rfl
@[simp] theorem exec_minuLit (d a : BitVec 5) (u : BitVec 1) (lit : BitVec 32) : exec (.minuLit d a u lit) st = execMinuLit d a u lit st := rfl
@[simp] theorem exec_maxuLit (d a : BitVec 5) (u : BitVec 1) (lit : BitVec 32) : exec (.maxuLit d a u lit) st = execMaxuLit d a u lit st := rfl
@[simp] theorem exec_sextLit (d a : BitVec 5) (u : BitVec 1) (lit : BitVec 32) : exec (.sextLit d a u lit) st = execSextLit d a u lit st := rfl
@[simp] theorem exec_zextLit (d a : BitVec 5) (u : BitVec 1) (lit : BitVec 32) : exec (.zextLit d a u lit) st = execZextLit d a u lit st := rfl
@[simp] theorem exec_bfxLit (d a : BitVec 5) (u : BitVec 1) (lit : BitVec 32) : exec (.bfxLit d a u lit) st = execBfxLit d a u lit st := rfl
@[simp] theorem exec_bfiLit (d a : BitVec 5) (u : BitVec 1) (lit : BitVec 32) : exec (.bfiLit d a u lit) st = execBfiLit d a u lit st := rfl
@[simp] theorem exec_selpLit (d a : BitVec 5) (u : BitVec 1) (lit : BitVec 32) : exec (.selpLit d a u lit) st = execSelpLit d a u lit st := rfl
@[simp] theorem exec_addsatLit (d a : BitVec 5) (u : BitVec 1) (lit : BitVec 32) : exec (.addsatLit d a u lit) st = execAddsatLit d a u lit st := rfl
@[simp] theorem exec_subsatLit (d a : BitVec 5) (u : BitVec 1) (lit : BitVec 32) : exec (.subsatLit d a u lit) st = execSubsatLit d a u lit st := rfl
@[simp] theorem exec_maddLit (d a : BitVec 5) (u : BitVec 1) (lit : BitVec 32) : exec (.maddLit d a u lit) st = execMaddLit d a u lit st := rfl
@[simp] theorem exec_cmpeqLit (d a : BitVec 5) (u : BitVec 1) (lit : BitVec 32) : exec (.cmpeqLit d a u lit) st = execCmpeqLit d a u lit st := rfl
@[simp] theorem exec_cmpneLit (d a : BitVec 5) (u : BitVec 1) (lit : BitVec 32) : exec (.cmpneLit d a u lit) st = execCmpneLit d a u lit st := rfl
@[simp] theorem exec_cmpltLit (d a : BitVec 5) (u : BitVec 1) (lit : BitVec 32) : exec (.cmpltLit d a u lit) st = execCmpltLit d a u lit st := rfl
@[simp] theorem exec_cmpleLit (d a : BitVec 5) (u : BitVec 1) (lit : BitVec 32) : exec (.cmpleLit d a u lit) st = execCmpleLit d a u lit st := rfl
@[simp] theorem exec_cmpltuLit (d a : BitVec 5) (u : BitVec 1) (lit : BitVec 32) : exec (.cmpltuLit d a u lit) st = execCmpltuLit d a u lit st := rfl
@[simp] theorem exec_cmpleuLit (d a : BitVec 5) (u : BitVec 1) (lit : BitVec 32) : exec (.cmpleuLit d a u lit) st = execCmpleuLit d a u lit st := rfl
@[simp] theorem exec_addi (d a : BitVec 5) (i : BitVec 14) : exec (.addi d a i) st = execAddi d a i st := rfl
@[simp] theorem exec_andi (d a : BitVec 5) (i : BitVec 14) : exec (.andi d a i) st = execAndi d a i st := rfl
@[simp] theorem exec_ori (d a : BitVec 5) (i : BitVec 14) : exec (.ori d a i) st = execOri d a i st := rfl
@[simp] theorem exec_xori (d a : BitVec 5) (i : BitVec 14) : exec (.xori d a i) st = execXori d a i st := rfl
@[simp] theorem exec_shli (d a : BitVec 5) (n : BitVec 6) : exec (.shli d a n) st = execShli d a n st := rfl
@[simp] theorem exec_shri (d a : BitVec 5) (n : BitVec 6) : exec (.shri d a n) st = execShri d a n st := rfl
@[simp] theorem exec_sari (d a : BitVec 5) (n : BitVec 6) : exec (.sari d a n) st = execSari d a n st := rfl
@[simp] theorem exec_roti (d a : BitVec 5) (n : BitVec 6) : exec (.roti d a n) st = execRoti d a n st := rfl
@[simp] theorem exec_cmpi (d a : BitVec 5) (r : BitVec 3) (c : BitVec 11) : exec (.cmpi d a r c) st = execCmpi d a r c st := rfl
@[simp] theorem exec_lit (d : BitVec 5) (lit : BitVec 32) : exec (.lit d lit) st = execLit d lit st := rfl
@[simp] theorem exec_lith (d : BitVec 5) (lit : BitVec 32) : exec (.lith d lit) st = execLith d lit st := rfl
@[simp] theorem exec_pand (d a b : BitVec 3) (u : BitVec 1) : exec (.pand d a b u) st = execPand d a b u st := rfl
@[simp] theorem exec_por (d a b : BitVec 3) (u : BitVec 1) : exec (.por d a b u) st = execPor d a b u st := rfl
@[simp] theorem exec_pxor (d a b : BitVec 3) (u : BitVec 1) : exec (.pxor d a b u) st = execPxor d a b u st := rfl
@[simp] theorem exec_pnot (d a : BitVec 3) (u : BitVec 1) : exec (.pnot d a u) st = execPnot d a u st := rfl
@[simp] theorem exec_pset (d : BitVec 3) (v u : BitVec 1) : exec (.pset d v u) st = execPset d v u st := rfl
@[simp] theorem exec_pandLit (d a : BitVec 3) (u : BitVec 1) (lit : BitVec 32) : exec (.pandLit d a u lit) st = execPandLit d a u lit st := rfl
@[simp] theorem exec_porLit (d a : BitVec 3) (u : BitVec 1) (lit : BitVec 32) : exec (.porLit d a u lit) st = execPorLit d a u lit st := rfl
@[simp] theorem exec_pxorLit (d a : BitVec 3) (u : BitVec 1) (lit : BitVec 32) : exec (.pxorLit d a u lit) st = execPxorLit d a u lit st := rfl
@[simp] theorem exec_pb (c n : BitVec 3) (p : BitVec 8) : exec (.pb c n p) st = execPb c n p st := rfl
@[simp] theorem exec_brc (a : BitVec 5) (c : BitVec 3) (d : BitVec 16) : exec (.brc a c d) st = execBrc a c d st := rfl
@[simp] theorem exec_br (d : BitVec 24) : exec (.br d) st = execBr d st := rfl
@[simp] theorem exec_call (d : BitVec 24) : exec (.call d) st = execCall d st := rfl
@[simp] theorem exec_jr (a : BitVec 5) (u : BitVec 1) : exec (.jr a u) st = execJr a u st := rfl
@[simp] theorem exec_jrLit (a : BitVec 5) (u : BitVec 1) (lit : BitVec 32) : exec (.jrLit a u lit) st = execJrLit a u lit st := rfl
@[simp] theorem exec_jalr (d a : BitVec 5) (u : BitVec 1) : exec (.jalr d a u) st = execJalr d a u st := rfl
@[simp] theorem exec_jalrLit (d a : BitVec 5) (u : BitVec 1) (lit : BitVec 32) : exec (.jalrLit d a u lit) st = execJalrLit d a u lit st := rfl
@[simp] theorem exec_retL (u : BitVec 1) : exec (.retL u) st = execRetL u st := rfl
@[simp] theorem exec_retLLit (u : BitVec 1) (lit : BitVec 32) : exec (.retLLit u lit) st = execRetLLit u lit st := rfl
@[simp] theorem exec_loop (a : BitVec 5) (d : BitVec 16) : exec (.loop a d) st = execLoop a d st := rfl
@[simp] theorem exec_tksL (q a : BitVec 5) (n : BitVec 10) : exec (.tksL q a n) st = execTksL q a n st := rfl
@[simp] theorem exec_tkwL (q a : BitVec 5) (n : BitVec 10) : exec (.tkwL q a n) st = execTkwL q a n st := rfl
@[simp] theorem exec_bjoin (b : BitVec 5) : exec (.bjoin b) st = execBjoin b st := rfl
@[simp] theorem exec_bleave (b : BitVec 5) : exec (.bleave b) st = execBleave b st := rfl
@[simp] theorem exec_barr (b : BitVec 5) : exec (.barr b) st = execBarr b st := rfl
@[simp] theorem exec_barn (d b : BitVec 5) : exec (.barn d b) st = execBarn d b st := rfl
@[simp] theorem exec_bwait (a b : BitVec 5) : exec (.bwait a b) st = execBwait a b st := rfl
@[simp] theorem exec_bcnt (d b : BitVec 5) : exec (.bcnt d b) st = execBcnt d b st := rfl
@[simp] theorem exec_sstep : exec (.sstep) st = execSstep st := rfl
@[simp] theorem exec_ssync : exec (.ssync) st = execSsync st := rfl
@[simp] theorem exec_sphase (d : BitVec 5) : exec (.sphase d) st = execSphase d st := rfl
@[simp] theorem exec_winit (w a : BitVec 5) : exec (.winit w a) st = execWinit w a st := rfl
@[simp] theorem exec_wwaitf (w a : BitVec 5) (n : BitVec 10) : exec (.wwaitf w a n) st = execWwaitf w a n st := rfl
@[simp] theorem exec_wwaite (w a : BitVec 5) (n : BitVec 10) : exec (.wwaite w a n) st = execWwaite w a n st := rfl
@[simp] theorem exec_wadvp (w a : BitVec 5) (n : BitVec 10) : exec (.wadvp w a n) st = execWadvp w a n st := rfl
@[simp] theorem exec_wadvc (w a : BitVec 5) (n : BitVec 10) : exec (.wadvc w a n) st = execWadvc w a n st := rfl
@[simp] theorem exec_wstat (d : BitVec 5) (w : BitVec 4) : exec (.wstat d w) st = execWstat d w st := rfl
@[simp] theorem exec_ld (d h a : BitVec 5) (z o : BitVec 2) (s : BitVec 3) (q : BitVec 1) : exec (.ld d h a z o s q) st = execLd d h a z o s q st := rfl
@[simp] theorem exec_ldLit (d h a : BitVec 5) (z o : BitVec 2) (s : BitVec 3) (q : BitVec 1) (lit : BitVec 32) : exec (.ldLit d h a z o s q lit) st = execLdLit d h a z o s q lit st := rfl
@[simp] theorem exec_st (d h a : BitVec 5) (z o : BitVec 2) (s : BitVec 3) : exec (.st d h a z o s) st = execSt d h a z o s st := rfl
@[simp] theorem exec_stLit (d h a : BitVec 5) (z o : BitVec 2) (s : BitVec 3) (lit : BitVec 32) : exec (.stLit d h a z o s lit) st = execStLit d h a z o s lit st := rfl
@[simp] theorem exec_aadd (d h a : BitVec 5) (s : BitVec 3) (w : BitVec 1) : exec (.aadd d h a s w) st = execAadd d h a s w st := rfl
@[simp] theorem exec_aand (d h a : BitVec 5) (s : BitVec 3) (w : BitVec 1) : exec (.aand d h a s w) st = execAand d h a s w st := rfl
@[simp] theorem exec_aor (d h a : BitVec 5) (s : BitVec 3) (w : BitVec 1) : exec (.aor d h a s w) st = execAor d h a s w st := rfl
@[simp] theorem exec_axor (d h a : BitVec 5) (s : BitVec 3) (w : BitVec 1) : exec (.axor d h a s w) st = execAxor d h a s w st := rfl
@[simp] theorem exec_amin (d h a : BitVec 5) (s : BitVec 3) (w : BitVec 1) : exec (.amin d h a s w) st = execAmin d h a s w st := rfl
@[simp] theorem exec_amax (d h a : BitVec 5) (s : BitVec 3) (w : BitVec 1) : exec (.amax d h a s w) st = execAmax d h a s w st := rfl
@[simp] theorem exec_aminu (d h a : BitVec 5) (s : BitVec 3) (w : BitVec 1) : exec (.aminu d h a s w) st = execAminu d h a s w st := rfl
@[simp] theorem exec_amaxu (d h a : BitVec 5) (s : BitVec 3) (w : BitVec 1) : exec (.amaxu d h a s w) st = execAmaxu d h a s w st := rfl
@[simp] theorem exec_aswp (d h a : BitVec 5) (s : BitVec 3) (w : BitVec 1) : exec (.aswp d h a s w) st = execAswp d h a s w st := rfl
@[simp] theorem exec_acas (d h a : BitVec 5) (s : BitVec 3) (w : BitVec 1) : exec (.acas d h a s w) st = execAcas d h a s w st := rfl
@[simp] theorem exec_sigadd (d a h : BitVec 5) : exec (.sigadd d a h) st = execSigadd d a h st := rfl
@[simp] theorem exec_sigwait (d a : BitVec 5) (t : BitVec 1) (r : BitVec 3) (h : BitVec 5) : exec (.sigwait d a t r h) st = execSigwait d a t r h st := rfl
@[simp] theorem exec_fence (k : BitVec 2) (s : BitVec 3) : exec (.fence k s) st = execFence k s st := rfl
@[simp] theorem exec_align (k : BitVec 4) : exec (.align k) st = execAlign k st := rfl
@[simp] theorem exec_tclrL (d : BitVec 5) (x : BitVec 1) : exec (.tclrL d x) st = execTclrL d x st := rfl
@[simp] theorem exec_qptL : exec (.qptL) st = execQptL st := rfl
@[simp] theorem exec_pref (h a : BitVec 5) (z : BitVec 2) : exec (.pref h a z) st = execPref h a z st := rfl
@[simp] theorem exec_prefLit (h a : BitVec 5) (z : BitVec 2) (lit : BitVec 32) : exec (.prefLit h a z lit) st = execPrefLit h a z lit st := rfl
@[simp] theorem exec_cpy (hd hs : BitVec 5) (y : BitVec 4) (a : BitVec 5) (lit : BitVec 32) : exec (.cpy hd hs y a lit) st = execCpy hd hs y a lit st := rfl
@[simp] theorem exec_cpyin (hd hs : BitVec 5) (y : BitVec 4) (a : BitVec 5) (lit : BitVec 32) : exec (.cpyin hd hs y a lit) st = execCpyin hd hs y a lit st := rfl
@[simp] theorem exec_cpyout (hd hs : BitVec 5) (y : BitVec 4) (a : BitVec 5) (lit : BitVec 32) : exec (.cpyout hd hs y a lit) st = execCpyout hd hs y a lit st := rfl
@[simp] theorem exec_cpyz (hd : BitVec 5) (y : BitVec 4) (a : BitVec 5) (lit : BitVec 32) : exec (.cpyz hd y a lit) st = execCpyz hd y a lit st := rfl
@[simp] theorem exec_cpycv (hd hs : BitVec 5) (y : BitVec 4) (a : BitVec 5) (lit : BitVec 32) : exec (.cpycv hd hs y a lit) st = execCpycv hd hs y a lit st := rfl
@[simp] theorem exec_gather (hd hs : BitVec 5) (y : BitVec 4) (a : BitVec 5) (lit : BitVec 32) : exec (.gather hd hs y a lit) st = execGather hd hs y a lit st := rfl
@[simp] theorem exec_scatter (hd hs : BitVec 5) (y : BitVec 4) (a : BitVec 5) (lit : BitVec 32) : exec (.scatter hd hs y a lit) st = execScatter hd hs y a lit st := rfl
@[simp] theorem exec_cesh (a : BitVec 5) (f : BitVec 2) (i y : BitVec 4) : exec (.cesh a f i y) st = execCesh a f i y st := rfl
@[simp] theorem exec_cwait (a : BitVec 5) (n : BitVec 10) : exec (.cwait a n) st = execCwait a n st := rfl
@[simp] theorem exec_ccnt (d : BitVec 5) : exec (.ccnt d) st = execCcnt d st := rfl
@[simp] theorem exec_cstat (d : BitVec 5) : exec (.cstat d) st = execCstat d st := rfl
@[simp] theorem exec_cstatIssued (d : BitVec 5) : exec (.cstatIssued d) st = execCstatIssued d st := rfl
@[simp] theorem exec_hreq (a : BitVec 5) (t : BitVec 3) : exec (.hreq a t) st = execHreq a t st := rfl
@[simp] theorem exec_hwait (h a : BitVec 5) (t : BitVec 3) : exec (.hwait h a t) st = execHwait h a t st := rfl
@[simp] theorem exec_hmov (d a : BitVec 5) : exec (.hmov d a) st = execHmov d a st := rfl
@[simp] theorem exec_hclr (d : BitVec 5) : exec (.hclr d) st = execHclr d st := rfl
@[simp] theorem exec_hld (d a m : BitVec 5) : exec (.hld d a m) st = execHld d a m st := rfl
@[simp] theorem exec_hst (d a m : BitVec 5) : exec (.hst d a m) st = execHst d a m st := rfl
@[simp] theorem exec_hchk (d a : BitVec 5) (m : BitVec 8) : exec (.hchk d a m) st = execHchk d a m st := rfl
@[simp] theorem exec_hget (d a : BitVec 5) (s : BitVec 4) : exec (.hget d a s) st = execHget d a s st := rfl
@[simp] theorem exec_hrevk (d a : BitVec 5) : exec (.hrevk d a) st = execHrevk d a st := rfl
@[simp] theorem exec_hrevkAll (d : BitVec 5) : exec (.hrevkAll d) st = execHrevkAll d st := rfl
@[simp] theorem exec_krot (d : BitVec 5) : exec (.krot d) st = execKrot d st := rfl
@[simp] theorem exec_kstat (d : BitVec 5) (s : BitVec 10) : exec (.kstat d s) st = execKstat d s st := rfl
@[simp] theorem exec_trap (n : BitVec 4) : exec (.trap n) st = execTrap n st := rfl
@[simp] theorem exec_gets (a : BitVec 5) (r : BitVec 11) : exec (.gets a r) st = execGets a r st := rfl
@[simp] theorem exec_sets (a : BitVec 5) (r : BitVec 11) : exec (.sets a r) st = execSets a r st := rfl
@[simp] theorem exec_yield (a : BitVec 5) : exec (.yield a) st = execYield a st := rfl
@[simp] theorem exec_clk (a : BitVec 5) (c : BitVec 1) : exec (.clk a c) st = execClk a c st := rfl
@[simp] theorem exec_enrg (a : BitVec 5) (l : BitVec 1) (q : BitVec 6) : exec (.enrg a l q) st = execEnrg a l q st := rfl
@[simp] theorem exec_nopl : exec (.nopl) st = execNopl st := rfl
@[simp] theorem exec_launch (d a h : BitVec 5) : exec (.launch d a h) st = execLaunch d a h st := rfl
@[simp] theorem exec_qstat (d a : BitVec 5) : exec (.qstat d a) st = execQstat d a st := rfl
@[simp] theorem exec_save (d h : BitVec 5) (c : BitVec 1) : exec (.save d h c) st = execSave d h c st := rfl
@[simp] theorem exec_coll (d a : BitVec 5) (e l : BitVec 1) (y x : BitVec 3) (lit : BitVec 32) : exec (.coll d a e l y x lit) st = execColl d a e l y x lit st := rfl
@[simp] theorem exec_collw (d a : BitVec 5) : exec (.collw d a) st = execCollw d a st := rfl
@[simp] theorem exec_collwCancel (d a : BitVec 5) : exec (.collwCancel d a) st = execCollwCancel d a st := rfl
@[simp] theorem exec_plwait (a n : BitVec 5) : exec (.plwait a n) st = execPlwait a n st := rfl
@[simp] theorem exec_plcnt (d a : BitVec 5) : exec (.plcnt d a) st = execPlcnt d a st := rfl
@[simp] theorem exec_plcut (a : BitVec 5) (n : BitVec 4) : exec (.plcut a n) st = execPlcut a n st := rfl
@[simp] theorem exec_apst (d a h : BitVec 5) : exec (.apst d a h) st = execApst d a h st := rfl
@[simp] theorem exec_apld (d a h : BitVec 5) : exec (.apld d a h) st = execApld d a h st := rfl
@[simp] theorem exec_rslotReserve (d a : BitVec 5) (t : BitVec 3) : exec (.rslotReserve d a t) st = execRslotReserve d a t st := rfl
@[simp] theorem exec_rslotRelease (d a : BitVec 5) : exec (.rslotRelease d a) st = execRslotRelease d a st := rfl
@[simp] theorem exec_layx (a : BitVec 5) (x : BitVec 3) : exec (.layx a x) st = execLayx a x st := rfl
@[simp] theorem exec_mxset (a : BitVec 5) (r : BitVec 11) : exec (.mxset a r) st = execMxset a r st := rfl
@[simp] theorem exec_mxget (a : BitVec 5) (r : BitVec 11) : exec (.mxget a r) st = execMxget a r st := rfl
@[simp] theorem exec_mxgo : exec (.mxgo) st = execMxgo st := rfl
@[simp] theorem exec_mxwait : exec (.mxwait) st = execMxwait st := rfl
@[simp] theorem exec_mxprog (a : BitVec 5) : exec (.mxprog a) st = execMxprog a st := rfl
@[simp] theorem exec_mxabort : exec (.mxabort) st = execMxabort st := rfl
@[simp] theorem exec_wld : exec (.wld) st = execWld st := rfl
@[simp] theorem exec_kset (k : BitVec 3) (a : BitVec 5) : exec (.kset k a) st = execKset k a st := rfl
@[simp] theorem exec_kgen (k : BitVec 3) (a : BitVec 5) (n : BitVec 10) : exec (.kgen k a n) st = execKgen k a n st := rfl
@[simp] theorem exec_vadd (t : BitVec 2) (d a b : BitVec 6) : exec (.vadd t d a b) st = execVadd t d a b st := rfl
@[simp] theorem exec_vsub (t : BitVec 2) (d a b : BitVec 6) : exec (.vsub t d a b) st = execVsub t d a b st := rfl
@[simp] theorem exec_vmul (t : BitVec 2) (d a b : BitVec 6) : exec (.vmul t d a b) st = execVmul t d a b st := rfl
@[simp] theorem exec_vfma (t : BitVec 2) (d a b : BitVec 6) : exec (.vfma t d a b) st = execVfma t d a b st := rfl
@[simp] theorem exec_vfms (t : BitVec 2) (d a b : BitVec 6) : exec (.vfms t d a b) st = execVfms t d a b st := rfl
@[simp] theorem exec_vmin (t : BitVec 2) (d a b : BitVec 6) : exec (.vmin t d a b) st = execVmin t d a b st := rfl
@[simp] theorem exec_vmax (t : BitVec 2) (d a b : BitVec 6) : exec (.vmax t d a b) st = execVmax t d a b st := rfl
@[simp] theorem exec_vcpys (t : BitVec 2) (d a b : BitVec 6) : exec (.vcpys t d a b) st = execVcpys t d a b st := rfl
@[simp] theorem exec_vadds (t : BitVec 2) (d a : BitVec 6) (s : BitVec 5) : exec (.vadds t d a s) st = execVadds t d a s st := rfl
@[simp] theorem exec_vmuls (t : BitVec 2) (d a : BitVec 6) (s : BitVec 5) : exec (.vmuls t d a s) st = execVmuls t d a s st := rfl
@[simp] theorem exec_vfmas (t : BitVec 2) (d a : BitVec 6) (s : BitVec 5) : exec (.vfmas t d a s) st = execVfmas t d a s st := rfl
@[simp] theorem exec_vmaxs (t : BitVec 2) (d a : BitVec 6) (s : BitVec 5) : exec (.vmaxs t d a s) st = execVmaxs t d a s st := rfl
@[simp] theorem exec_vmins (t : BitVec 2) (d a : BitVec 6) (s : BitVec 5) : exec (.vmins t d a s) st = execVmins t d a s st := rfl
@[simp] theorem exec_vsubs (t : BitVec 2) (d a : BitVec 6) (s : BitVec 5) : exec (.vsubs t d a s) st = execVsubs t d a s st := rfl
@[simp] theorem exec_viadd (t : BitVec 2) (d a b : BitVec 6) : exec (.viadd t d a b) st = execViadd t d a b st := rfl
@[simp] theorem exec_visub (t : BitVec 2) (d a b : BitVec 6) : exec (.visub t d a b) st = execVisub t d a b st := rfl
@[simp] theorem exec_vimul (t : BitVec 2) (d a b : BitVec 6) : exec (.vimul t d a b) st = execVimul t d a b st := rfl
@[simp] theorem exec_vimac (t : BitVec 2) (d a b : BitVec 6) : exec (.vimac t d a b) st = execVimac t d a b st := rfl
@[simp] theorem exec_vand (t : BitVec 2) (d a b : BitVec 6) : exec (.vand t d a b) st = execVand t d a b st := rfl
@[simp] theorem exec_vor (t : BitVec 2) (d a b : BitVec 6) : exec (.vor t d a b) st = execVor t d a b st := rfl
@[simp] theorem exec_vxor (t : BitVec 2) (d a b : BitVec 6) : exec (.vxor t d a b) st = execVxor t d a b st := rfl
@[simp] theorem exec_vshl (t : BitVec 2) (d a b : BitVec 6) : exec (.vshl t d a b) st = execVshl t d a b st := rfl
@[simp] theorem exec_vshr (t : BitVec 2) (d a b : BitVec 6) : exec (.vshr t d a b) st = execVshr t d a b st := rfl
@[simp] theorem exec_vsar (t : BitVec 2) (d a b : BitVec 6) : exec (.vsar t d a b) st = execVsar t d a b st := rfl
@[simp] theorem exec_vimin (t : BitVec 2) (d a b : BitVec 6) : exec (.vimin t d a b) st = execVimin t d a b st := rfl
@[simp] theorem exec_vimax (t : BitVec 2) (d a b : BitVec 6) : exec (.vimax t d a b) st = execVimax t d a b st := rfl
@[simp] theorem exec_vceq (t m : BitVec 2) (a b : BitVec 6) : exec (.vceq t m a b) st = execVceq t m a b st := rfl
@[simp] theorem exec_vcne (t m : BitVec 2) (a b : BitVec 6) : exec (.vcne t m a b) st = execVcne t m a b st := rfl
@[simp] theorem exec_vclt (t m : BitVec 2) (a b : BitVec 6) : exec (.vclt t m a b) st = execVclt t m a b st := rfl
@[simp] theorem exec_vcle (t m : BitVec 2) (a b : BitVec 6) : exec (.vcle t m a b) st = execVcle t m a b st := rfl
@[simp] theorem exec_vsel (t : BitVec 2) (d a b : BitVec 6) : exec (.vsel t d a b) st = execVsel t d a b st := rfl
@[simp] theorem exec_vmnot : exec (.vmnot) st = execVmnot st := rfl
@[simp] theorem exec_vmpop (t : BitVec 2) (s : BitVec 5) : exec (.vmpop t s) st = execVmpop t s st := rfl
@[simp] theorem exec_vexp2 (t : BitVec 2) (d a : BitVec 6) : exec (.vexp2 t d a) st = execVexp2 t d a st := rfl
@[simp] theorem exec_vlog2 (t : BitVec 2) (d a : BitVec 6) : exec (.vlog2 t d a) st = execVlog2 t d a st := rfl
@[simp] theorem exec_vrcpa (t : BitVec 2) (d a : BitVec 6) : exec (.vrcpa t d a) st = execVrcpa t d a st := rfl
@[simp] theorem exec_vrsqa (t : BitVec 2) (d a : BitVec 6) : exec (.vrsqa t d a) st = execVrsqa t d a st := rfl
@[simp] theorem exec_vrcpr (t : BitVec 2) (d a b : BitVec 6) : exec (.vrcpr t d a b) st = execVrcpr t d a b st := rfl
@[simp] theorem exec_vrsqr (t : BitVec 2) (d a b : BitVec 6) : exec (.vrsqr t d a b) st = execVrsqr t d a b st := rfl
@[simp] theorem exec_vflr (t : BitVec 2) (d a : BitVec 6) : exec (.vflr t d a) st = execVflr t d a st := rfl
@[simp] theorem exec_vrnd (t : BitVec 2) (d a : BitVec 6) : exec (.vrnd t d a) st = execVrnd t d a st := rfl
@[simp] theorem exec_vfrc (t : BitVec 2) (d a : BitVec 6) : exec (.vfrc t d a) st = execVfrc t d a st := rfl
@[simp] theorem exec_vrsum (t : BitVec 2) (d a : BitVec 6) : exec (.vrsum t d a) st = execVrsum t d a st := rfl
@[simp] theorem exec_vrmax (t : BitVec 2) (d a : BitVec 6) : exec (.vrmax t d a) st = execVrmax t d a st := rfl
@[simp] theorem exec_vrmin (t : BitVec 2) (d a : BitVec 6) : exec (.vrmin t d a) st = execVrmin t d a st := rfl
@[simp] theorem exec_vwelf (t : BitVec 2) (d a : BitVec 6) : exec (.vwelf t d a) st = execVwelf t d a st := rfl
@[simp] theorem exec_vwmrg (t : BitVec 2) (d a : BitVec 6) : exec (.vwmrg t d a) st = execVwmrg t d a st := rfl
@[simp] theorem exec_vshf (t : BitVec 2) (d a b : BitVec 6) : exec (.vshf t d a b) st = execVshf t d a b st := rfl
@[simp] theorem exec_vrot (t : BitVec 2) (d a : BitVec 6) (s : BitVec 5) : exec (.vrot t d a s) st = execVrot t d a s st := rfl
@[simp] theorem exec_vbcst (t : BitVec 2) (d a : BitVec 6) (s : BitVec 5) : exec (.vbcst t d a s) st = execVbcst t d a s st := rfl
@[simp] theorem exec_vcvt (t : BitVec 2) (d a : BitVec 6) (p : BitVec 2) (s : BitVec 3) : exec (.vcvt t d a p s) st = execVcvt t d a p s st := rfl
@[simp] theorem exec_vkenc (t : BitVec 2) (d a : BitVec 6) (h : BitVec 1) (f : BitVec 2) : exec (.vkenc t d a h f) st = execVkenc t d a h f st := rfl
@[simp] theorem exec_vkdec (t : BitVec 2) (d a : BitVec 6) (h : BitVec 1) (f : BitVec 2) : exec (.vkdec t d a h f) st = execVkdec t d a h f st := rfl
@[simp] theorem exec_vpldec (t : BitVec 2) (d : BitVec 6) (s : BitVec 5) (m : BitVec 1) : exec (.vpldec t d s m) st = execVpldec t d s m st := rfl
@[simp] theorem exec_vld (t : BitVec 2) (d : BitVec 6) (h s : BitVec 5) : exec (.vld t d h s) st = execVld t d h s st := rfl
@[simp] theorem exec_vst (t : BitVec 2) (d : BitVec 6) (h s : BitVec 5) : exec (.vst t d h s) st = execVst t d h s st := rfl
@[simp] theorem exec_vldc (t : BitVec 2) (d : BitVec 6) (h s : BitVec 5) : exec (.vldc t d h s) st = execVldc t d h s st := rfl
@[simp] theorem exec_vstc (t : BitVec 2) (d : BitVec 6) (h s : BitVec 5) : exec (.vstc t d h s) st = execVstc t d h s st := rfl
@[simp] theorem exec_aclr (t : BitVec 2) (d c : BitVec 6) : exec (.aclr t d c) st = execAclr t d c st := rfl
@[simp] theorem exec_afmt (t : BitVec 2) (y : BitVec 6) : exec (.afmt t y) st = execAfmt t y st := rfl
@[simp] theorem exec_amov (t : BitVec 2) (d a : BitVec 6) (s : BitVec 2) : exec (.amov t d a s) st = execAmov t d a s st := rfl
@[simp] theorem exec_axpose (t : BitVec 2) : exec (.axpose t) st = execAxpose t st := rfl
@[simp] theorem exec_await (t : BitVec 2) : exec (.await t) st = execAwait t st := rfl
@[simp] theorem exec_loadValueDelivery (core id : Nat) : exec (.loadValueDelivery core id) st = execLoadValueDelivery core id st := rfl
@[simp] theorem exec_loadPerformed (core id : Nat) : exec (.loadPerformed core id) st = execLoadPerformed core id st := rfl
@[simp] theorem exec_copyCompletion (core id : Nat) : exec (.copyCompletion core id) st = execCopyCompletion core id st := rfl
@[simp] theorem exec_cpyinVerify (core id : Nat) : exec (.cpyinVerify core id) st = execCpyinVerify core id st := rfl
@[simp] theorem exec_meOperationStart (core : Nat) : exec (.meOperationStart core) st = execMeOperationStart core st := rfl
@[simp] theorem exec_meRowStep (core : Nat) : exec (.meRowStep core) st = execMeRowStep core st := rfl
@[simp] theorem exec_weightBlockFill (core : Nat) : exec (.weightBlockFill core) st = execWeightBlockFill core st := rfl
@[simp] theorem exec_meBroadcastRendezvous (core : Nat) : exec (.meBroadcastRendezvous core) st = execMeBroadcastRendezvous core st := rfl
@[simp] theorem exec_mintAnswer (core tag : Nat) : exec (.mintAnswer core tag) st = execMintAnswer core tag st := rfl
@[simp] theorem exec_revocationSweep (tenant : Nat) : exec (.revocationSweep tenant) st = execRevocationSweep tenant st := rfl
@[simp] theorem exec_rotationPageConvert (slice : Nat) : exec (.rotationPageConvert slice) st = execRotationPageConvert slice st := rfl
@[simp] theorem exec_bankRowRekey (core : Nat) : exec (.bankRowRekey core) st = execBankRowRekey core st := rfl
@[simp] theorem exec_zeroWalkRow (core : Nat) : exec (.zeroWalkRow core) st = execZeroWalkRow core st := rfl
@[simp] theorem exec_hbmScrubPage (page : Nat) : exec (.hbmScrubPage page) st = execHbmScrubPage page st := rfl
@[simp] theorem exec_persistentCommit (idx : Nat) (good : Bool) : exec (.persistentCommit idx good) st = execPersistentCommit idx good st := rfl
@[simp] theorem exec_invalidation (core : Nat) : exec (.invalidation core) st = execInvalidation core st := rfl
@[simp] theorem exec_secondStageFaultService (id : Nat) (resolved : Bool) (writes : List (Nat × Word)) (owners : List (Nat × Nat)) : exec (.secondStageFaultService id resolved writes owners) st = execSecondStageFaultService id resolved writes owners st := rfl
@[simp] theorem exec_qtailWrite (tdi q value : Nat) : exec (.qtailWrite tdi q value) st = execQtailWrite tdi q value st := rfl
@[simp] theorem exec_qstateOvfClear (tdi q : Nat) : exec (.qstateOvfClear tdi q) st = execQstateOvfClear tdi q st := rfl
@[simp] theorem exec_qctlReset (tdi q : Nat) : exec (.qctlReset tdi q) st = execQctlReset tdi q st := rfl
@[simp] theorem exec_queueResetComplete (tdi q : Nat) : exec (.queueResetComplete tdi q) st = execQueueResetComplete tdi q st := rfl
@[simp] theorem exec_fresRetry (tdi id : Nat) : exec (.fresRetry tdi id) st = execFresRetry tdi id st := rfl
@[simp] theorem exec_fresEndTask (tdi id : Nat) : exec (.fresEndTask tdi id) st = execFresEndTask tdi id st := rfl
@[simp] theorem exec_registerWrite (tdi off value : Nat) : exec (.registerWrite tdi off value) st = execRegisterWrite tdi off value st := rfl
@[simp] theorem exec_candidateCheck (tenant q : Nat) : exec (.candidateCheck tenant q) st = execCandidateCheck tenant q st := rfl
@[simp] theorem exec_waitListEvaluation (tenant q : Nat) : exec (.waitListEvaluation tenant q) st = execWaitListEvaluation tenant q st := rfl
@[simp] theorem exec_rangeMigration (tenant q : Nat) (frames : List Nat) (writes : List (Nat × Word)) (owners : List (Nat × Nat)) : exec (.rangeMigration tenant q frames writes owners) st = execRangeMigration tenant q frames writes owners st := rfl
@[simp] theorem exec_startBarrierArrival (tenant q idx rank gen : Nat) : exec (.startBarrierArrival tenant q idx rank gen) st = execStartBarrierArrival tenant q idx rank gen st := rfl
@[simp] theorem exec_replicaCompletion (tenant q idx rank status cause task : Nat) : exec (.replicaCompletion tenant q idx rank status cause task) st = execReplicaCompletion tenant q idx rank status cause task st := rfl
@[simp] theorem exec_coreClaim (tenant q idx : Nat) : exec (.coreClaim tenant q idx) st = execCoreClaim tenant q idx st := rfl
@[simp] theorem exec_taskDispatch (part : Nat) : exec (.taskDispatch part) st = execTaskDispatch part st := rfl
@[simp] theorem exec_taskEnd (core : Nat) : exec (.taskEnd core) st = execTaskEnd core st := rfl
@[simp] theorem exec_tokenBorrow (part tenant : Nat) : exec (.tokenBorrow part tenant) st = execTokenBorrow part tenant st := rfl
@[simp] theorem exec_arbitrationPeriod (part : Nat) : exec (.arbitrationPeriod part) st = execArbitrationPeriod part st := rfl
@[simp] theorem exec_powerCapTick (part watts : Nat) : exec (.powerCapTick part watts) st = execPowerCapTick part watts st := rfl
@[simp] theorem exec_moduleLimiterTick (watts10us watts1s : Nat) : exec (.moduleLimiterTick watts10us watts1s) st = execModuleLimiterTick watts10us watts1s st := rfl
@[simp] theorem exec_thermalLevelTick (die degrees : Nat) : exec (.thermalLevelTick die degrees) st = execThermalLevelTick die degrees st := rfl
@[simp] theorem exec_thermalTrip : exec (.thermalTrip) st = execThermalTrip st := rfl
@[simp] theorem exec_supplyDroop (die : Nat) : exec (.supplyDroop die) st = execSupplyDroop die st := rfl
@[simp] theorem exec_deadlockWatchdog (gang : Nat) : exec (.deadlockWatchdog gang) st = execDeadlockWatchdog gang st := rfl
@[simp] theorem exec_quiescentPointWatchdog (core : Nat) : exec (.quiescentPointWatchdog core) st = execQuiescentPointWatchdog core st := rfl
@[simp] theorem exec_drainWatchdog (ctx : Nat) : exec (.drainWatchdog ctx) st = execDrainWatchdog ctx st := rfl
@[simp] theorem exec_podStartTimeout (tenant q idx : Nat) : exec (.podStartTimeout tenant q idx) st = execPodStartTimeout tenant q idx st := rfl
@[simp] theorem exec_sliceEndPreemption (ctx : Nat) : exec (.sliceEndPreemption ctx) st = execSliceEndPreemption ctx st := rfl
@[simp] theorem exec_drainComplete (ctx : Nat) : exec (.drainComplete ctx) st = execDrainComplete ctx st := rfl
@[simp] theorem exec_hardStop (core : Nat) (persist : Bool) (handles : List (BitVec 256)) : exec (.hardStop core persist handles) st = execHardStop core persist handles st := rfl
@[simp] theorem exec_migration (part : Nat) (handles : List (BitVec 256)) : exec (.migration part handles) st = execMigration part handles st := rfl
@[simp] theorem exec_sliceMove (part slice target : Nat) : exec (.sliceMove part slice target) st = execSliceMove part slice target st := rfl
@[simp] theorem exec_legacySliceCopy (part slice target : Nat) : exec (.legacySliceCopy part slice target) st = execLegacySliceCopy part slice target st := rfl
@[simp] theorem exec_dirtyBitmapRead (part word : Nat) : exec (.dirtyBitmapRead part word) st = execDirtyBitmapRead part word st := rfl
@[simp] theorem exec_queueConfigure (cfg : QueueSetup) : exec (.queueConfigure cfg) st = execQueueConfigure cfg st := rfl
@[simp] theorem exec_setBudget (part tenant tokens : Nat) : exec (.setBudget part tenant tokens) st = execSetBudget part tenant tokens st := rfl
@[simp] theorem exec_setPowerCap (caps : List (Nat × Nat)) : exec (.setPowerCap caps) st = execSetPowerCap caps st := rfl
@[simp] theorem exec_setSlotQuota (quotas : List (Nat × Nat)) : exec (.setSlotQuota quotas) st = execSetSlotQuota quotas st := rfl
@[simp] theorem exec_setCisternShare (part stack units : Nat) : exec (.setCisternShare part stack units) st = execSetCisternShare part stack units st := rfl
@[simp] theorem exec_bind (w : Requester) (tenant : Nat) (pol : TenantPolicy) : exec (.bind w tenant pol) st = execBind w tenant pol st := rfl
@[simp] theorem exec_policy (w : Requester) (tenant : Nat) (pol : TenantPolicy) : exec (.policy w tenant pol) st = execPolicy w tenant pol st := rfl
@[simp] theorem exec_unbind (r : Request Nat) : exec (.unbind r) st = execUnbind r st := rfl
@[simp] theorem exec_mint (r : Request Nat) (ctx base len rights fmt flags : Nat) : exec (.mint r ctx base len rights fmt flags) st = execMint r ctx base len rights fmt flags st := rfl
@[simp] theorem exec_revoke (r : Request Nat) (serial : Nat) (all : Bool) : exec (.revoke r serial all) st = execRevoke r serial all st := rfl
@[simp] theorem exec_rotate (r : Request Nat) : exec (.rotate r) st = execRotate r st := rfl
@[simp] theorem exec_streamOpen (r : Request Nat) (stream : Nat) (outward : Bool) (key : BitVec 256) (last : Nat) : exec (.streamOpen r stream outward key last) st = execStreamOpen r stream outward key last st := rfl
@[simp] theorem exec_streamClose (r : Request Nat) (stream : Nat) : exec (.streamClose r stream) st = execStreamClose r stream st := rfl
@[simp] theorem exec_counterBind (r : Request Nat) (ctx task : Nat) : exec (.counterBind r ctx task) st = execCounterBind r ctx task st := rfl
@[simp] theorem exec_counterRead (r : Request Nat) : exec (.counterRead r) st = execCounterRead r st := rfl
@[simp] theorem exec_restore (r : Request (List (BitVec 256))) : exec (.restore r) st = execRestore r st := rfl
@[simp] theorem exec_fuseAdvance (r : Request Nat) (version : Nat) (signed cut : Bool) : exec (.fuseAdvance r version signed cut) st = execFuseAdvance r version signed cut st := rfl
@[simp] theorem exec_lifeRead : exec (.lifeRead) st = execLifeRead st := rfl
@[simp] theorem exec_lifetimeSave : exec (.lifetimeSave) st = execLifetimeSave st := rfl
@[simp] theorem exec_patrolScrub (line errs : Nat) : exec (.patrolScrub line errs) st = execPatrolScrub line errs st := rfl
@[simp] theorem exec_coldReset : exec (.coldReset) st = execColdReset st := rfl
@[simp] theorem exec_warmReset : exec (.warmReset) st = execWarmReset st := rfl
@[simp] theorem exec_powerLoss : exec (.powerLoss) st = execPowerLoss st := rfl
@[simp] theorem exec_flr (tdi : Nat) : exec (.flr tdi) st = execFlr tdi st := rfl
@[simp] theorem exec_tdiError (tdi : Nat) : exec (.tdiError tdi) st = execTdiError tdi st := rfl
@[simp] theorem exec_frameReceive (port : Nat) (frame : Frame) (tag : List Byte) (core id : Nat) (result : Bool) : exec (.frameReceive port frame tag core id result) st = execFrameReceive port frame tag core id result st := rfl
@[simp] theorem exec_linkOpen (port : Nat) (authentic : Bool) (peer : BitVec 384) (peerPort : Nat) : exec (.linkOpen port authentic peer peerPort) st = execLinkOpen port authentic peer peerPort st := rfl
@[simp] theorem exec_linkKeyRetire (part : Nat) : exec (.linkKeyRetire part) st = execLinkKeyRetire part st := rfl
@[simp] theorem exec_collectiveRendezvous (core id : Nat) (members : List (Nat × CollWords)) (reachable : Bool) : exec (.collectiveRendezvous core id members reachable) st = execCollectiveRendezvous core id members reachable st := rfl
@[simp] theorem exec_planeLanding (core id tile : Nat) (peers : List (Nat × List Byte)) : exec (.planeLanding core id tile peers) st = execPlaneLanding core id tile peers st := rfl
@[simp] theorem exec_collectiveCompletion (core id status : Nat) (peers : List (Nat × List Byte)) : exec (.collectiveCompletion core id status peers) st = execCollectiveCompletion core id status peers st := rfl
@[simp] theorem exec_apertureRoundComplete (core slot word : Nat) (others : PeerRound) : exec (.apertureRoundComplete core slot word others) st = execApertureRoundComplete core slot word others st := rfl
@[simp] theorem exec_storePerformed (core id : Nat) : exec (.storePerformed core id) st = execStorePerformed core id st := rfl
@[simp] theorem exec_copyTranslationFault (core id elem : Nat) (coll : Bool) : exec (.copyTranslationFault core id elem coll) st = execCopyTranslationFault core id elem coll st := rfl
@[simp] theorem exec_hostAccess (tdi addr len : Nat) (write : Bool) (data : List Byte) : exec (.hostAccess tdi addr len write data) st = execHostAccess tdi addr len write data st := rfl
@[simp] theorem exec_partitionCreate (cfg : PartSetup) : exec (.partitionCreate cfg) st = execPartitionCreate cfg st := rfl
@[simp] theorem exec_tdispMessage (tdi target : Nat) : exec (.tdispMessage tdi target) st = execTdispMessage tdi target st := rfl
@[simp] theorem exec_spdmMessage (m : Measure) : exec (.spdmMessage m) st = execSpdmMessage m st := rfl
@[simp] theorem exec_contextResume (ctx : Nat) : exec (.contextResume ctx) st = execContextResume ctx st := rfl
@[simp] theorem exec_sliceMovePage (part slice : Nat) : exec (.sliceMovePage part slice) st = execSliceMovePage part slice st := rfl
@[simp] theorem exec_linkKeyUpdate (part port : Nat) : exec (.linkKeyUpdate part port) st = execLinkKeyUpdate part port st := rfl
@[simp] theorem exec_junctionTemperatureSample (degrees : Nat) : exec (.junctionTemperatureSample degrees) st = execJunctionTemperatureSample degrees st := rfl
end Arms

end Sys2Proof.Machine
end

