-- ==== Sys2Proof/Laws/State.lean ====
section
/-!
SUPPORT. Field lemmas of the state: what each basic update leaves alone, and what it puts where. Every other update of a
core or a sequencer is brought to `setCore` and `setSeq` by its own equation.
-/
namespace Sys2Proof.Machine

section Cores
variable (s : State) (n : Nat) (c : Core)
@[simp] theorem State.setCore_parked : (s.setCore n c).parked = s.parked := rfl
@[simp] theorem State.setCore_gangs : (s.setCore n c).gangs = s.gangs := rfl
@[simp] theorem State.setCore_launches : (s.setCore n c).launches = s.launches := rfl
@[simp] theorem State.setCore_queues : (s.setCore n c).queues = s.queues := rfl
@[simp] theorem State.setCore_tdis : (s.setCore n c).tdis = s.tdis := rfl
@[simp] theorem State.setCore_faults : (s.setCore n c).faults = s.faults := rfl
@[simp] theorem State.setCore_nextFault : (s.setCore n c).nextFault = s.nextFault := rfl
@[simp] theorem State.setCore_ctxs : (s.setCore n c).ctxs = s.ctxs := rfl
@[simp] theorem State.setCore_parts : (s.setCore n c).parts = s.parts := rfl
@[simp] theorem State.setCore_clusterTenant : (s.setCore n c).clusterTenant = s.clusterTenant := rfl
@[simp] theorem State.setCore_dies : (s.setCore n c).dies = s.dies := rfl
@[simp] theorem State.setCore_tenants : (s.setCore n c).tenants = s.tenants := rfl
@[simp] theorem State.setCore_sweeps : (s.setCore n c).sweeps = s.sweeps := rfl
@[simp] theorem State.setCore_streams : (s.setCore n c).streams = s.streams := rfl
@[simp] theorem State.setCore_counters : (s.setCore n c).counters = s.counters := rfl
@[simp] theorem State.setCore_fuses : (s.setCore n c).fuses = s.fuses := rfl
@[simp] theorem State.setCore_commits : (s.setCore n c).commits = s.commits := rfl
@[simp] theorem State.setCore_hbm : (s.setCore n c).hbm = s.hbm := rfl
@[simp] theorem State.setCore_host : (s.setCore n c).host = s.host := rfl
@[simp] theorem State.setCore_file : (s.setCore n c).file = s.file := rfl
@[simp] theorem State.setCore_peer : (s.setCore n c).peer = s.peer := rfl
@[simp] theorem State.setCore_pages : (s.setCore n c).pages = s.pages := rfl
@[simp] theorem State.setCore_poison : (s.setCore n c).poison = s.poison := rfl
@[simp] theorem State.setCore_badLines : (s.setCore n c).badLines = s.badLines := rfl
@[simp] theorem State.setCore_badRows : (s.setCore n c).badRows = s.badRows := rfl
@[simp] theorem State.setCore_lostRows : (s.setCore n c).lostRows = s.lostRows := rfl
@[simp] theorem State.setCore_links : (s.setCore n c).links = s.links := rfl
@[simp] theorem State.setCore_aperture : (s.setCore n c).aperture = s.aperture := rfl
@[simp] theorem State.setCore_lifetime : (s.setCore n c).lifetime = s.lifetime := rfl
@[simp] theorem State.setCore_saved0 : (s.setCore n c).saved0 = s.saved0 := rfl
@[simp] theorem State.setCore_saved1 : (s.setCore n c).saved1 = s.saved1 := rfl
@[simp] theorem State.setCore_dieLinks : (s.setCore n c).dieLinks = s.dieLinks := rfl
@[simp] theorem State.setCore_excursion : (s.setCore n c).excursion = s.excursion := rfl
@[simp] theorem State.setCore_cycle : (s.setCore n c).cycle = s.cycle := rfl
@[simp] theorem State.setCore_powered : (s.setCore n c).powered = s.powered := rfl
@[simp] theorem State.setCore_failedStep : (s.setCore n c).failedStep = s.failedStep := rfl
@[simp] theorem State.setCore_sessionEpoch : (s.setCore n c).sessionEpoch = s.sessionEpoch := rfl
@[simp] theorem State.setCore_nextGang : (s.setCore n c).nextGang = s.nextGang := rfl
@[simp] theorem State.setCore_replies : (s.setCore n c).replies = s.replies := rfl
@[simp] theorem State.setCore_messages : (s.setCore n c).messages = s.messages := rfl
@[simp] theorem State.setCore_curCore : (s.setCore n c).curCore = s.curCore := rfl
@[simp] theorem State.setCore_curSq : (s.setCore n c).curSq = s.curSq := rfl
@[simp] theorem State.setCore_quotas : (s.setCore n c).quotas = s.quotas := rfl
@[simp] theorem State.setCore_poolDrawn : (s.setCore n c).poolDrawn = s.poolDrawn := rfl
@[simp] theorem State.setCore_planePtr : (s.setCore n c).planePtr = s.planePtr := rfl
@[simp] theorem State.setCore_slotTurn : (s.setCore n c).slotTurn = s.slotTurn := rfl
@[simp] theorem State.setCore_collCounts : (s.setCore n c).collCounts = s.collCounts := rfl
@[simp] theorem State.setCore_collGone : (s.setCore n c).collGone = s.collGone := rfl
@[simp] theorem State.setCore_sessionCounts : (s.setCore n c).sessionCounts = s.sessionCounts := rfl
@[simp] theorem State.setCore_sessions : (s.setCore n c).sessions = s.sessions := rfl
@[simp] theorem State.setCore_firmware : (s.setCore n c).firmware = s.firmware := rfl
@[simp] theorem State.setCore_persistRoot : (s.setCore n c).persistRoot = s.persistRoot := rfl
@[simp] theorem State.setCore_identity : (s.setCore n c).identity = s.identity := rfl
@[simp] theorem State.setCore_certificates : (s.setCore n c).certificates = s.certificates := rfl
@[simp] theorem State.setCore_past : (s.setCore n c).past = s.past := rfl
@[simp] theorem State.setCore_writes : (s.setCore n c).writes = s.writes := rfl
@[simp] theorem State.setCore_actor : (s.setCore n c).actor = s.actor := rfl
@[simp] theorem State.setCore_agenda : (s.setCore n c).agenda = s.agenda := rfl
@[simp] theorem State.setCore_slotDraws : (s.setCore n c).slotDraws = s.slotDraws := rfl
@[simp] theorem State.setCore_waiting : (s.setCore n c).waiting = s.waiting := rfl
@[simp] theorem State.setCore_retired : (s.setCore n c).retired = s.retired := rfl
@[simp] theorem State.setCore_peersDown : (s.setCore n c).peersDown = s.peersDown := rfl
@[simp] theorem State.setCore_draws : (s.setCore n c).draws = s.draws := rfl
end Cores

section Seqs
variable (c : Core) (q : Sq) (x : SeqState)
@[simp] theorem Core.setSeq_handles : (c.setSeq q x).handles = c.handles := rfl
@[simp] theorem Core.setSeq_rows : (c.setSeq q x).rows = c.rows := rfl
@[simp] theorem Core.setSeq_rowTaint : (c.setSeq q x).rowTaint = c.rowTaint := rfl
@[simp] theorem Core.setSeq_tileType : (c.setSeq q x).tileType = c.tileType := rfl
@[simp] theorem Core.setSeq_vm : (c.setSeq q x).vm = c.vm := rfl
@[simp] theorem Core.setSeq_kmask : (c.setSeq q x).kmask = c.kmask := rfl
@[simp] theorem Core.setSeq_fpmode : (c.setSeq q x).fpmode = c.fpmode := rfl
@[simp] theorem Core.setSeq_fpflags : (c.setSeq q x).fpflags = c.fpflags := rfl
@[simp] theorem Core.setSeq_layouts : (c.setSeq q x).layouts = c.layouts := rfl
@[simp] theorem Core.setSeq_shapes : (c.setSeq q x).shapes = c.shapes := rfl
@[simp] theorem Core.setSeq_rills : (c.setSeq q x).rills = c.rills := rfl
@[simp] theorem Core.setSeq_tokens : (c.setSeq q x).tokens = c.tokens := rfl
@[simp] theorem Core.setSeq_ccnt : (c.setSeq q x).ccnt = c.ccnt := rfl
@[simp] theorem Core.setSeq_scratch : (c.setSeq q x).scratch = c.scratch := rfl
@[simp] theorem Core.setSeq_watermark : (c.setSeq q x).watermark = c.watermark := rfl
@[simp] theorem Core.setSeq_scrubbed : (c.setSeq q x).scrubbed = c.scrubbed := rfl
@[simp] theorem Core.setSeq_bankMark : (c.setSeq q x).bankMark = c.bankMark := rfl
@[simp] theorem Core.setSeq_me : (c.setSeq q x).me = c.me := rfl
@[simp] theorem Core.setSeq_copies : (c.setSeq q x).copies = c.copies := rfl
@[simp] theorem Core.setSeq_loads : (c.setSeq q x).loads = c.loads := rfl
@[simp] theorem Core.setSeq_stores : (c.setSeq q x).stores = c.stores := rfl
@[simp] theorem Core.setSeq_tags : (c.setSeq q x).tags = c.tags := rfl
@[simp] theorem Core.setSeq_alignLd : (c.setSeq q x).alignLd = c.alignLd := rfl
@[simp] theorem Core.setSeq_alignSt : (c.setSeq q x).alignSt = c.alignSt := rfl
@[simp] theorem Core.setSeq_mints : (c.setSeq q x).mints = c.mints := rfl
@[simp] theorem Core.setSeq_colls : (c.setSeq q x).colls = c.colls := rfl
@[simp] theorem Core.setSeq_invals : (c.setSeq q x).invals = c.invals := rfl
@[simp] theorem Core.setSeq_task : (c.setSeq q x).task = c.task := rfl
@[simp] theorem Core.setSeq_lastTenant : (c.setSeq q x).lastTenant = c.lastTenant := rfl
@[simp] theorem Core.setSeq_claim : (c.setSeq q x).claim = c.claim := rfl
@[simp] theorem Core.setSeq_nextId : (c.setSeq q x).nextId = c.nextId := rfl
@[simp] theorem Core.setSeq_lastActive : (c.setSeq q x).lastActive = c.lastActive := rfl
@[simp] theorem Core.setSeq_was : (c.setSeq q x).was = c.was := rfl
@[simp] theorem Core.setSeq_moved : (c.setSeq q x).moved = c.moved := rfl
@[simp] theorem Core.setSeq_floor : (c.setSeq q x).floor = c.floor := rfl
@[simp] theorem Core.setSeq_seen : (c.setSeq q x).seen = c.seen := rfl
@[simp] theorem Core.setSeq_base : (c.setSeq q x).base = c.base := rfl
@[simp] theorem Core.setSeq_freed : (c.setSeq q x).freed = c.freed := rfl
@[simp] theorem Core.setSeq_handed : (c.setSeq q x).handed = c.handed := rfl
@[simp] theorem Core.setSeq_mapped : (c.setSeq q x).mapped = c.mapped := rfl
@[simp] theorem Core.setSeq_fetched : (c.setSeq q x).fetched = c.fetched := rfl
@[simp] theorem Core.setSeq_spilt : (c.setSeq q x).spilt = c.spilt := rfl
@[simp] theorem Core.setSeq_fenced : (c.setSeq q x).fenced = c.fenced := rfl
@[simp] theorem Core.setSeq_given : (c.setSeq q x).given = c.given := rfl
end Seqs

section Draws
variable (s : State)
@[simp] theorem State.draw_cores : s.draw.cores = s.cores := rfl
@[simp] theorem State.draw_parked : s.draw.parked = s.parked := rfl
@[simp] theorem State.draw_gangs : s.draw.gangs = s.gangs := rfl
@[simp] theorem State.draw_launches : s.draw.launches = s.launches := rfl
@[simp] theorem State.draw_queues : s.draw.queues = s.queues := rfl
@[simp] theorem State.draw_tdis : s.draw.tdis = s.tdis := rfl
@[simp] theorem State.draw_faults : s.draw.faults = s.faults := rfl
@[simp] theorem State.draw_nextFault : s.draw.nextFault = s.nextFault := rfl
@[simp] theorem State.draw_ctxs : s.draw.ctxs = s.ctxs := rfl
@[simp] theorem State.draw_parts : s.draw.parts = s.parts := rfl
@[simp] theorem State.draw_clusterTenant : s.draw.clusterTenant = s.clusterTenant := rfl
@[simp] theorem State.draw_dies : s.draw.dies = s.dies := rfl
@[simp] theorem State.draw_tenants : s.draw.tenants = s.tenants := rfl
@[simp] theorem State.draw_sweeps : s.draw.sweeps = s.sweeps := rfl
@[simp] theorem State.draw_streams : s.draw.streams = s.streams := rfl
@[simp] theorem State.draw_counters : s.draw.counters = s.counters := rfl
@[simp] theorem State.draw_fuses : s.draw.fuses = s.fuses := rfl
@[simp] theorem State.draw_commits : s.draw.commits = s.commits := rfl
@[simp] theorem State.draw_hbm : s.draw.hbm = s.hbm := rfl
@[simp] theorem State.draw_host : s.draw.host = s.host := rfl
@[simp] theorem State.draw_file : s.draw.file = s.file := rfl
@[simp] theorem State.draw_peer : s.draw.peer = s.peer := rfl
@[simp] theorem State.draw_pages : s.draw.pages = s.pages := rfl
@[simp] theorem State.draw_poison : s.draw.poison = s.poison := rfl
@[simp] theorem State.draw_badLines : s.draw.badLines = s.badLines := rfl
@[simp] theorem State.draw_badRows : s.draw.badRows = s.badRows := rfl
@[simp] theorem State.draw_lostRows : s.draw.lostRows = s.lostRows := rfl
@[simp] theorem State.draw_links : s.draw.links = s.links := rfl
@[simp] theorem State.draw_aperture : s.draw.aperture = s.aperture := rfl
@[simp] theorem State.draw_lifetime : s.draw.lifetime = s.lifetime := rfl
@[simp] theorem State.draw_saved0 : s.draw.saved0 = s.saved0 := rfl
@[simp] theorem State.draw_saved1 : s.draw.saved1 = s.saved1 := rfl
@[simp] theorem State.draw_dieLinks : s.draw.dieLinks = s.dieLinks := rfl
@[simp] theorem State.draw_excursion : s.draw.excursion = s.excursion := rfl
@[simp] theorem State.draw_cycle : s.draw.cycle = s.cycle := rfl
@[simp] theorem State.draw_powered : s.draw.powered = s.powered := rfl
@[simp] theorem State.draw_failedStep : s.draw.failedStep = s.failedStep := rfl
@[simp] theorem State.draw_sessionEpoch : s.draw.sessionEpoch = s.sessionEpoch := rfl
@[simp] theorem State.draw_nextGang : s.draw.nextGang = s.nextGang := rfl
@[simp] theorem State.draw_replies : s.draw.replies = s.replies := rfl
@[simp] theorem State.draw_messages : s.draw.messages = s.messages := rfl
@[simp] theorem State.draw_curCore : s.draw.curCore = s.curCore := rfl
@[simp] theorem State.draw_curSq : s.draw.curSq = s.curSq := rfl
@[simp] theorem State.draw_quotas : s.draw.quotas = s.quotas := rfl
@[simp] theorem State.draw_poolDrawn : s.draw.poolDrawn = s.poolDrawn := rfl
@[simp] theorem State.draw_planePtr : s.draw.planePtr = s.planePtr := rfl
@[simp] theorem State.draw_slotTurn : s.draw.slotTurn = s.slotTurn := rfl
@[simp] theorem State.draw_collCounts : s.draw.collCounts = s.collCounts := rfl
@[simp] theorem State.draw_collGone : s.draw.collGone = s.collGone := rfl
@[simp] theorem State.draw_sessionCounts : s.draw.sessionCounts = s.sessionCounts := rfl
@[simp] theorem State.draw_sessions : s.draw.sessions = s.sessions := rfl
@[simp] theorem State.draw_firmware : s.draw.firmware = s.firmware := rfl
@[simp] theorem State.draw_persistRoot : s.draw.persistRoot = s.persistRoot := rfl
@[simp] theorem State.draw_identity : s.draw.identity = s.identity := rfl
@[simp] theorem State.draw_certificates : s.draw.certificates = s.certificates := rfl
@[simp] theorem State.draw_past : s.draw.past = s.past := rfl
@[simp] theorem State.draw_writes : s.draw.writes = s.writes := rfl
@[simp] theorem State.draw_actor : s.draw.actor = s.actor := rfl
@[simp] theorem State.draw_agenda : s.draw.agenda = s.agenda := rfl
@[simp] theorem State.draw_slotDraws : s.draw.slotDraws = s.slotDraws := rfl
@[simp] theorem State.draw_waiting : s.draw.waiting = s.waiting := rfl
@[simp] theorem State.draw_retired : s.draw.retired = s.retired := rfl
@[simp] theorem State.draw_peersDown : s.draw.peersDown = s.peersDown := rfl
@[simp] theorem State.draw_draws : s.draw.draws = s.draws + 1 := rfl
end Draws

section Halts
variable (x : SeqState) (e : Cause)
@[simp] theorem SeqState.halt_regs : (x.halt e).regs = x.regs := rfl
@[simp] theorem SeqState.halt_taint : (x.halt e).taint = x.taint := rfl
@[simp] theorem SeqState.halt_pending : (x.halt e).pending = x.pending := rfl
@[simp] theorem SeqState.halt_preds : (x.halt e).preds = x.preds := rfl
@[simp] theorem SeqState.halt_ctlTaint : (x.halt e).ctlTaint = x.ctlTaint := rfl
@[simp] theorem SeqState.halt_pc : (x.halt e).pc = x.pc := rfl
@[simp] theorem SeqState.halt_late : (x.halt e).late = x.late := rfl
@[simp] theorem SeqState.halt_hdr : (x.halt e).hdr = x.hdr := rfl
@[simp] theorem SeqState.halt_length : (x.halt e).length = x.length := rfl
@[simp] theorem SeqState.halt_passes : (x.halt e).passes = x.passes := rfl
@[simp] theorem SeqState.halt_inBody : (x.halt e).inBody = x.inBody := rfl
@[simp] theorem SeqState.halt_granules : (x.halt e).granules = x.granules := rfl
@[simp] theorem SeqState.halt_rep : (x.halt e).rep = x.rep := rfl
@[simp] theorem SeqState.halt_pb : (x.halt e).pb = x.pb := rfl
@[simp] theorem SeqState.halt_rq : (x.halt e).rq = x.rq := rfl
@[simp] theorem SeqState.halt_abnormal : (x.halt e).abnormal = x.abnormal := rfl
@[simp] theorem SeqState.halt_firstSeq : (x.halt e).firstSeq = x.firstSeq := rfl
@[simp] theorem SeqState.halt_firstStatus : (x.halt e).firstStatus = x.firstStatus := rfl
@[simp] theorem SeqState.halt_issued : (x.halt e).issued = x.issued := rfl
@[simp] theorem SeqState.halt_reread : (x.halt e).reread = x.reread := rfl
@[simp] theorem SeqState.halt_loaded : (x.halt e).loaded = x.loaded := rfl
@[simp] theorem SeqState.halt_waitOn : (x.halt e).waitOn = none := rfl
@[simp] theorem SeqState.halt_mark : (x.halt e).mark = none := rfl
@[simp] theorem SeqState.halt_cause : (x.halt e).cause = e := rfl
@[simp] theorem SeqState.halt_run : (x.halt e).run = .halted := rfl
end Halts

section Resumes
variable (x : SeqState)
@[simp] theorem SeqState.resume_regs : x.resume.regs = x.regs := rfl
@[simp] theorem SeqState.resume_taint : x.resume.taint = x.taint := rfl
@[simp] theorem SeqState.resume_pending : x.resume.pending = x.pending := rfl
@[simp] theorem SeqState.resume_preds : x.resume.preds = x.preds := rfl
@[simp] theorem SeqState.resume_ctlTaint : x.resume.ctlTaint = x.ctlTaint := rfl
@[simp] theorem SeqState.resume_pc : x.resume.pc = x.pc := rfl
@[simp] theorem SeqState.resume_cause : x.resume.cause = x.cause := rfl
@[simp] theorem SeqState.resume_late : x.resume.late = x.late := rfl
@[simp] theorem SeqState.resume_hdr : x.resume.hdr = x.hdr := rfl
@[simp] theorem SeqState.resume_length : x.resume.length = x.length := rfl
@[simp] theorem SeqState.resume_passes : x.resume.passes = x.passes := rfl
@[simp] theorem SeqState.resume_inBody : x.resume.inBody = x.inBody := rfl
@[simp] theorem SeqState.resume_granules : x.resume.granules = x.granules := rfl
@[simp] theorem SeqState.resume_rep : x.resume.rep = x.rep := rfl
@[simp] theorem SeqState.resume_pb : x.resume.pb = x.pb := rfl
@[simp] theorem SeqState.resume_rq : x.resume.rq = x.rq := rfl
@[simp] theorem SeqState.resume_abnormal : x.resume.abnormal = x.abnormal := rfl
@[simp] theorem SeqState.resume_firstSeq : x.resume.firstSeq = x.firstSeq := rfl
@[simp] theorem SeqState.resume_firstStatus : x.resume.firstStatus = x.firstStatus := rfl
@[simp] theorem SeqState.resume_issued : x.resume.issued = x.issued := rfl
@[simp] theorem SeqState.resume_reread : x.resume.reread = x.reread := rfl
@[simp] theorem SeqState.resume_loaded : x.resume.loaded = x.loaded := rfl
@[simp] theorem SeqState.resume_waitOn : x.resume.waitOn = none := rfl
@[simp] theorem SeqState.resume_mark : x.resume.mark = none := rfl
@[simp] theorem SeqState.resume_run : x.resume.run = .running := rfl
end Resumes

section Quads
variable {α : Type} (q : Quad α) (i : Sq) (x y : α)
@[simp] theorem Quad.get_set_self : (q.set i x).get i = x := by cases i <;> rfl
theorem Quad.get_set_other {i j : Sq} (h : j ≠ i) : (q.set i x).get j = q.get j := by cases i <;> cases j <;> first | rfl | exact absurd rfl h
@[simp] theorem Quad.set_set : (q.set i x).set i y = q.set i y := by cases i <;> rfl
@[simp] theorem Quad.get_all : (Quad.all x).get i = x := by cases i <;> rfl
@[simp] theorem Quad.set_get : q.set i (q.get i) = q := by cases i <;> rfl
end Quads

@[simp] theorem Core.setSeq_get (c : Core) (q : Sq) (x : SeqState) : (c.setSeq q x).seqs.get q = x := by simp [Core.setSeq]
theorem Core.setSeq_get_other (c : Core) {q r : Sq} (x : SeqState) (h : r ≠ q) : (c.setSeq q x).seqs.get r = c.seqs.get r := by
  simp [Core.setSeq, Quad.get_set_other _ _ h]
@[simp] theorem Core.setSeq_setSeq (c : Core) (q : Sq) (x y : SeqState) : (c.setSeq q x).setSeq q y = c.setSeq q y := by simp [Core.setSeq]
theorem Core.modSeq_eq (c : Core) (q : Sq) (f : SeqState → SeqState) : c.modSeq q f = c.setSeq q (f (c.seqs.get q)) := rfl

end Sys2Proof.Machine
end

