-- ==== Sys2Proof/Laws/Store.lean ====
section
/-!
SUPPORT. Sparse stores: what reads back, and that the keys keep rising.
-/
namespace Sys2Proof

variable {α : Type}

theorem Store.find?_above {m : Store α} {k i : Nat} (h : Store.above k m = true) (hi : i ≤ k) : Store.find? m i = none := by
  induction m with
  | nil => rfl
  | cons p m ih =>
    obtain ⟨j, v⟩ := p
    simp only [Store.above, Bool.and_eq_true, decide_eq_true_eq] at h
    have hne : i ≠ j := by omega
    simp [Store.find?, hne, ih h.2]

theorem Store.above_mono {m : Store α} {i k : Nat} (h : Store.above k m = true) (hi : i ≤ k) : Store.above i m = true := by
  induction m with
  | nil => rfl
  | cons p m ih =>
    obtain ⟨j, v⟩ := p
    simp only [Store.above, Bool.and_eq_true, decide_eq_true_eq] at h ⊢
    exact ⟨by omega, ih h.2⟩

@[simp] theorem Store.find?_put_self (m : Store α) (i : Nat) (x : α) : Store.find? (Store.put i x m) i = some x := by
  induction m with
  | nil => simp [Store.put, Store.find?]
  | cons p m ih =>
    obtain ⟨k, v⟩ := p
    by_cases h1 : i < k
    · simp [Store.put, h1, Store.find?]
    · by_cases h2 : i = k
      · simp [Store.put, h2, Store.find?]
      · simp [Store.put, h1, h2, Store.find?, ih]

theorem Store.find?_put_other (m : Store α) {i j : Nat} (x : α) (h : j ≠ i) : Store.find? (Store.put i x m) j = Store.find? m j := by
  induction m with
  | nil => simp [Store.put, Store.find?, h]
  | cons p m ih =>
    obtain ⟨k, v⟩ := p
    by_cases h1 : i < k
    · simp [Store.put, h1, Store.find?, h]
    · by_cases h2 : i = k
      · subst h2; simp [Store.put, Store.find?, h]
      · simp [Store.put, h1, h2, Store.find?, ih]

theorem Store.find?_erase_other (m : Store α) {i j : Nat} (h : j ≠ i) : Store.find? (Store.erase i m) j = Store.find? m j := by
  induction m with
  | nil => rfl
  | cons p m ih =>
    obtain ⟨k, v⟩ := p
    by_cases h2 : i = k
    · subst h2; simp [Store.erase, Store.find?, h]
    · simp [Store.erase, h2, Store.find?, ih]

theorem Store.find?_erase_self {m : Store α} (h : Store.rising m = true) (i : Nat) : Store.find? (Store.erase i m) i = none := by
  induction m with
  | nil => rfl
  | cons p m ih =>
    obtain ⟨k, v⟩ := p
    simp only [Store.rising, Bool.and_eq_true] at h
    by_cases h2 : i = k
    · subst h2; simpa [Store.erase] using Store.find?_above h.1 (Nat.le_refl i)
    · simp [Store.erase, h2, Store.find?, ih h.2]

theorem Store.above_put {m : Store α} {k i : Nat} (x : α) (h : Store.above k m = true) (hi : k < i) :
    Store.above k (Store.put i x m) = true := by
  induction m with
  | nil => simp [Store.put, Store.above, hi]
  | cons p m ih =>
    obtain ⟨j, v⟩ := p
    simp only [Store.above, Bool.and_eq_true, decide_eq_true_eq] at h
    by_cases h1 : i < j
    · simp [Store.put, h1, Store.above, hi, h.1, h.2]
    · by_cases h2 : i = j
      · subst h2; simp [Store.put, Store.above, hi, h.2]
      · simp [Store.put, h1, h2, Store.above, h.1, ih h.2]

theorem Store.rising_put {m : Store α} (i : Nat) (x : α) (h : Store.rising m = true) : Store.rising (Store.put i x m) = true := by
  induction m with
  | nil => simp [Store.put, Store.rising, Store.above]
  | cons p m ih =>
    obtain ⟨j, v⟩ := p
    simp only [Store.rising, Bool.and_eq_true] at h
    by_cases h1 : i < j
    · simp [Store.put, h1, Store.rising, Store.above, Store.above_mono h.1 (Nat.le_of_lt h1), h.1, h.2]
    · by_cases h2 : i = j
      · subst h2; simp [Store.put, Store.rising, h.1, h.2]
      · have h3 : j < i := by omega
        simp [Store.put, h1, h2, Store.rising, Store.above_put x h.1 h3, ih h.2]

theorem Store.above_erase {m : Store α} {k : Nat} (i : Nat) (h : Store.above k m = true) : Store.above k (Store.erase i m) = true := by
  induction m with
  | nil => rfl
  | cons p m ih =>
    obtain ⟨j, v⟩ := p
    simp only [Store.above, Bool.and_eq_true] at h
    by_cases h2 : i = j
    · simpa [Store.erase, h2] using h.2
    · simp [Store.erase, h2, Store.above, h.1, ih h.2]

theorem Store.rising_erase {m : Store α} (i : Nat) (h : Store.rising m = true) : Store.rising (Store.erase i m) = true := by
  induction m with
  | nil => rfl
  | cons p m ih =>
    obtain ⟨j, v⟩ := p
    simp only [Store.rising, Bool.and_eq_true] at h
    by_cases h2 : i = j
    · simpa [Store.erase, h2] using h.2
    · simp [Store.erase, h2, Store.rising, Store.above_erase i h.1, ih h.2]

theorem Store.above_filter {m : Store α} {k : Nat} (f : Nat × α → Bool) (h : Store.above k m = true) :
    Store.above k (List.filter f m) = true := by
  induction m with
  | nil => rfl
  | cons p m ih =>
    obtain ⟨j, v⟩ := p
    simp only [Store.above, Bool.and_eq_true] at h
    cases hf : f (j, v) <;> simp [hf, Store.above, h.1, ih h.2]

theorem Store.rising_filter {m : Store α} (f : Nat × α → Bool) (h : Store.rising m = true) : Store.rising (List.filter f m) = true := by
  induction m with
  | nil => rfl
  | cons p m ih =>
    obtain ⟨j, v⟩ := p
    simp only [Store.rising, Bool.and_eq_true] at h
    cases hf : f (j, v) <;> simp [hf, Store.rising, Store.above_filter f h.1, ih h.2]

theorem Store.all_put {m : Store α} {f : Nat × α → Bool} {i : Nat} {x : α} (h : m.all f = true) (hx : f (i, x) = true) :
    (Store.put i x m).all f = true := by
  induction m with
  | nil => simp [Store.put, hx]
  | cons p m ih =>
    obtain ⟨j, v⟩ := p
    simp only [List.all_cons, Bool.and_eq_true] at h
    by_cases h1 : i < j
    · simpa [Store.put, h1, hx, h.1] using h.2
    · by_cases h2 : i = j
      · subst h2; simpa [Store.put, hx] using h.2
      · simpa [Store.put, h1, h2, h.1] using ih h.2

theorem Store.all_erase {m : Store α} {f : Nat × α → Bool} (i : Nat) (h : m.all f = true) : (Store.erase i m).all f = true := by
  induction m with
  | nil => rfl
  | cons p m ih =>
    obtain ⟨j, v⟩ := p
    simp only [List.all_cons, Bool.and_eq_true] at h
    by_cases h2 : i = j
    · simpa [Store.erase, h2] using h.2
    · simpa [Store.erase, h2, h.1] using ih h.2

theorem Store.put_put (m : Store α) (i : Nat) (x y : α) : Store.put i y (Store.put i x m) = Store.put i y m := by
  induction m with
  | nil => simp [Store.put]
  | cons p m ih =>
    obtain ⟨k, v⟩ := p
    by_cases h1 : i < k
    · simp [Store.put, h1]
    · by_cases h2 : i = k
      · simp [Store.put, h2]
      · simp [Store.put, h1, h2, ih]

/-- Putting the value that a store already holds leaves the store as it is. -/
theorem Store.put_held {m : Store α} {i : Nat} {x : α} (h : Store.rising m = true) (hx : Store.find? m i = some x) :
    Store.put i x m = m := by
  induction m with
  | nil => simp [Store.find?] at hx
  | cons p m ih =>
    obtain ⟨k, v⟩ := p
    simp only [Store.rising, Bool.and_eq_true] at h
    by_cases h2 : i = k
    · subst h2
      simp only [Store.find?, if_true, Option.some.injEq] at hx
      simp [Store.put, hx]
    · simp only [Store.find?, h2, if_false] at hx
      have h1 : ¬ i < k := fun h1 => by simp [Store.find?_above h.1 (Nat.le_of_lt h1)] at hx
      simp [Store.put, h1, h2, ih h.2 hx]

end Sys2Proof
end

