-- ==== Sys2Proof/Laws/Memory.lean ====
section
/-!
SUPPORT. Memories: every operation keeps the canonical form, a byte written reads back, and other bytes stay.
-/
namespace Sys2Proof.Machine

theorem Memory.wf_nil : Memory.wf [] = true := rfl

theorem Memory.wf_write {m : Store Byte} (a : Nat) (b : Byte) (h : Memory.wf m = true) : Memory.wf (Memory.write m a b) = true := by
  simp only [Memory.wf, Bool.and_eq_true] at h ⊢
  unfold Memory.write
  split
  · exact ⟨Store.rising_erase a h.1, Store.all_erase a h.2⟩
  · next hb => exact ⟨Store.rising_put a b h.1, Store.all_put h.2 (by simpa using hb)⟩

theorem Memory.wf_writeN {m : Store Byte} (a : Nat) (bs : List Byte) (h : Memory.wf m = true) : Memory.wf (Memory.writeN m a bs) = true := by
  induction bs generalizing m a with
  | nil => exact h
  | cons b bs ih => exact ih _ (Memory.wf_write a b h)

theorem Memory.wf_filter {m : Store Byte} (f : Nat × Byte → Bool) (h : Memory.wf m = true) : Memory.wf (List.filter f m) = true := by
  simp only [Memory.wf, Bool.and_eq_true] at h ⊢
  refine ⟨Store.rising_filter f h.1, ?_⟩
  rw [List.all_eq_true] at *
  exact fun x hx => h.2 x (List.mem_filter.mp hx).1

theorem Memory.wf_clear {m : Store Byte} (lo hi : Nat) (h : Memory.wf m = true) : Memory.wf (Memory.clear m lo hi) = true := Memory.wf_filter _ h

/-- The canonical form is needed here: a duplicate entry would show through once the first is removed. -/
theorem Memory.read_write_self {m : Store Byte} (h : Memory.wf m = true) (a : Nat) (b : Byte) : Memory.read (Memory.write m a b) a = b := by
  simp only [Memory.wf, Bool.and_eq_true] at h
  unfold Memory.read Memory.write Store.getD
  split
  · next hb => simp [Store.find?_erase_self h.1, hb]
  · simp

theorem Memory.read_write_other (m : Store Byte) {a c : Nat} (b : Byte) (h : c ≠ a) : Memory.read (Memory.write m a b) c = Memory.read m c := by
  unfold Memory.read Memory.write Store.getD
  split
  · rw [Store.find?_erase_other m h]
  · rw [Store.find?_put_other m b h]

@[simp] theorem State.core_setCore_self (s : State) (n : Nat) (c : Core) : (s.setCore n c).core n = c := by
  simp [State.core, State.setCore, Store.getD]

theorem State.core_setCore_other (s : State) {n k : Nat} (c : Core) (h : k ≠ n) : (s.setCore n c).core k = s.core k := by
  simp [State.core, State.setCore, Store.getD, Store.find?_put_other _ c h]

@[simp] theorem State.setCore_setCore (s : State) (n : Nat) (c d : Core) : (s.setCore n c).setCore n d = s.setCore n d := by
  simp [State.setCore, Store.put_put]

end Sys2Proof.Machine
end

