-- ==== Sys2Proof/Laws/Ops.lean ====
section
/-!
SUPPORT. The shared operations of the issuing sequencer, brought to `setCore`: what each writes and that nothing else
changes (R93, R102).
-/
namespace Sys2Proof.Machine

theorem State.modSeq_eq (s : State) (f : SeqState → SeqState) :
    s.modSeq f = s.setCore s.curCore (s.cur.setSeq s.curSq (f s.seq)) := rfl

theorem State.retire_eq (s : State) (n : Nat) :
    s.retire n = s.setCore s.curCore { s.cur.setSeq s.curSq (s.seq.advance n).resume with lastActive := s.cycle } := rfl

@[simp] theorem State.cur_setCore (s : State) (c : Core) : (s.setCore s.curCore c).cur = c := by
  simp [State.cur]

@[simp] theorem State.seq_modSeq (s : State) (f : SeqState → SeqState) : (s.modSeq f).seq = f s.seq := by
  simp [State.seq, State.modSeq_eq]

@[simp] theorem State.seq_put (s : State) (i : Nat) (v : Word) (t : Taint) : (s.put i v t).seq = s.seq.put s.curSq i v t := by
  simp [State.put]

/-- A write to a register that holds a value reads back with its taint set. -/
theorem SeqState.put_reads {x : SeqState} {q : Sq} {i : Nat} (v : Word) (t : Taint) (h : fixedReg q i = false) (hi : i < 32) :
    (x.put q i v t).reg i = v ∧ (x.put q i v t).set i = t := by
  have h0 : i ≠ 0 := by intro h0; subst h0; simp [fixedReg] at h
  simp [SeqState.put, h, SeqState.reg, SeqState.set, h0, hi]

/-- A write to s0, or to s31 but in ld, is discarded (R102). -/
theorem SeqState.put_discarded (x : SeqState) {q : Sq} {i : Nat} (v : Word) (t : Taint) (h : fixedReg q i = true) : x.put q i v t = x := by
  simp [SeqState.put, h]

theorem SeqState.put_other (x : SeqState) (q : Sq) {i j : Nat} (v : Word) (t : Taint) (h : j ≠ i) :
    (x.put q i v t).reg j = x.reg j ∧ (x.put q i v t).set j = x.set j := by
  unfold SeqState.put
  split
  · exact ⟨rfl, rfl⟩
  · simp [SeqState.reg, SeqState.set, Ne.symm h]

/-- What a stop that is no translation fault changes: the issuing sequencer alone, and of it neither a register nor the
pc (R93, R102). -/
theorem State.stop_trap (s : State) (c : Cause) : s.stop (.trap c) = s.setCore s.curCore (s.cur.setSeq s.curSq (s.seq.halt c)) := rfl

theorem finish_ok {s t : State} : finish s (.ok t) = .next t := rfl
theorem finish_error {s : State} {e : Stop} : finish s (.error e) = .next (s.stop e) := rfl

/-- Every meaning answers a next state: its own, or the one in which it has stopped. -/
theorem finish_next (s : State) (m : Except Stop State) : ∃ t, finish s m = .next t := by
  cases m with
  | ok t => exact ⟨t, rfl⟩
  | error e => exact ⟨s.stop e, rfl⟩

end Sys2Proof.Machine
end

