-- ==== Sys2Proof/Laws/Translate.lean ====
section
/-!
SUPPORT. Reaching memory changes nothing but the TLB of a die (R279) and the count of chunks sent on a port (R339): what a
translation, a range and a handle access leave of the state.
-/
namespace Sys2Proof.Machine

/-- Nothing but the dies, which hold the TLBs, and the links, which count what was sent, has changed. -/
def State.onlyPaths (s t : State) : Prop := t = { s with dies := t.dies, links := t.links }

theorem State.onlyPaths_refl (s : State) : s.onlyPaths s := rfl

theorem State.onlyPaths_trans {s t u : State} (h : s.onlyPaths t) (g : t.onlyPaths u) : s.onlyPaths u := by
  unfold State.onlyPaths at *
  rw [g, h]

theorem State.noteTlb_onlyPaths (s : State) (n : Nat) (e : TlbEntry) : s.onlyPaths (s.noteTlb n e) := by
  unfold State.noteTlb
  split <;> rfl

theorem State.noteEntry_onlyPaths (s : State) (n : Nat) (e : TlbEntry) (m : Mapping) : s.onlyPaths (s.noteEntry n e m) := by
  cases m
  all_goals first | exact State.onlyPaths_refl s | exact s.noteTlb_onlyPaths n e

theorem foldl_onlyPaths {α : Type} (f : State → α → State) (hf : ∀ (s : State) (a : α), s.onlyPaths (f s a)) (l : List α) (s : State) :
    s.onlyPaths (l.foldl f s) := by
  induction l generalizing s with
  | nil => rfl
  | cons a l ih => exact State.onlyPaths_trans (hf s a) (ih (f s a))

theorem State.sendChunks_onlyPaths (s : State) (ports : List Nat) (first n : Nat) : s.onlyPaths (s.sendChunks ports first n) := by
  unfold State.sendChunks
  refine foldl_onlyPaths _ (fun s a => ?_) _ s
  unfold State.onlyPaths
  rfl

theorem State.locateRange_onlyPaths {w : Who} {host : Bool} {acc : Acc} {engine : Bool} {m : Mapping} {n va len : Nat} {s t : State}
    {ls : List Loc} (h : s.locateRange w host acc engine m n va len = .ok (t, ls)) : s.onlyPaths t := by
  induction n generalizing s va len t ls with
  | zero =>
    simp only [State.locateRange, Except.ok.injEq, Prod.mk.injEq] at h
    rw [← h.1]; rfl
  | succ n ih =>
    unfold State.locateRange at h
    split at h
    · simp only [Except.ok.injEq, Prod.mk.injEq] at h
      rw [← h.1]; rfl
    · dsimp only at h
      split at h
      · cases h
      split at h
      · cases h
      · split at h
        · cases h
        · rename_i e _ u ls' hu
          simp only [Except.ok.injEq, Prod.mk.injEq] at h
          rw [← h.1]
          exact State.onlyPaths_trans (s.noteEntry_onlyPaths _ _ _) (ih hu)

theorem State.locate_onlyPaths {w : Who} {hv : BitVec 256} {off len : Nat} {acc : Acc} {engine : Bool} {m : Mapping} {s t : State}
    {ls : List Loc} (h : s.locate w hv off len acc engine m = .ok (t, ls)) : s.onlyPaths t := by
  unfold State.locate at h
  split at h
  · dsimp only at h
    split at h
    · cases h
    · split at h
      · cases h
      · simp only [Except.ok.injEq, Prod.mk.injEq] at h
        rw [← h.1]; rfl
  · dsimp only at h
    split at h
    · cases h
    · split at h
      · split at h
        · cases h
        · split at h
          · exact State.locateRange_onlyPaths h
          · split at h
            · cases h
            · simp only [Except.ok.injEq, Prod.mk.injEq] at h
              rw [← h.1]; exact s.sendChunks_onlyPaths _ _ _
      · exact State.locateRange_onlyPaths h

/-- Reaching memory through a handle changes nothing but the TLB of a die and the counts of the links. -/
theorem State.reach_onlyPaths {hv : BitVec 256} {right : BitVec 8} {off len align : Nat} {acc : Acc} {s t : State} {ls : List Loc}
    (h : s.reach hv right off len align acc = .ok (t, ls)) : s.onlyPaths t := by
  unfold State.reach at h
  dsimp only at h
  split at h
  · cases h
  · exact State.locate_onlyPaths h

theorem State.onlyPaths_cur {s t : State} (h : s.onlyPaths t) : t.cur = s.cur ∧ t.seq = s.seq ∧ t.curCore = s.curCore ∧ t.curSq = s.curSq := by
  unfold State.onlyPaths at h
  rw [h]
  exact ⟨rfl, rfl, rfl, rfl⟩

theorem State.onlyPaths_memory {s t : State} (h : s.onlyPaths t) (l : Loc) : t.readLoc l = s.readLoc l := by
  unfold State.onlyPaths at h
  rw [h]
  cases l <;> rfl

end Sys2Proof.Machine
end

