-- ==== Sys2Proof/Tests/Slice0.lean ====
section
/-!
SUPPORT. Tests: ill-formed terms that the checks refuse; words of the spec's encoding tables, one for every constructor, and
what they decode to; single steps with results worked out by hand from the spec; and, for every claim of the obligations that
has hypotheses, a concrete state and operands that meet them (`witness_…`).
-/
open Sys2Proof Sys2Proof.Machine
namespace Sys2Proof.Tests
set_option Elab.async false

/-- The parcels decode to the instruction, with its length in parcels. -/
noncomputable def decodes (ps : List Parcel) (i : Instr) (n : Nat) : Bool :=
  match decode ps with
  | .ok (j, k) => decide (j = i) && decide (k = n)
  | .error _ => false

/-- The parcels decode to a cause. -/
noncomputable def refused (ps : List Parcel) (c : Cause) : Bool :=
  match decode ps with
  | .ok _ => false
  | .error e => decide (e = c)

/-- It succeeds. -/
def okAny {ε α : Type} : Except ε α → Bool
  | .ok _ => true
  | .error _ => false

/-- It succeeds with a value. -/
def okIs {ε α : Type} [DecidableEq α] (m : Except ε α) (a : α) : Bool :=
  match m with
  | .ok b => decide (b = a)
  | .error _ => false

/-- It succeeds with a value of which the rest holds. -/
def okAnd {ε α : Type} (m : Except ε α) (p : α → Bool) : Bool :=
  match m with
  | .ok b => p b
  | .error _ => false

/-- It stops with a cause. -/
def traps {α : Type} (m : Except Stop α) (c : Cause) : Bool :=
  match m with
  | .error (.trap d) => decide (d = c)
  | _ => false

/-- The outcome is a next state of which the rest holds. -/
def next (o : Host.Outcome State Fault Refusal) (p : State → Bool) : Bool :=
  match o with
  | .next t => p t
  | _ => false

/-- A policy that permits everything. -/
def policy : TenantPolicy := ⟨0xFF, 0xFF, 0xFF, 0xFF, [(0, 2 ^ 57 - 1)], true, true, 4⟩
/-- Tenant 0, in slot 0, with a sealing key of zeros. -/
def tenant : Tenant := ⟨0, 0, policy, 0, 0, 2, [], 1, false, false, [(1, 0)], [(1, ⟨0, 0, 0, 0⟩)], [], []⟩
/-- Partition 0: cluster 0, slice 0, four ports. -/
def part : Partition := ⟨[0], [0], [0, 1, 2, 3], 0x10000, [0], 0, 0, 0, List.replicate 8 1, 100, 100, 100, [], 0, 0, [], [], [], [], 0, 0, 1, false, [], []⟩
/-- Context 0, whose tables are those of the partition. -/
def ctx : Context := ⟨0, 0, 0, 0x10000, none, false, [], []⟩
/-- Two tables of one descriptor each (Tables 15-5, 15-6): the first 2 GiB, with every right but D, to themselves. -/
def tables : Store Byte := [(0x10000, 0x01), (0x10002, 0x02), (0x20000, 0x1F)]
/-- A queue of tenant 0 with a ring of 16 records at 1 MiB. -/
def queue : Queue := ⟨0, 0, 0, 0x100000, 4, 0, 0, 0, 0, false, false, 0, 0, false, []⟩
/-- An on-chip handle of tenant 0 to the scratchpad of core 0, with every right (Table 17-2; the seal is R302's). -/
def chip : BitVec 256 := 0x0e61963fdbb3769c8000000082000000000001fe000020000000000000000000
/-- A module with tenant 0, partition 0 and context 0. -/
def base : State := { State.reset with tenants := [(0, tenant)], parts := [(0, part)], ctxs := [(0, ctx)], hbm := tables, queues := [(0, queue)] }
/-- Registers with the values given. -/
def regs (vs : List (Nat × Word)) (x : SeqState) : SeqState :=
  { x with regs := vs.foldl (fun (r : Vector Word 32) v => r.setIfInBounds v.1 v.2) x.regs }
/-- Core 0 with a task that declares everything. -/
def worker : Core := { Core.reset with task := some Task.placed }
/-- `base`, with core 0 as given and one of its sequencers in the body of a block. -/
def on (q : Sq) (c : Core) (vs : List (Nat × Word)) : State :=
  { base with cores := [(0, (c.modSeq q (fun x => regs vs { x with run := .running, hdr := 32, length := 14, inBody := true, pc := 34 })).tick)], curCore := 0, curSq := q }

theorem test_ill_formed_refused : [Instr.tks 0 12, .tkw 0 15, .pb 0 0 2, .brc 8 6 0, .tksL 12 0 0, .winit 16 0, .wstat 0 0, .ld 1 0 0 0 2 0 0, .ld 1 0 0 0 0 5 0,
    .ld 4 0 0 0 0 0 1, .st 0 0 0 0 0 1, .aadd 0 0 31 0 0, .acas 0 0 30 0 0, .sigwait 0 0 0 6 0, .fence 3 0, .fence 0 5, .cesh 0 1 15 0, .cesh 0 3 9 0, .cesh 0 0 10 0,
    .cpy 0 0 0 31 0, .hreq 29 0, .hget 0 0 11, .kstat 0 34, .trap 15, .gets 0 13, .sets 0 0, .enrg 0 1 1, .mxset 0 0x24, .mxget 0 0x25, .vceq 0 3 0 0, .afmt 0 5, .aclr 0 1 63,
    .vcvt 0 0 0 0 5, .vkenc 0 0 0 0 3, .plwait 0 0, .plwait 0 17, .rslotReserve 0 0 3, .coll 0 29 0 0 0 0 0, .launch 0 30 0].map Instr.wf =
    List.replicate 6 false ++ [true] ++ List.replicate 32 false := by decide +kernel

theorem test_well_formed : [Instr.tks 0 11, .pb 0 0 1, .brc 7 6 0, .ld 3 0 0 0 1 4 1, .st 0 0 0 0 1 4, .aadd 0 0 30 0 0, .acas 0 0 29 0 0, .sigwait 0 0 0 5 0, .fence 2 4, .cesh 0 2 9 0,
    .cpy 0 0 0 30 0, .hget 0 0 10, .kstat 0 33, .trap 14, .gets 0 0x21, .mxset 0 0x23, .aclr 0 0 63, .plwait 0 16].all Instr.wf = true := by decide +kernel

/-- Words whose fields hold what no instruction takes are refused by cause (R85, R91): a reserved major, a reserved field, a function
that is not listed. -/
theorem test_decode_refuses : (refused [0xB800] 0x01 && refused [0xC100, 0x0098] 0x01 && refused [0x0820] 0x02 && refused [0xE000, 0x1000] 0x02 &&
    refused [0xFF00, 0] 0x01 && refused [0xC900, 0x0014] 0x01) = true := by decide +kernel

theorem test_decode_major00_short : (decodes [0xC000, 0x5010] (.hdr 5 16) 2 &&
    decodes [0x0000] (.nop) 1 &&
    decodes [0x0AD6] (.mov 11 22) 1 &&
    decodes [0x1399] (.addShort 14 25) 1 &&
    decodes [0x1C5C] (.subShort 17 28) 1 &&
    decodes [0x251F] (.andShort 20 31) 1 &&
    decodes [0x2DC2] (.orShort 23 2) 1 &&
    decodes [0x3685] (.xorShort 26 5) 1 &&
    decodes [0x3F68] (.addi6 29 40) 1 &&
    decodes [0x402B] (.shliShort 0 43) 1 &&
    decodes [0x48F9] (.shriShort 3 1 25) 1 &&
    decodes [0x51B1] (.li6 6 49) 1 &&
    decodes [0x5A60] (.tclr 9 1) 1 &&
    decodes [0x6322] (.adv 12 1 2) 1 &&
    decodes [0x6BCA] (.tks 15 10) 1 &&
    decodes [0x748D] (.tkw 18 13) 1 &&
    decodes [0x7815] (.arr 21) 1 &&
    decodes [0x87EF] (.rep 1 1 1 1 1 47) 1 &&
    decodes [0x88E1] (.pmov 3 1 1) 1 &&
    decodes [0x9000] (.ret) 1 &&
    decodes [0x9841] (.br16 65) 1 &&
    decodes [0xA000] (.endStream) 1 &&
    decodes [0xA800] (.qpt) 1 &&
    decodes [0xB295] (.spl 10 21) 1 &&
    decodes [0xB378] (.fil 13 24) 1) = true := by decide +kernel

theorem test_decode_major01_0 : (decodes [0xC186, 0xCC01] (.add 16 27 6 1) 2 &&
    decodes [0xC19F, 0x9205] (.sub 19 30 9 1) 2 &&
    decodes [0xC1B0, 0x5809] (.mul 22 1 12 1) 2 &&
    decodes [0xC1C9, 0x1E0D] (.mulh 25 4 15 1) 2 &&
    decodes [0xC1E1, 0xE411] (.mulhu 28 7 18 1) 2 &&
    decodes [0xC1FA, 0xAA15] (.div 31 10 21 1) 2 &&
    decodes [0xC113, 0x7019] (.divu 2 13 24 1) 2 &&
    decodes [0xC12C, 0x361D] (.rem 5 16 27 1) 2 &&
    decodes [0xC144, 0xFC21] (.remu 8 19 30 1) 2 &&
    decodes [0xC15D, 0x8225] (.and 11 22 1 1) 2 &&
    decodes [0xC176, 0x4829] (.or 14 25 4 1) 2 &&
    decodes [0xC18F, 0x0E2D] (.xor 17 28 7 1) 2 &&
    decodes [0xC1A7, 0xD431] (.andn 20 31 10 1) 2 &&
    decodes [0xC1B8, 0x9A35] (.shl 23 2 13 1) 2 &&
    decodes [0xC1D1, 0x6039] (.shr 26 5 16 1) 2 &&
    decodes [0xC1EA, 0x263D] (.sar 29 8 19 1) 2 &&
    decodes [0xC102, 0xEC41] (.rot 0 11 22 1) 2 &&
    decodes [0xC11B, 0xB245] (.min 3 14 25 1) 2 &&
    decodes [0xC134, 0x7849] (.max 6 17 28 1) 2 &&
    decodes [0xC14D, 0x3E4D] (.minu 9 20 31 1) 2 &&
    decodes [0xC165, 0xC451] (.maxu 12 23 2 1) 2 &&
    decodes [0xC17E, 0x8055] (.clz 15 26 1) 2 &&
    decodes [0xC197, 0x4059] (.ctz 18 29 1) 2 &&
    decodes [0xC1A8, 0x005D] (.popc 21 0 1) 2 &&
    decodes [0xC1C0, 0xDC61] (.sext 24 3 14 1) 2 &&
    decodes [0xC1D9, 0xA265] (.zext 27 6 17 1) 2 &&
    decodes [0xC1F2, 0x6869] (.bfx 30 9 20 1) 2 &&
    decodes [0xC10B, 0x2E6D] (.bfi 1 12 23 1) 2 &&
    decodes [0xC123, 0xF471] (.selp 4 15 26 1) 2 &&
    decodes [0xC13C, 0xBA75] (.addsat 7 18 29 1) 2 &&
    decodes [0xC155, 0x4079] (.subsat 10 21 0 1) 2 &&
    decodes [0xC16E, 0x067D] (.madd 13 24 3 1) 2 &&
    decodes [0xC186, 0xCC81] (.cmpeq 16 27 6 1) 2 &&
    decodes [0xC19F, 0x9285] (.cmpne 19 30 9 1) 2) = true := by decide +kernel

theorem test_decode_major01_major11 : (decodes [0xC1B0, 0x5889] (.cmplt 22 1 12 1) 2 &&
    decodes [0xC1C9, 0x1E8D] (.cmple 25 4 15 1) 2 &&
    decodes [0xC1E1, 0xE491] (.cmpltu 28 7 18 1) 2 &&
    decodes [0xC1FA, 0xAA95] (.cmpleu 31 10 21 1) 2 &&
    decodes [0xC213, 0x40D8] (.addi 2 13 216) 2 &&
    decodes [0xC32C, 0x00DB] (.andi 5 16 219) 2 &&
    decodes [0xC444, 0xC0DE] (.ori 8 19 222) 2 &&
    decodes [0xC55D, 0x80E1] (.xori 11 22 225) 2 &&
    decodes [0xC676, 0x4024] (.shli 14 25 36) 2 &&
    decodes [0xC68F, 0x0067] (.shri 17 28 39) 2 &&
    decodes [0xC6A7, 0xC0AA] (.sari 20 31 42) 2 &&
    decodes [0xC6B8, 0x80ED] (.roti 23 2 45) 2 &&
    decodes [0xC7D1, 0x40FB] (.cmpi 26 5 0 251) 2 &&
    decodes [0xC928, 0x0601] (.pand 5 0 3 1) 2 &&
    decodes [0xC900, 0xCC05] (.por 0 3 6 1) 2 &&
    decodes [0xC919, 0x8209] (.pxor 3 6 1 1) 2 &&
    decodes [0xC930, 0x400D] (.pnot 6 1 1) 2 &&
    decodes [0xC908, 0x4011] (.pset 1 1 1) 2 &&
    decodes [0xCA9C, 0x0800] (.pb 4 7 2) 2 &&
    decodes [0xCB7A, 0x0105] (.brc 15 2 261) 2 &&
    decodes [0xCC00, 0x00F2] (.br 242) 2 &&
    decodes [0xCD00, 0x00F5] (.call 245) 2 &&
    decodes [0xCE06, 0x0001] (.jr 24 1) 2 &&
    decodes [0xCED9, 0x8005] (.jalr 27 6 1) 2 &&
    decodes [0xCE00, 0x0009] (.retL 1) 2 &&
    decodes [0xCF08, 0x010C] (.loop 1 268) 2 &&
    decodes [0xD023, 0xC11A] (.tksL 4 15 282) 2 &&
    decodes [0xD03C, 0x851D] (.tkwL 7 18 285) 2 &&
    decodes [0xD100, 0x000A] (.bjoin 10) 2 &&
    decodes [0xD100, 0x040D] (.bleave 13) 2 &&
    decodes [0xD100, 0x0810] (.barr 16) 2 &&
    decodes [0xD198, 0x0C1E] (.barn 19 30) 2 &&
    decodes [0xD105, 0x9001] (.bwait 22 1) 2 &&
    decodes [0xD1C8, 0x1404] (.bcnt 25 4) 2) = true := by decide +kernel

theorem test_decode_major12_major1d : (decodes [0xD200, 0x0000] (.sstep) 2 &&
    decodes [0xD200, 0x0400] (.ssync) 2 &&
    decodes [0xD210, 0x0800] (.sphase 2) 2 &&
    decodes [0xD32C, 0x0000] (.winit 5 16) 2 &&
    decodes [0xD344, 0xC53E] (.wwaitf 8 19 318) 2 &&
    decodes [0xD35D, 0x8941] (.wwaite 11 22 321) 2 &&
    decodes [0xD376, 0x4D44] (.wadvp 14 25 324) 2 &&
    decodes [0xD38F, 0x1147] (.wadvc 17 28 327) 2 &&
    decodes [0xD3A0, 0x140F] (.wstat 20 15) 2 &&
    decodes [0xD4B8, 0x9A79] (.ld 23 2 13 0 3 6 1) 2 &&
    decodes [0xD5D1, 0x61C4] (.st 26 5 16 3 2 1) 2 &&
    decodes [0xD6EA, 0x261A] (.aadd 29 8 19 6 1) 2 &&
    decodes [0xD602, 0xEC26] (.aand 0 11 22 1 1) 2 &&
    decodes [0xD61B, 0xB252] (.aor 3 14 25 4 1) 2 &&
    decodes [0xD634, 0x787E] (.axor 6 17 28 7 1) 2 &&
    decodes [0xD64D, 0x3E8A] (.amin 9 20 31 2 1) 2 &&
    decodes [0xD665, 0xC4B6] (.amax 12 23 2 5 1) 2 &&
    decodes [0xD67E, 0x8AC2] (.aminu 15 26 5 0 1) 2 &&
    decodes [0xD697, 0x50EE] (.amaxu 18 29 8 3 1) 2 &&
    decodes [0xD6A8, 0x171A] (.aswp 21 0 11 6 1) 2 &&
    decodes [0xD6C0, 0xDD26] (.acas 24 3 14 1 1) 2 &&
    decodes [0xD7D9, 0x8011] (.sigadd 27 6 17) 2 &&
    decodes [0xD7F2, 0x45EA] (.sigwait 30 9 1 7 10) 2 &&
    decodes [0xD800, 0x000C] (.fence 1 4) 2 &&
    decodes [0xD800, 0x0404] (.align 4) 2 &&
    decodes [0xD838, 0x0801] (.tclrL 7 1) 2 &&
    decodes [0xD800, 0x0C00] (.qptL) 2 &&
    decodes [0xD903, 0x7180] (.pref 13 24 3) 2 &&
    decodes [0xDC83, 0x6100] (.cesh 16 3 6 1) 2 &&
    decodes [0xDD04, 0xC17E] (.cwait 19 382) 2 &&
    decodes [0xDDB0, 0x0400] (.ccnt 22) 2 &&
    decodes [0xDDC8, 0x0800] (.cstat 25) 2 &&
    decodes [0xDDE0, 0x0801] (.cstatIssued 28) 2) = true := by decide +kernel

theorem test_decode_major1e_major26 : (decodes [0xDE07, 0xC002] (.hreq 31 2) 2 &&
    decodes [0xDE13, 0x4400] (.hwait 2 13 0) 2 &&
    decodes [0xDE2C, 0x0800] (.hmov 5 16) 2 &&
    decodes [0xDE40, 0x0C00] (.hclr 8) 2 &&
    decodes [0xDE5D, 0x9001] (.hld 11 22 1) 2 &&
    decodes [0xDE76, 0x5404] (.hst 14 25 4) 2 &&
    decodes [0xDF8F, 0x00A7] (.hchk 17 28 167) 2 &&
    decodes [0xDFA7, 0xC40A] (.hget 20 31 10) 2 &&
    decodes [0xDFB8, 0x8800] (.hrevk 23 2) 2 &&
    decodes [0xDFD0, 0x0801] (.hrevkAll 26) 2 &&
    decodes [0xDFE8, 0x0C00] (.krot 29) 2 &&
    decodes [0xDF00, 0x11AB] (.kstat 0 427) 2 &&
    decodes [0xE000, 0x0300] (.trap 3) 2 &&
    decodes [0xE031, 0xB101] (.gets 6 433) 2 &&
    decodes [0xE049, 0xB402] (.sets 9 436) 2 &&
    decodes [0xE060, 0x0003] (.yield 12) 2 &&
    decodes [0xE078, 0x0104] (.clk 15 1) 2 &&
    decodes [0xE090, 0x4805] (.enrg 18 1 8) 2 &&
    decodes [0xE000, 0x0006] (.nopl) 2 &&
    decodes [0xE1C0, 0xC00E] (.launch 24 3 14) 2 &&
    decodes [0xE1D9, 0x8400] (.qstat 27 6) 2 &&
    decodes [0xE2F2, 0x4001] (.save 30 9 1) 2 &&
    decodes [0xE30B, 0x0400] (.collw 1 12) 2 &&
    decodes [0xE323, 0xC401] (.collwCancel 4 15) 2 &&
    decodes [0xE401, 0xC012] (.plwait 7 18) 2 &&
    decodes [0xE455, 0x4400] (.plcnt 10 21) 2 &&
    decodes [0xE403, 0x4808] (.plcut 13 8) 2 &&
    decodes [0xE586, 0xC006] (.apst 16 27 6) 2 &&
    decodes [0xE59F, 0x8409] (.apld 19 30 9) 2 &&
    decodes [0xE5B0, 0x4808] (.rslotReserve 22 1 4) 2 &&
    decodes [0xE5C9, 0x0801] (.rslotRelease 25 4) 2 &&
    decodes [0xE607, 0x0007] (.layx 28 7) 2) = true := by decide +kernel

theorem test_decode_major27_major30 : (decodes [0xE7F9, 0xEA00] (.mxset 31 490) 2 &&
    decodes [0xE711, 0xED01] (.mxget 2 493) 2 &&
    decodes [0xE700, 0x0002] (.mxgo) 2 &&
    decodes [0xE700, 0x0003] (.mxwait) 2 &&
    decodes [0xE758, 0x0004] (.mxprog 11) 2 &&
    decodes [0xE700, 0x0005] (.mxabort) 2 &&
    decodes [0xE800, 0x0000] (.wld) 2 &&
    decodes [0xE927, 0xC000] (.kset 4 31) 2 &&
    decodes [0xE938, 0x860D] (.kgen 7 2 525) 2 &&
    decodes [0xF085, 0x41B0] (.vadd 2 5 16 27) 2 &&
    decodes [0xF048, 0x4DE1] (.vsub 1 8 19 30) 2 &&
    decodes [0xF00B, 0x5A12] (.vmul 0 11 22 33) 2 &&
    decodes [0xF0CE, 0x6643] (.vfma 3 14 25 36) 2 &&
    decodes [0xF091, 0x7274] (.vfms 2 17 28 39) 2 &&
    decodes [0xF054, 0x7EA5] (.vmin 1 20 31 42) 2 &&
    decodes [0xF017, 0x8AD6] (.vmax 0 23 34 45) 2 &&
    decodes [0xF0DA, 0x9707] (.vcpys 3 26 37 48) 2 &&
    decodes [0xF09D, 0xA138] (.vadds 2 29 40 19) 2 &&
    decodes [0xF060, 0xAD69] (.vmuls 1 32 43 22) 2 &&
    decodes [0xF023, 0xB99A] (.vfmas 0 35 46 25) 2 &&
    decodes [0xF0E6, 0xC5CB] (.vmaxs 3 38 49 28) 2 &&
    decodes [0xF0A9, 0xD1FC] (.vmins 2 41 52 31) 2 &&
    decodes [0xF06C, 0xDC2D] (.vsubs 1 44 55 2) 2) = true := by decide +kernel

theorem test_decode_major31_major33 : (decodes [0xF12F, 0xE850] (.viadd 0 47 58 5) 2 &&
    decodes [0xF1F2, 0xF481] (.visub 3 50 61 8) 2 &&
    decodes [0xF1B5, 0x00B2] (.vimul 2 53 0 11) 2 &&
    decodes [0xF178, 0x0CE3] (.vimac 1 56 3 14) 2 &&
    decodes [0xF13B, 0x1914] (.vand 0 59 6 17) 2 &&
    decodes [0xF1FE, 0x2545] (.vor 3 62 9 20) 2 &&
    decodes [0xF181, 0x3176] (.vxor 2 1 12 23) 2 &&
    decodes [0xF144, 0x3DA7] (.vshl 1 4 15 26) 2 &&
    decodes [0xF107, 0x49D8] (.vshr 0 7 18 29) 2 &&
    decodes [0xF1CA, 0x5609] (.vsar 3 10 21 32) 2 &&
    decodes [0xF18D, 0x623A] (.vimin 2 13 24 35) 2 &&
    decodes [0xF150, 0x6E6B] (.vimax 1 16 27 38) 2 &&
    decodes [0xF203, 0x7A90] (.vceq 0 3 30 41) 2 &&
    decodes [0xF2C2, 0x86C1] (.vcne 3 2 33 44) 2 &&
    decodes [0xF281, 0x92F2] (.vclt 2 1 36 47) 2 &&
    decodes [0xF240, 0x9F23] (.vcle 1 0 39 50) 2 &&
    decodes [0xF21F, 0xAB54] (.vsel 0 31 42 53) 2 &&
    decodes [0xF200, 0x0005] (.vmnot) 2 &&
    decodes [0xF285, 0x0006] (.vmpop 2 5) 2 &&
    decodes [0xF368, 0xCC00] (.vexp2 1 40 51) 2 &&
    decodes [0xF32B, 0xD801] (.vlog2 0 43 54) 2 &&
    decodes [0xF3EE, 0xE402] (.vrcpa 3 46 57) 2 &&
    decodes [0xF3B1, 0xF003] (.vrsqa 2 49 60) 2 &&
    decodes [0xF374, 0xFCA4] (.vrcpr 1 52 63 10) 2 &&
    decodes [0xF337, 0x08D5] (.vrsqr 0 55 2 13) 2 &&
    decodes [0xF3FA, 0x1406] (.vflr 3 58 5) 2 &&
    decodes [0xF3BD, 0x2007] (.vrnd 2 61 8) 2 &&
    decodes [0xF340, 0x2C08] (.vfrc 1 0 11) 2) = true := by decide +kernel

theorem test_decode_major34_major37 : (decodes [0xF403, 0x3800] (.vrsum 0 3 14) 2 &&
    decodes [0xF4C6, 0x4401] (.vrmax 3 6 17) 2 &&
    decodes [0xF489, 0x5002] (.vrmin 2 9 20) 2 &&
    decodes [0xF44C, 0x5C03] (.vwelf 1 12 23) 2 &&
    decodes [0xF40F, 0x6804] (.vwmrg 0 15 26) 2 &&
    decodes [0xF4D2, 0x7685] (.vshf 3 18 29 40) 2 &&
    decodes [0xF495, 0x80B6] (.vrot 2 21 32 11) 2 &&
    decodes [0xF458, 0x8CE7] (.vbcst 1 24 35 14) 2 &&
    decodes [0xF51B, 0x98C0] (.vcvt 0 27 38 1 4) 2 &&
    decodes [0xF5DE, 0xA781] (.vkenc 3 30 41 1 3) 2 &&
    decodes [0xF5A1, 0xB302] (.vkdec 2 33 44 1 2) 2 &&
    decodes [0xF564, 0x3C13] (.vpldec 1 36 15 1) 2 &&
    decodes [0xF627, 0x49D0] (.vld 0 39 18 29) 2 &&
    decodes [0xF6EA, 0x5401] (.vst 3 42 21 0) 2 &&
    decodes [0xF6AD, 0x6032] (.vldc 2 45 24 3) 2 &&
    decodes [0xF670, 0x6C63] (.vstc 1 48 27 6) 2 &&
    decodes [0xF733, 0xF800] (.aclr 0 51 62) 2 &&
    decodes [0xF7C0, 0xD801] (.afmt 3 54) 2 &&
    decodes [0xF7B9, 0x1032] (.amov 2 57 4 3) 2 &&
    decodes [0xF740, 0x0003] (.axpose 1) 2 &&
    decodes [0xF700, 0x0004] (.await 0) 2) = true := by decide +kernel

theorem test_decode_literals_0 : (decodes [0xC1B8, 0x8003, 0x8001, 0x00E6] (.addLit 23 2 1 0x800100e6) 4 &&
    decodes [0xC1D1, 0x4007, 0x8001, 0x00E7] (.subLit 26 5 1 0x800100e7) 4 &&
    decodes [0xC1EA, 0x000B, 0x8001, 0x00E8] (.mulLit 29 8 1 0x800100e8) 4 &&
    decodes [0xC102, 0xC00F, 0x8001, 0x00E9] (.mulhLit 0 11 1 0x800100e9) 4 &&
    decodes [0xC11B, 0x8013, 0x8001, 0x00EA] (.mulhuLit 3 14 1 0x800100ea) 4 &&
    decodes [0xC134, 0x4017, 0x8001, 0x00EB] (.divLit 6 17 1 0x800100eb) 4 &&
    decodes [0xC14D, 0x001B, 0x8001, 0x00EC] (.divuLit 9 20 1 0x800100ec) 4 &&
    decodes [0xC165, 0xC01F, 0x8001, 0x00ED] (.remLit 12 23 1 0x800100ed) 4 &&
    decodes [0xC17E, 0x8023, 0x8001, 0x00EE] (.remuLit 15 26 1 0x800100ee) 4 &&
    decodes [0xC197, 0x4027, 0x8001, 0x00EF] (.andLit 18 29 1 0x800100ef) 4 &&
    decodes [0xC1A8, 0x002B, 0x8001, 0x00F0] (.orLit 21 0 1 0x800100f0) 4 &&
    decodes [0xC1C0, 0xC02F, 0x8001, 0x00F1] (.xorLit 24 3 1 0x800100f1) 4 &&
    decodes [0xC1D9, 0x8033, 0x8001, 0x00F2] (.andnLit 27 6 1 0x800100f2) 4 &&
    decodes [0xC1F2, 0x4037, 0x8001, 0x00F3] (.shlLit 30 9 1 0x800100f3) 4 &&
    decodes [0xC10B, 0x003B, 0x8001, 0x00F4] (.shrLit 1 12 1 0x800100f4) 4 &&
    decodes [0xC123, 0xC03F, 0x8001, 0x00F5] (.sarLit 4 15 1 0x800100f5) 4 &&
    decodes [0xC13C, 0x8043, 0x8001, 0x00F6] (.rotLit 7 18 1 0x800100f6) 4 &&
    decodes [0xC155, 0x4047, 0x8001, 0x00F7] (.minLit 10 21 1 0x800100f7) 4 &&
    decodes [0xC16E, 0x004B, 0x8001, 0x00F8] (.maxLit 13 24 1 0x800100f8) 4 &&
    decodes [0xC186, 0xC04F, 0x8001, 0x00F9] (.minuLit 16 27 1 0x800100f9) 4 &&
    decodes [0xC19F, 0x8053, 0x8001, 0x00FA] (.maxuLit 19 30 1 0x800100fa) 4 &&
    decodes [0xC1B0, 0x4063, 0x8001, 0x00FB] (.sextLit 22 1 1 0x800100fb) 4 &&
    decodes [0xC1C9, 0x0067, 0x8001, 0x00FC] (.zextLit 25 4 1 0x800100fc) 4 &&
    decodes [0xC1E1, 0xC06B, 0x8001, 0x00FD] (.bfxLit 28 7 1 0x800100fd) 4 &&
    decodes [0xC1FA, 0x806F, 0x8001, 0x00FE] (.bfiLit 31 10 1 0x800100fe) 4 &&
    decodes [0xC113, 0x4073, 0x8001, 0x00FF] (.selpLit 2 13 1 0x800100ff) 4 &&
    decodes [0xC12C, 0x0077, 0x8001, 0x0100] (.addsatLit 5 16 1 0x80010100) 4 &&
    decodes [0xC144, 0xC07B, 0x8001, 0x0101] (.subsatLit 8 19 1 0x80010101) 4 &&
    decodes [0xC15D, 0x807F, 0x8001, 0x0102] (.maddLit 11 22 1 0x80010102) 4 &&
    decodes [0xC176, 0x4083, 0x8001, 0x0103] (.cmpeqLit 14 25 1 0x80010103) 4 &&
    decodes [0xC18F, 0x0087, 0x8001, 0x0104] (.cmpneLit 17 28 1 0x80010104) 4 &&
    decodes [0xC1A7, 0xC08B, 0x8001, 0x0105] (.cmpltLit 20 31 1 0x80010105) 4 &&
    decodes [0xC1B8, 0x808F, 0x8001, 0x0106] (.cmpleLit 23 2 1 0x80010106) 4 &&
    decodes [0xC1D1, 0x4093, 0x8001, 0x0107] (.cmpltuLit 26 5 1 0x80010107) 4) = true := by decide +kernel

theorem test_decode_literals : (decodes [0xC1EA, 0x0097, 0x8001, 0x0108] (.cmpleuLit 29 8 1 0x80010108) 4 &&
    decodes [0xC838, 0x0000, 0x8001, 0x0109] (.lit 7 0x80010109) 4 &&
    decodes [0xC848, 0x0400, 0x8001, 0x010A] (.lith 9 0x8001010a) 4 &&
    decodes [0xC930, 0x4003, 0x8001, 0x010B] (.pandLit 6 1 1 0x8001010b) 4 &&
    decodes [0xC909, 0x0007, 0x8001, 0x010C] (.porLit 1 4 1 0x8001010c) 4 &&
    decodes [0xC921, 0xC00B, 0x8001, 0x010D] (.pxorLit 4 7 1 0x8001010d) 4 &&
    decodes [0xCE03, 0xC003, 0x8001, 0x010E] (.jrLit 15 1 0x8001010e) 4 &&
    decodes [0xCE97, 0x4007, 0x8001, 0x010F] (.jalrLit 18 29 1 0x8001010f) 4 &&
    decodes [0xCE00, 0x000B, 0x8001, 0x0110] (.retLLit 1 0x80010110) 4 &&
    decodes [0xD4C0, 0xDC9F, 0x8001, 0x0111] (.ldLit 24 3 14 1 0 7 1 0x80010111) 4 &&
    decodes [0xD5D9, 0xA26A, 0x8001, 0x0112] (.stLit 27 6 17 0 3 2 0x80010112) 4 &&
    decodes [0xD907, 0x9202, 0x8001, 0x0113] (.prefLit 30 9 0 0x80010113) 4 &&
    decodes [0xDA4D, 0x2E40, 0x8001, 0x0114] (.cpy 9 20 11 18 0x80010114) 4 &&
    decodes [0xDA55, 0x2E42, 0x8001, 0x0115] (.cpyin 10 20 11 18 0x80010115) 4 &&
    decodes [0xDA5D, 0x2E44, 0x8001, 0x0116] (.cpyout 11 20 11 18 0x80010116) 4 &&
    decodes [0xDA48, 0x3226, 0x8001, 0x0117] (.cpyz 9 12 17 0x80010117) 4 &&
    decodes [0xDAE8, 0xBA68, 0x8001, 0x0118] (.cpycv 29 2 14 19 0x80010118) 4 &&
    decodes [0xDB35, 0x6B80, 0x8001, 0x0119] (.gather 6 21 10 28 0x80010119) 4 &&
    decodes [0xDB3D, 0x6B82, 0x8001, 0x011A] (.scatter 7 21 10 28 0x8001011a) 4 &&
    decodes [0xE3AC, 0x40AB, 0x8001, 0x011B] (.coll 21 17 1 0 5 3 0x8001011b) 4) = true := by decide +kernel

/-- The registers that the register claims read (AluRegister, AluLiteral, Divide, AluThree, OneSource, BitCounts, Compares): two held
values, the zero register, and s31 with a filled receive queue. -/
theorem witness_registers : (let s := on .ctl worker [(1, 7), (2, 0xFFFFFFFFFFFFFFFF)]
    let r := s.modSeq (fun x => { x with rq := [⟨0, some 5, 2⟩] })
    okIs (s.scalars [1, 1, 2]) () && okIs (s.scalars [31, 31, 31]) () && okIs (s.src 1) (7, 0) && okIs (s.src 2) (0xFFFFFFFFFFFFFFFF, 0) && okIs (s.src 0) (0, 0) &&
    okIs (r.src 31) (5, 2)) = true := by decide +kernel

theorem witness_AluRegister : next (exec (.add 3 1 2 0) (on .ctl worker [(1, 7), (2, 0xFFFFFFFFFFFFFFFF)])) (fun t => t.seq.reg 3 == 6 && t.seq.pc == 36) = true := by decide +kernel
/-- R42: -7 / 2 is -3 and -7 rem 2 is -1; -2^63 / -1 wraps; division by zero is 0xB0. -/
theorem test_divide : (let s := on .st worker [(1, -7), (2, 2), (3, 0x8000000000000000), (4, -1)]
    next (exec (.div 5 1 2 0) s) (fun t => t.seq.reg 5 == -3) && next (exec (.rem 5 1 2 0) s) (fun t => t.seq.reg 5 == -1) &&
    next (exec (.div 5 3 4 0) s) (fun t => t.seq.reg 5 == 0x8000000000000000) &&
    next (exec (.divu 5 1 0 0) s) (fun t => t.seq.cause == 0xB0 && t.seq.run == .halted && t.seq.pc == 34)) = true := by decide +kernel
/-- R106: position 4, length 8 (len field 7): bits 11 to 4. -/
theorem test_fields : (let s := on .ex worker [(1, 0xABCD), (2, 0x0704), (3, 0xFFFFFFFFFFFFFFFF)]
    next (exec (.bfx 4 1 2 0) s) (fun t => t.seq.reg 4 == 0xBC) && next (exec (.bfi 3 1 2 0) s) (fun t => t.seq.reg 3 == 0xFFFFFFFFFFFFFCDF) &&
    next (exec (.sari 4 3 63) s) (fun t => t.seq.reg 4 == 0xFFFFFFFFFFFFFFFF) && next (exec (.clz 4 1 0) s) (fun t => t.seq.reg 4 == 48)) = true := by decide +kernel
/-- A write to s0 is discarded; a register that names both source and destination reads the old value (R102). -/
theorem test_discard : (let s := on .ctl worker [(1, 7)]
    next (exec (.add 0 1 1 0) s) (fun t => t.seq.reg 0 == 0) && next (exec (.addShort 1 1) s) (fun t => t.seq.reg 1 == 14)) = true := by decide +kernel
theorem witness_FieldBits : (63 : Nat) < 64 := by decide
/-- CMPI with LT against -3, of Table 7-12. -/
theorem test_cmpi : (let s := on .ctl worker [(5, -4)]
    next (exec (.cmpi 2 5 2 (-3)) s) (fun t => t.pred 2) && next (exec (.cmpi 2 5 4 (-3)) s) (fun t => t.pred 2) && next (exec (.cmpi 2 5 6 (-3)) s) (fun t => !t.pred 2)) = true := by decide +kernel
theorem witness_Predicates : (0 : BitVec 3) ≠ 1 := by decide

/-- A place where a block is entered: at its HDR, outside a body. -/
def entry : State := (on .ctl worker []).modSeq (fun x => { x with inBody := false, pc := 32 })
/-- The largest body that fits the code of 16 parcels, a repeated one, and each refusal (R71). -/
theorem witness_BlockEntry : (entry.seq.inBody == false && decide (entry.seq.pc + 2 + (14 : BitVec 12).toNat ≤ entry.codeEnd) && decide ((14 : BitVec 12).toNat ≤ 510) &&
    decide (entry.codeEnd < entry.seq.pc + 2 + (15 : BitVec 12).toNat) && (on .ctl worker []).seq.inBody &&
    decide (510 < (511 : BitVec 12).toNat) && next (exec (.hdr 2 14) entry) (fun t => t.seq.passes == 2 && t.seq.inBody && t.seq.pc == 34) &&
    next (exec (.hdr 0 15) entry) (fun t => t.seq.cause == 5)) = true := by decide +kernel
theorem witness_BlockPasses : (let x := (on .ctl worker []).seq
    decide (47 < x.hdr + 2 + x.length) && decide (x.hdr + 2 + x.length ≤ 48) && x.passes == 0 && decide (0 < ({ x with passes := 1 } : SeqState).passes)) = true := by decide +kernel

/-- A body whose parcels the sequencer has read: `rep 4, d, a`, `mov s16, s20` (Table 5-11). -/
def reading (ps : List Parcel) (s : State) : State :=
  s.modSeq (fun x => { x with granules := [(2, BitVec.ofNat 256 (numOf (([0xC000, 0x000E] ++ ps).flatMap (fun (p : Parcel) => [p.extractLsb' 0 8, p.extractLsb' 8 8]))))] })
theorem witness_Prefixes : (let s := reading [0x80C3, 0x0C14] (on .ctl worker [(20, 9)])
    okAnd (s.repTarget s.seq.pc) (fun r => okIs (r.1.repRuns ((encode (.rep 0 0 0 1 1 3)).headD 0) r.2) ()) && wfPattern 1 2 &&
    okAny (s.covered 2 (s.seq.pc + 2)) && next (exec (.rep 0 0 0 1 1 3) s) (fun t => t.seq.rep == some ⟨34, 0x80C3, 0⟩)) = true := by decide +kernel

/-- Code of context 0 at 0x30000: an HDR at parcel 32 (Table 5-11), then NOPs. A core whose translations must be fresh (R253). -/
def codeHandle : BitVec 256 := 0x6a3919144dac569c800000008800000000000012000002000000000000030000
def coded (q : Sq) (vs : List (Nat × Word)) : State :=
  let s := on q { worker with task := some { Task.placed with code := codeHandle }, invals := [⟨0, Quad.all true, false, 0, 0⟩] } vs
  { s with hbm := s.hbm ++ [(0x30041, 0xC0), (0x30042, 0x0E)] }
/-- Targets: an HDR; one parcel past it; just before and at the end of the code (R74). -/
theorem witness_TransferEnters : (let s := coded .ctl []
    okAnd (State.parcel (s.modSeq (fun x => { x with granules := [] })) 32) (fun r => isHdrParcel r.2) &&
    okAnd (State.parcel (s.modSeq (fun x => { x with granules := [] })) 33) (fun r => !isHdrParcel r.2) && s.codeEnd == 48) = true := by decide +kernel
theorem witness_Branches : (let s := coded .ctl [(1, 32), (2, 33), (30, 32)]
    okAny (s.transfer (s.seq.pc + (-2 : BitVec 24).toInt)) && okAny (s.transfer (s.seq.pc + (-2 : BitVec 11).toInt)) && okIs (s.scalars [30]) () &&
    okAny ((s.put 30 (BitVec.ofNat 64 (s.seq.pc + 2)) 0).transfer (s.seq.pc + (-2 : BitVec 24).toInt)) && okIs (s.scalars [3, 1]) () && okIs (s.src 1) (32, 0) && okIs (s.src 2) (33, 0) &&
    okAny (((s.pop [1]).addControl 0).transfer (((32 : Word).toNat : Int))) && okAny (((s.pop [2]).addControl 0).transfer ((33 : Word).toNat + (-1 : BitVec 32).toInt)) &&
    okIs (s.src 30) (32, 0) && wfBranchCond 7 6 && wfBranchCond 0 7 && s.pred 7 == false) = true := by decide +kernel
theorem witness_BranchOnRegister : (let s := coded .ld [(1, 0), (2, 0x8000000000000000)]
    okIs (s.scalars [1]) () && okIs (s.src 1) (0, 0) && okIs (s.src 2) (0x8000000000000000, 0) &&
    okAny (((s.pop [1]).addControl 0).transfer (s.seq.pc + (-2 : BitVec 16).toInt)) &&
    next (exec (.brc 1 0 (-2)) s) (fun t => t.seq.pc == 32) && next (exec (.brc 2 3 (-2)) s) (fun t => t.seq.pc == 36) && next (exec (.brc 1 0 (-1)) s) (fun t => t.seq.cause == 4)) = true := by decide +kernel
/-- R119: from 1 it falls through, from 0 it leaves 2^64 - 1 and branches. -/
theorem witness_Loop : (let s := coded .ctl [(1, 1), (2, 0)]
    okIs (s.scalars [1]) () && okIs (s.src 1) (1, 0) && okIs (s.src 2) (0, 0) && okIs (s.src 0) (0, 0) && decide ((on .ex worker []).curSq ≠ .ctl) &&
    okAny ((((s.pop [2]).put 2 (-1) 0).addControl 0).transfer (s.seq.pc + (-2 : BitVec 16).toInt)) &&
    next (exec (.loop 1 (-2)) s) (fun t => t.seq.pc == 36 && t.seq.reg 1 == 0) && next (exec (.loop 2 (-2)) s) (fun t => t.seq.pc == 32 && t.seq.reg 2 == -1)) = true := by decide +kernel

/-- Queue 0 runs from ld to ex (R10): ld adds to it and ex takes from it; counts at both ends of their range. -/
theorem witness_Tokens : (let f := fun (n : Nat) => ({ worker with tokens := worker.tokens.setIfInBounds 0 n } : Core)
    let s := on .ld (f 65534) [(1, 0), (2, 0x10000)]
    let e := on .ex (f 2) [(1, 1), (2, 0x10000)]
    queueSource 0 == s.curSq.num && queueDest 0 == e.curSq.num && okIs (s.scalars [1]) () && okIs (s.src 1) (0, 0) && okIs (e.src 2) (0x10000, 0) && s.cur.tokenCount 0 == 65534 &&
    next (exec (.tks 0 0) s) (fun t => t.cur.tokenCount 0 == 65535) && next (exec (.tks 1 0) s) (fun t => t.seq.cause == 0x27 && t.cur.tokenCount 0 == 65534) &&
    next (exec (.tksL 0 1 1) s) (fun t => t.cur.tokenCount 0 == 65535) && next (exec (.tkw 1 0) e) (fun t => t.cur.tokenCount 0 == 0) &&
    next (exec (.tkw 2 0) e) (fun t => t.seq.run == .waiting && t.cur.tokenCount 0 == 2) && next (exec (.tkwL 0 1 1) e) (fun t => t.cur.tokenCount 0 == 0) &&
    next (exec (.tkwL 0 2 0) e) (fun t => t.seq.cause == 0x27)) = true := by decide +kernel
theorem witness_TokenSides : (let s := on .st worker []
    decide (queueSource 0 ≠ s.curSq.num) && decide (queueDest 11 ≠ (on .ld worker []).curSq.num) && next (exec (.tks 0 0) s) (fun t => t.seq.cause == 3)) = true := by decide +kernel

/-- A rill of two slots, one filled. -/
def rilled : Core := { worker with rills := worker.rills.setIfInBounds 15 (some ⟨0, 256, 2, 1, 0, 1⟩) }
theorem witness_Rills : (let s := on .st rilled [(1, 0), (2, 2)]
    decide ((15 : BitVec 4).toNat < s.cur.decl.rills) && decide (s.cur.rills[15]? = some (some ⟨0, 256, 2, 1, 0, 1⟩)) && okIs (s.scalars [1]) () && okIs (s.src 1) (0, 0) && okIs (s.src 2) (2, 0) &&
    next (exec (.adv 0 0 15) s) (fun t => decide (t.cur.rills[15]? = some (some ⟨0, 256, 2, 1, 1, 2⟩))) && next (exec (.adv 1 0 15) s) (fun t => t.seq.cause == 0xA2) &&
    next (exec (.adv 0 1 15) s) (fun t => decide (t.cur.rills[15]? = some (some ⟨0, 256, 2, 0, 0, 0⟩))) && next (exec (.adv 1 1 15) s) (fun t => t.seq.cause == 0xA2) &&
    next (exec (.wadvp 15 1 1) s) (fun t => decide (t.cur.rills[15]? = some (some ⟨0, 256, 2, 1, 1, 2⟩))) && next (exec (.wadvc 15 1 1) s) (fun t => decide (t.cur.rills[15]? = some (some ⟨0, 256, 2, 0, 0, 0⟩))) &&
    next (exec (.wwaitf 15 1 1) s) (fun t => t.seq.pc == 36) && next (exec (.wwaitf 15 2 0) s) (fun t => t.seq.run == .waiting) &&
    next (exec (.wwaite 15 1 1) s) (fun t => t.seq.pc == 36) && next (exec (.wwaite 15 2 1) s) (fun t => t.seq.cause == 0xA2) &&
    next (exec (.wadvp 15 1 0) s) (fun t => t.seq.pc == 36 && decide (t.cur.rills[15]? = some (some ⟨0, 256, 2, 1, 0, 1⟩)))) = true := by decide +kernel
/-- The largest geometry: 256 slots of 3,072 bytes fill the scratchpad (R13). -/
theorem witness_RillState : (let s := on .ctl worker [(1, BitVec.ofNat 64 (256 * 2 ^ 40 + 3072 * 2 ^ 20))]
    decide (0 + 3072 * 256 ≤ 0xC0000) && decide (0 + 3072 * 256 ≤ s.cur.decl.scratch) && okIs (s.scalars [2, 1]) () && okIs (s.src 1) (BitVec.ofNat 64 (256 * 2 ^ 40 + 3072 * 2 ^ 20), 0) &&
    s.cur.copies.any (fun k => fillsRill k.lit 0) == false && next (exec (.winit 0 1) s) (fun t => decide (t.cur.rills[0]? = some (some ⟨0, 3072, 256, 0, 0, 0⟩))) &&
    next (exec (.wstat 2 15) (on .ctl rilled [])) (fun t => t.seq.reg 2 == BitVec.ofNat 64 (2 * 2 ^ 34 + 2 ^ 26 + 2 ^ 9 + 1))) = true := by decide +kernel

/-- Barrier 0 of gang 0, of whose two members the other has arrived. -/
def barred (b : Barrier) (q : Sq) (vs : List (Nat × Word)) : State := { on q worker vs with gangs := [(0, ⟨[0], [(0, b)], [], [(0, b)]⟩)] }
def pair : Barrier := ⟨5, [⟨0, .ld⟩, ⟨0, .st⟩], [], [], [⟨0, .st⟩]⟩
theorem witness_Barriers : (let s := barred pair .ld [(1, 5), (2, 6)]
    let o := barred pair .ex []
    let w := barred { pair with arrived := [] } .ld []
    s.cur.decl.barriers.getLsbD 0 && s.gang.barrier 0 == pair && okIs (s.scalars [3, 1]) () && okIs (s.src 1) (5, 0) && okIs (s.src 2) (6, 0) && pair.members.contains s.me &&
    !pair.arrived.contains s.me && s.settled && s.seq.mark == none && ((s.setBarrier 0 { pair with arrived := pair.arrived ++ [s.me] }).endCycle.gang.barrier 0).arrived == [] &&
    ((w.setBarrier 0 { pair with arrived := [w.me] }).gang.barrier 0).arrived.contains w.me && !pair.members.contains o.me && !pair.joins.contains o.me &&
    decide (((5 : BitVec 32) - 5).toNat < 2 ^ 31) && decide (2 ^ 31 ≤ ((5 : BitVec 32) - 6).toNat) &&
    next (exec (.barn 3 0) s) (fun t => t.seq.reg 3 == 5 && (t.gang.barrier 0).phase == 5 && (t.endCycle.gang.barrier 0).phase == 6) && next (exec (.barr 0) w) (fun t => t.seq.run == .waiting) &&
    next (exec (.bwait 2 0) s) (fun t => t.seq.run == .waiting) && next (exec (.bjoin 0) o) (fun t => (t.gang.barrier 0).joins == [⟨0, .ex⟩])) = true := by decide +kernel
theorem witness_BarrierPhase : (let s := barred pair .ld []
    let all : Barrier := { pair with arrived := pair.members }
    s.settleBarrier all != all && all.members.all (fun m => all.arrived.contains m) && (s.settleBarrier all).phase == 6 &&
    ({ all with leaves := [⟨0, .ld⟩] } : Barrier).members.any (fun m => !([⟨0, .ld⟩] : List Party).contains m) &&
    (s.settleBarrier { all with leaves := all.members }).phase == 0) = true := by decide +kernel

/-- A superstep launch of core 0, in which all but one sequencer have arrived, in its first and its second step. -/
def stepping (steps : Nat) (arrived : List Party) (q : Sq) : State :=
  { on q { worker with task := some { Task.placed with launch := some 0, decl := { Decl.all with sstep := true } } } [] with launches := [(0, ⟨[0], steps, arrived⟩)] }
theorem witness_Supersteps : (let three : List Party := [⟨0, .ld⟩, ⟨0, .ex⟩, ⟨0, .st⟩]
    let s := stepping 0 three .ctl
    let c := stepping 1 three .ctl
    let w := stepping 0 [] .ctl
    let after := fun (s : State) (l : Launch) => ((Store.find? (State.settleLaunch { s with launches := Store.put 0 { l with arrived := l.arrived ++ [s.me] } s.launches } 0).launches 0).map Launch.steps).getD 0
    s.seq.mark == none && okIs (s.scalars [1]) () && (s.cur.task.bind Task.launch) == some 0 && Store.find? s.launches 0 == some ⟨[0], 0, three⟩ && after s ⟨[0], 0, three⟩ == 1 &&
    after c ⟨[0], 1, three⟩ == 2 && after w ⟨[0], 0, []⟩ == 0 && (on .ld worker []).cur.task.bind Task.launch == none && (on .ld worker []).seq.mark == none &&
    next (exec .sstep s) (fun t => t.seq.run == .running) && next (exec .sstep w) (fun t => t.seq.run == .waiting) && next (exec .ssync c) (fun t => t.seq.run == .running) &&
    next (exec .ssync s) (fun t => t.seq.cause == 0xA3) && next (exec (.sphase 1) c) (fun t => t.seq.reg 1 == 0x100000000)) = true := by decide +kernel

/-- Each check of R142 in turn: V; then, with the identity good, rights, alignment and bounds at the last byte and past it. -/
theorem witness_HandleCheckOrder : (let s := on .ctl worker []
    !hValid 0 && s.handleIdCause 0 chip == none && decide (hRights chip &&& 0xFF = 0xFF) && hLen chip == 0x100000 && decide (hRights codeHandle &&& rightW ≠ rightW)) = true := by decide +kernel
theorem witness_HandleCheckOrder_causes : (let cause := fun (x : Tenant) (who : Nat) (h : BitVec 256) (right : BitVec 8) (off : Nat) => ({ base with tenants := [(0, x)] } : State).accessCause who h right off 2 2
    hValid chip && Store.find? base.tenants (hTenant chip) == some tenant && sealOf tenant.sealKey chip == hSeal chip && hTenant chip == 0 && hEpoch chip == tenant.epoch && !tenant.revoked.contains (hSerial chip) && hRights chip &&& rightW == rightW &&
    hValid (chip ^^^ 1) && sealOf tenant.sealKey (chip ^^^ 1) != hSeal (chip ^^^ 1) && sealOf tenant.sealKey codeHandle == hSeal codeHandle &&
    cause tenant 0 0 rightW 0 == some 0x70 && ({ base with tenants := [] } : State).accessCause 0 chip rightW 0 2 2 == some 0x71 && cause tenant 1 (chip ^^^ 1) 0xFF 1 == some 0x71 &&
    cause { tenant with epoch := 1, revoked := [hSerial chip] } 1 chip rightW 1 == some 0x75 && cause { tenant with epoch := 1, revoked := [hSerial chip] } 0 chip rightW 1 == some 0x76 &&
    cause { tenant with revoked := [hSerial chip] } 0 chip rightW 1 == some 0x74 && cause tenant 0 codeHandle rightW 1 == some 0x72 && cause tenant 0 chip rightW 0x100001 == some 0x43 &&
    cause tenant 0 chip rightW 0x100000 == some 0x73 && cause tenant 0 chip rightW 0xFFFFE == none) = true := by decide +kernel
theorem witness_HandleAccess : (let s := on .ctl worker []
    s.accessCause 0 chip rightR 0xFFFF8 8 8 == none && s.accessCause 0 chip rightR 0x100000 8 8 == some 0x73 && s.accessCause 0 chip rightR 0xFFFFC 8 8 == some 0x43) = true := by decide +kernel
theorem witness_HandleRegisters : (let s := on .ctl { worker with handles := worker.handles.setIfInBounds 31 chip } []
    okIs (s.handleReg 31) chip && okIs (s.handleReg 0) 0 && okIs (s.scalars [1]) () && decide ((10 : BitVec 4).toNat ≤ 10) && decide ((on .ld worker []).curSq ≠ .ctl) &&
    next (exec (.hget 1 31 1) s) (fun t => t.seq.reg 1 == 0x100000) && next (exec (.hget 1 31 10) s) (fun t => t.seq.reg 1 == 1) && next (exec (.hget 1 31 11) s) (fun t => t.seq.cause == 2) &&
    next (exec (.hchk 1 0 0) s) (fun t => t.seq.reg 1 == 0x70) && next (exec (.hmov 0 31) s) (fun t => decide (t.cur.handles[0]? = some chip)) &&
    next (exec (.hclr 31) s) (fun t => decide (t.cur.handles[31]? = some 0))) = true := by decide +kernel
theorem witness_HandleMoves : (let s := on .ctl { worker with handles := worker.handles.setIfInBounds 31 chip } []
    s.curSq == .ctl && okIs (s.handleReg 31) chip && okIs (s.handleReg 0) 0) = true := by decide +kernel
theorem witness_HandleFields : (2 ^ 57 - 1 < 2 ^ 57 ∧ 1 ≤ 2 ^ 40 ∧ 2 ^ 40 ≤ 2 ^ 40 ∧ 63 < 64 ∧ 1023 < 1024 ∧ 4095 < 4096 ∧ 2 ^ 32 - 1 < 2 ^ 32) ∧
    handleField (makeHandle 0 (2 ^ 57 - 1) (2 ^ 40) 0xFF 0xFF 63 1023 4095 1023 0xFF (2 ^ 32 - 1)) 1 = 2 ^ 40 := by decide +kernel
theorem witness_HandleMemory : (let s := on .ctl { worker with handles := (worker.handles.setIfInBounds 31 chip).setIfInBounds 1 0xFFFF } [(1, 0xBFFE0)]
    okIs (s.scalars [1]) () && okIs (s.handleReg 1) 0xFFFF && okIs (s.handleReg 31) chip && okIs (s.src 1) (0xBFFE0, 0) && okIs (s.after 0) () &&
    okAnd (s.reach chip rightR (offsetOf 0xBFFE0 0) 32 32 .read) (fun r => okIs (r.1.readNow r.2) (List.replicate 32 0)) &&
    okAnd (s.reach chip rightW (offsetOf 0xBFFE0 0) 32 32 .write) (fun r => okIs (r.1.writable r.2) () && r.2.head? == some (.win 0 0xBFFE0)) &&
    next (exec (.hst 1 1 31) s) (fun t => t.readLoc (.win 0 0xBFFE0) == 0xFF && t.readLoc (.win 0 0xBFFE2) == 0)) = true := by decide +kernel

def asked (m : List (Nat × MintReq)) : State := on .ctl { worker with mints := m } [(1, 0x1000), (2, 64), (3, 3)]
theorem witness_MintRequests : (let s := asked []
    let w := asked [(7, ⟨0, 0x1000, 64, 3, none⟩)]
    let r := asked [(7, ⟨0, 0x1000, 64, 3, some (0, chip)⟩)]
    s.curSq == .ctl && okIs (s.scalars [1, 2, 3]) () && okIs (s.handleReg 4) 0 && decide ((28 : BitVec 5).toNat ≤ 28) && okIs (s.src 1) (0x1000, 0) && okIs (s.src 2) (64, 0) && okIs (s.src 3) (3, 0) &&
    Store.find? s.cur.mints 7 == none && (Store.find? w.cur.mints 7).any (fun m => m.answer == none) && (Store.find? r.cur.mints 7).any (fun m => m.answer == some (0, chip)) &&
    next (exec (.hwait 4 1 7) s) (fun t => t.seq.cause == 0x27) && next (exec (.hwait 4 1 7) r) (fun t => t.seq.reg 1 == 0 && t.cur.mints == [] && decide (t.cur.handles[4]? = some chip))) = true := by decide +kernel
theorem witness_MintAnswers : (let s := asked [(7, ⟨0, 0x1000, 64, 3, none⟩)]
    let bad : MintAsk := ⟨0, 0, 3, 0, 0, true⟩
    Store.find? s.tenants 0 == some tenant && s.mintStatus 0 0 false (mintAsk 0x1000 64 3) == 0 && bad.reserved && s.mintStatus 0 0 false bad == 2 &&
    s.mintStatus 0 0 false ⟨2 ^ 57 - 2 ^ 40, 2 ^ 40, 3, 0, 10, false⟩ == 0 && s.mintStatus 0 0 false ⟨0x1000, 64, 3, 0, 11, false⟩ == 3 && s.mintStatus 0 0 false ⟨0, 2 ^ 40 + 1, 3, 0, 11, false⟩ == 3 &&
    (s.core 0).task.isSome && (s.core 0).mints.any (fun p => p.2.answer.isNone && p.2.order < 0) == false &&
    next (exec (.mintAnswer 0 7) s) (fun t => (Store.find? (t.core 0).mints 7).any (fun m => m.answer.isSome))) = true := by decide +kernel
theorem witness_MintAnswers_order : (let st := fun (x : Tenant) (q : MintAsk) => ({ base with tenants := [(0, x)] } : State).mintStatus 0 0 false q
    let q : MintAsk := mintAsk 0x1000 64 3
    let none' := fun (q : MintAsk) => ({ base with tenants := [] } : State).mintStatus 0 0 false q
    let used := { tenant with nextSerial := 2 ^ 32, policy := { policy with hreqRights := 0 } }
    !q.reserved && !q.flags.getLsbD 2 && excluded 3 5 && !excluded q.rights q.flags && decide (2 ^ 57 ≤ (2 ^ 57 - 1) + Nat.max 64 1 - 1) && policy.ranges.all (fun r => !(decide (q.base < r.1) || decide (r.2 < 0x103F))) &&
    st used { q with base := 2 ^ 57 - 1, len := 64, fmt := 11 } == 2 && st used { q with fmt := 11 } == 3 && st used q == 1 && st { tenant with nextSerial := 2 ^ 32 } q == 5 && st tenant q == 0 &&
    st tenant { q with base := 2 ^ 50, flags := 4 } == 2 && none' q == 4 && none' { q with flags := 5, rights := 3 } == 1 && decide (q.base + q.len ≤ 2 ^ 57)) = true := by decide +kernel
def sweepDone : Sweep := ⟨0, 9, false, false, none, 4, 3, 2, false, true⟩
theorem witness_KeyInstructions : (let s := on .ctl worker [(1, 0xFFFFFFFF), (2, 0x100000000)]
    let w := fun (x : Sweep) => State.modSeq { s with sweeps := [(0, x)] } (fun x => { x with mark := some (.sweep 0 3 false) })
    let b := { s with tenants := [(0, { tenant with rotating := true, marks := [(31, 5)] })] }
    s.curSq == .ctl && okIs (s.scalars [3]) () && okIs (s.scalars [3, 1]) () && s.seq.mark == none && okIs (s.src 1) (0xFFFFFFFF, 0) && okIs (s.src 2) (0x100000000, 0) && s.who.tenant == 0 &&
    (w sweepDone).seq.mark == some (.sweep 0 3 false) && Store.find? (w sweepDone).sweeps 0 == some sweepDone && sweepDone.done && !(({ sweepDone with done := false } : Sweep).done) &&
    Store.find? s.tenants 0 == some tenant && !tenant.rotating && policy.permitRotate && decide (1 < 2 ^ 32 - 1) && (Store.find? b.tenants 0).any (fun x => x.rotating) && decide ((33 : BitVec 10).toNat ≤ 33) &&
    next (exec (.hrevk 3 1) s) (fun t => t.seq.run == .waiting && t.sweeps.length == 1) && next (exec (.hrevk 3 1) (w sweepDone)) (fun t => t.seq.reg 3 == 0x200000003 && t.sweeps == []) &&
    next (exec (.hrevkAll 3) (w { sweepDone with done := false })) (fun t => t.seq.run == .waiting) && next (exec (.hrevk 3 2) s) (fun t => t.seq.cause == 2) &&
    next (exec (.kstat 3 33) s) (fun t => t.seq.reg 3 == 0xFFFFFFFF) && next (exec (.kstat 3 32) b) (fun t => t.seq.reg 3 == 5) && next (exec (.krot 3) b) (fun t => t.seq.reg 3 == 0x8000000000000001)) = true := by decide +kernel
theorem witness_KeyRotation : (let s := on .ctl worker []
    (match (s.beginRotation 0 true).2 with | .ok g => g == 2 | .error _ => false)) = true := by decide +kernel
theorem witness_TrapRaises : ((14 : BitVec 4) ≠ 15 ∧ (0xE0000E00 : BitVec 32).extractLsb' 24 8 = 0xE0 ∧ (0xE0000E00 : BitVec 32).extractLsb' 0 8 = 0 ∧ (0xE0000E00 : BitVec 32).extractLsb' 12 12 = 0 ∧
    (0xE0001000 : BitVec 32).extractLsb' 24 8 = 0xE0 ∧ (0xE0001000 : BitVec 32).extractLsb' 0 8 = 0 ∧ (0xE0001000 : BitVec 32).extractLsb' 12 12 ≠ 0) ∧
    next (exec (.trap 3) (on .ctl worker [])) (fun t => t.seq.statusWord == 34 * 2 ^ 32 + 0xF3 * 2 ^ 24 + 4 * 2 ^ 20) = true := by decide +kernel
theorem witness_SystemRegisters : (let s := on .ex worker [(1, 3), (2, 31)]
    okIs (s.scalars [1]) () && okIs (s.src 1) (3, 0) && okIs (s.src 2) (31, 0) && wfSysReg 0x21 && !wfSysReg 0x0D && s.curSq == .ex && decide ((on .ld worker []).curSq ≠ .ex) &&
    next (exec (.sets 1 1) s) (fun t => t.cur.fpmode == 3) && next (exec (.sets 2 2) s) (fun t => t.cur.fpflags == 31) && next (exec (.gets 2 1) (on .ld worker [])) (fun t => t.seq.cause == 3)) = true := by decide +kernel
theorem witness_SystemReads : (let s := on .ctl worker []
    let o := { s with queues := [(0, { queue with ctx := 1 })] }
    okIs (s.scalars [1]) () && s.curSq == .ctl && Store.find? s.queues (64 * s.who.tenant + (0 : BitVec 6).toNat) == some queue && queue.ctx == s.who.ctx &&
    Store.find? o.queues 0 == some { queue with ctx := 1 } && decide ((on .ld worker []).curSq ≠ .ctl) &&
    next (exec (.clk 1 1) { s with cycle := 17 }) (fun t => t.seq.reg 1 == 10) && next (exec (.enrg 1 0 0) o) (fun t => t.seq.cause == 0x41) &&
    next (exec (.yield 1) { s with ctxs := [(0, { ctx with draining := some (0, false) })] }) (fun t => t.seq.reg 1 == 1)) = true := by decide +kernel
/-- Queue 0, full at 16 records and with room, in ERROR, and none; the ring's pages are translated anew (R253). -/
def launching (qs : List (Nat × Queue)) : State :=
  { on .ctl { worker with handles := worker.handles.setIfInBounds 31 chip, invals := [⟨0, Quad.all true, false, 0, 0⟩] } [(1, 0), (2, 0x1000)] with queues := qs }
theorem witness_LaunchAnswers : (let s := launching [(0, queue)]
    decide ((29 : BitVec 5).toNat ≤ 29) && okIs (s.scalars [3, 1, 2]) () && okIs (s.handleReg 31) chip && okIs (s.src 1) (0, 0) && okIs (s.src 2) (0x1000, 0) && okIs (s.after 0) () &&
    okAnd (s.reach chip rightR (offsetOf 0x1000 0) 256 256 .read) (fun r => okAny (r.1.readNow r.2)) && s.ownQueue 0 == some queue && (launching []).ownQueue 0 == none &&
    !queue.error && !queue.full && ({ queue with tail := 16 } : Queue).full && (launching [(0, { queue with error := true })]).ownQueue 0 == some { queue with error := true } &&
    okAnd (s.locateRange s.who false .write false (s.cur.mapping s.curSq) 2 (queue.ringBase + 256 * (15 % 2 ^ queue.ringLog)) 256) (fun r => okIs (r.1.writable r.2) () && r.2.head? == some (.hbm 0x100F00))) = true := by decide +kernel
theorem witness_QueueReads : (let s := launching [(0, { queue with error := true, head := 2, tail := 3 })]
    s.curSq == .ctl && okIs (s.scalars [3, 1]) () && okIs (s.src 1) (0, 0) && next (exec (.qstat 3 1) s) (fun t => t.seq.reg 3 == 0x200000003) &&
    next (exec (.qstat 3 1) (launching [])) (fun t => t.seq.reg 3 == 0)) = true := by decide +kernel
theorem witness_QueueReads_states : (let r := fun (flags : Nat) (ph : RecPhase) => ({ Record.new 0 (BitVec.ofNat 2048 (flags * 2 ^ 32)) false 0 0 with phase := ph } : Record)
    let q := fun (rs : List Record) => launching [(0, { queue with head := 2, tail := 4, records := rs })]
    (r 1 .running).bits.getLsbD 32 && !(r 0 .running).bits.getLsbD 32 && RecPhase.started .running && !RecPhase.started .appended &&
    next (exec (.qstat 3 1) (q [r 1 .running, r 0 .appended])) (fun t => t.seq.reg 3 == 0x200020002) && next (exec (.qstat 3 1) (q [r 0 .running, r 0 .appended])) (fun t => t.seq.reg 3 == 0x200020001) &&
    next (exec (.qstat 3 1) (q [r 1 .running, r 0 .complete])) (fun t => t.seq.reg 3 == 0x200010001) && next (exec (.qstat 3 1) (q [])) (fun t => t.seq.reg 3 == 0x200000000)) = true := by decide +kernel

/-- A handle of tenant 0 to its first 1 MiB, with every right. -/
def plain : BitVec 256 := 0xa91576be0c2769008000000080000000000001fe000020000000000000000000
/-- Core 0 with handles h1 to memory and h2 to its scratchpad; translations are fresh (R253). -/
def access (q : Sq) (f : Core → Core) (vs : List (Nat × Word)) : State :=
  on q (f { worker with handles := (worker.handles.setIfInBounds 1 plain).setIfInBounds 2 chip, invals := [⟨0, Quad.all true, false, 0, 0⟩] }) vs
/-- Tags T0 to T15 all stand for loads. -/
def tagged (hi : Nat) (c : Core) : Core := { c with tags := (List.range hi).map (fun i => (i, [i + 100])) }
theorem witness_Loads : (let s := access .ld id [(1, 0x4000)]
    wfLoad 5 1 4 0 && wfLoad 3 0 0 1 && okIs (s.scalars [5, 1]) () && okIs (s.handleReg 1) plain && okIs (s.handleReg 2) chip && okIs (s.src 1) (0x4000, 0) &&
    okAnd (s.reach plain rightR (offsetOf 0x4000 (-8)) 8 8 .read) (fun r => okIs (r.1.readNow r.2) (List.replicate 8 0) && r.2.head? == some (.hbm 0x3FF8)) &&
    okAnd (s.reach chip rightR (offsetOf 0x4000 0) 8 8 .read) (fun r => okIs (r.1.readNow r.2) (List.replicate 8 0)) &&
    decide (s.cur.requests < 1024) && decide ((s.cur.seqs.get (Sq.ofNum 3)).rq.length < 16) && localAccess 0 chip 0x4000 && !localAccess 0 plain 0x4000 && s.cur.freeTag 0 11 == some 0 &&
    (tagged 12 worker).freeTag 0 11 == some 15 && (tagged 16 worker).freeTag 0 11 == none) = true := by decide +kernel
theorem test_load : (next (exec (.ld 5 1 1 3 1 4 0) (access .ld id [(1, 0x4000)])) (fun t => t.seq.set 5 == 1 && t.cur.loads.length == 1) &&
    next (exec (.ld 5 1 1 3 1 4 0) (access .ld (tagged 16) [(1, 0x4000)])) (fun t => t.seq.run == .waiting && t.cur.loads == [])) = true := by decide +kernel

/-- A load of two bytes from memory at 0x10000, whose first bytes are 01 00 (the table there). -/
def request : LoadReq := ⟨7, .ld, [.hbm 0x10000, .hbm 0x10001], .reg 5, some 0, none, false, false, false, [], none, [], 0, 0, false⟩
def loaded (l : LoadReq) : State :=
  let s := on .ld { worker with loads := [l], tags := [(0, [7])] } []
  s.modSeq (fun x => { x with pending := x.pending.setIfInBounds 5 (some 7), taint := x.taint.setIfInBounds 6 1 })
theorem witness_LoadEvents : (let s := loaded request
    let q := (loaded { request with dest := .queue .ex }).modCore 0 (fun c => c.modSeq .ex (fun x => { x with rq := [⟨7, none, 1⟩] }))
    (s.core 0).loadAt 7 == some (request, []) && request.value == none && !request.atomic && !request.delivered && !request.performed && !(s.core 0).blocked request.deps &&
    !request.locs.any s.unverified && firstCause s.readCause request.locs == none && decide (((s.core 0).seqs.get .ld).pending[5]? = some (some 7)) && Store.find? (s.core 0).tags 0 == some [7] &&
    (q.core 0).loadAt 7 == some ({ request with dest := .queue .ex }, []) &&
    next (exec (.loadValueDelivery 0 7) s) (fun t => decide (((t.core 0).seqs.get .ld).regs[5]? = some 1)) &&
    next (exec (.loadPerformed 0 7) s) (fun t => ((t.core 0).seqs.get .ld).set 6 == 0)) = true := by decide +kernel

theorem witness_Stores : (let s := access .st id [(1, 0xFFFF8), (2, 0x1122334455667788)]
    s.curSq == .st && okIs (s.scalars [2, 1]) () && okIs (s.handleReg 1) plain && okIs (s.src 1) (0xFFFF8, 0) && okIs (s.src 2) (0x1122334455667788, 0) && decide (s.cur.requests < 1024) && wfStore 1 4 &&
    okAnd (s.reach plain rightW (offsetOf 0xFFFF8 0) 8 8 .write) (fun r => r.2.length == 8) &&
    okAnd (s.reach plain (rightR ||| rightW ||| rightA) (offsetOf 0xFFFF8 0) 8 8 .atomic) (fun r => okIs (r.1.readNow r.2) (List.replicate 8 0))) = true := by decide +kernel
def storing (k : StoreKind) : State := on .st { worker with stores := [⟨3, .st, [.win 0 64, .win 0 65, .win 0 66, .win 0 67], k, []⟩], loads := [⟨2, .st, [], .reg 5, none, none, false, false, true, [], none, [], 0, 0, false⟩] } []
theorem witness_StorePerforms : (let s := storing (.plain [1, 2, 3, 4])
    let a := storing (.atomic .add 5 0 (some 2))
    let ls : List Loc := [.win 0 64, .win 0 65, .win 0 66, .win 0 67]
    ((s.core 0).stores.find? (fun y => y.id == 3)).any (fun x => s.storeReady (s.core 0) x) && s.memoryWf && decide (ls.map s.cell).Nodup && ls.all Loc.isMemory && !ls.contains .discarded &&
    ((a.core 0).stores.find? (fun y => y.id == 3)).any (fun x => a.storeReady (a.core 0) x) && bytesOf 4 (atomResult .add 4 0 5 0).toNat == [5, 0, 0, 0] && firstCause a.readCause ls == none &&
    next (exec (.storePerformed 0 3) s) (fun t => t.readLocs ls == [1, 2, 3, 4] && (t.core 0).stores == []) &&
    next (exec (.storePerformed 0 3) a) (fun t => t.readLocs ls == [5, 0, 0, 0] && (t.core 0).loads.all (fun l => l.value == some 0 && l.performed))) = true := by decide +kernel
theorem witness_Atomics : (let s := access .st id [(29, 0xFFFF8), (30, 5), (31, 6)]
    let c := access .st id [(28, 0x80), (29, 5), (30, 6)]
    wfScope 4 && wfGroup 30 1 && wfGroup 29 2 && s.curSq == .st && okIs (s.scalars [5, 29, 30]) () && okIs (c.scalars [5, 28, 29, 30]) () && okIs (s.handleReg 1) plain && okIs (c.handleReg 2) chip &&
    okIs (s.src 29) (0xFFFF8, 0) && okIs (s.src 30) (5, 0) && okIs (c.src 30) (6, 0) && okAnd (s.reach plain rightA (offsetOf 0xFFFF8 0) 8 8 .atomic) (fun r => okAny (r.1.readNow r.2)) &&
    okAnd (c.reach chip rightA (offsetOf 0x80 0) 8 8 .atomic) (fun r => okAny (r.1.readNow r.2)) && decide (s.cur.requests < 1024) && localAccess 0 chip 0x80 && !localAccess 0 plain 0xFFFF8 &&
    s.cur.freeTag 12 14 == some 12 && atomResult .min 4 0xFFFFFFFF 1 0 == 0xFFFFFFFF && atomResult .cas 8 7 7 9 == 9) = true := by decide +kernel

theorem witness_SignalWaits : (let s := access .ld id [(1, 0x4000), (2, 0)]
    let n := { s with hbm := s.hbm ++ [(0x24007, 0x80)] }
    s.curSq == .ld && okIs (s.scalars [2, 1]) () && okIs (s.handleReg 1) plain && okIs (s.src 1) (0x4000, 0) && okIs (s.src 2) (0, 0) && wfSignalRel 5 &&
    okAnd (s.reach plain rightR (offsetOf 0x4000 0) 8 8 .read) (fun r => !r.1.cur.inWay .ld r.2 && okIs (r.1.readNow r.2) (List.replicate 8 0)) &&
    okAnd (n.reach plain rightR (offsetOf 0x24000 0) 8 8 .read) (fun r => okIs (r.1.readNow r.2) [0, 0, 0, 0, 0, 0, 0, 0x80]) && decide ((0x8000000000000000 : Word).toInt < 0)) = true := by decide +kernel
theorem witness_OrderMarkers : (let s := on .ld { worker with alignSt := worker.alignSt.setIfInBounds 3 1 } []
    let e := on .ld (worker.modSeq .st (fun x => { x with run := .ended })) []
    let i := on .ex { worker with invals := [⟨0, ⟨true, false, true, true⟩, false, 0, 0⟩] } []
    let b := on .ex { worker with invals := [⟨0, ⟨true, false, true, true⟩, false, 0, 0⟩], me := { Me.reset with active := some ⟨Vector.replicate 36 0, none, none, 0, 0, 0, 0, 0, [], [], [], [], [], none, false, false, none⟩ } } []
    s.curSq == .ld && wfScope 4 && s.seq.mark == none && decide (s.cur.aligns .ld 3 < s.cur.aligns .st 3) && decide (s.cur.aligns .st 0 ≤ s.cur.aligns .ld 0) && s.cur.quiet .ld && s.cur.quiet .st &&
    (e.cur.seqs.get .st).run == .ended && decide (e.cur.aligns .st 3 ≤ e.cur.aligns .ld 3) && decide ((s.cur.seqs.get .st).run ≠ .ended) && okIs (s.scalars [5]) () && s.cur.invals == [] &&
    !i.cur.invals.isEmpty && i.cur.me.active == none && i.cur.me.pendingOp == none && !b.cur.invals.isEmpty && b.cur.me.active.isSome &&
    !(loaded request).cur.loads.all (fun l => l.performed || l.sq != .ld) &&
    next (exec (.align 3) s) (fun t => t.seq.run == .running && t.cur.aligns .ld 3 == 1) && next (exec (.align 0) s) (fun t => t.seq.run == .waiting) && next (exec (.align 3) e) (fun t => t.seq.cause == 0x27) &&
    next (exec (.fence 1 4) (loaded request)) (fun t => t.seq.run == .waiting) && next (exec (.fence 2 4) (loaded request)) (fun t => t.seq.run == .running) &&
    next (exec .qpt b) (fun t => t.seq.run == .waiting)) = true := by decide +kernel
theorem witness_OrderMarkers_waits : (let s := (loaded request).modCore 0 (fun c => { c with alignSt := c.alignSt.setIfInBounds 3 1 })
    !s.cur.quiet .ld && decide (s.cur.aligns .ld 3 < s.cur.aligns .st 3) && s.seq.mark == none && next (exec (.align 3) s) (fun t => t.seq.run == .waiting && t.seq.mark == some (.align 3 1))) = true := by decide +kernel
theorem witness_Prefetches : (let s := access .ld id [(1, 0x4000)]
    s.curSq == .ld && okIs (s.scalars [1]) () && okIs (s.handleReg 1) plain && okIs (s.handleReg 0) 0 && okIs (s.src 1) (0x4000, 0) && !needM 0 plain (offsetOf 0x4000 0) 1 &&
    s.handleCause 0 plain rightR == none && s.handleCause 0 0 rightR == some 0x70 && decide (offsetOf 0x4000 4 % 2 ^ 3 ≠ 0) && !s.cur.loads.any (fun l => l.acquire.isSome && !l.performed) &&
    next (exec (.prefLit 1 1 3 4) s) (fun t => t.seq.cause == 0x43)) = true := by decide +kernel
theorem witness_Spills : (let s := on .ctl worker [(5, 0x1234)]
    let t := s.modSeq (fun x => { x with taint := x.taint.setIfInBounds 5 1 })
    let d := on .ctl { worker with task := some { Task.placed with decl := { Decl.all with scratch := 0x3C0 } } } []
    let slot := (List.range 8).map (fun j => Loc.win 0 (0xC0000 - 0x400 + 0x300 + 8 * 31 + j))
    okIs (s.scalars [5]) () && okIs (s.src 5) (0x1234, 0) && okIs (t.src 5) (0x1234, 1) && decide (d.cur.decl.scratch < 0x400) && decide (0x400 ≤ s.cur.decl.scratch) && !slot.any s.unverified && !s.cur.inWay s.curSq slot &&
    okIs (s.readNow slot) (List.replicate 8 0) && next (exec (.spl 5 31) s) (fun u => u.readLoc (.win 0 0xBFFF9) == 0x12) && next (exec (.spl 5 31) t) (fun u => u.seq.run == .waiting) &&
    next (exec (.fil 5 0) d) (fun u => u.seq.cause == 0x26)) = true := by decide +kernel
theorem witness_ShapeFields : (let s := on .st worker [(1, BitVec.ofNat 64 (10 + 4 * 16 + 10 * 256 + 10 * 2 ^ 14)), (2, 0xFFFFFFFF), (3, BitVec.ofInt 64 (-(2 ^ 47))), (4, BitVec.ofInt 64 (2 ^ 47))]
    s.curSq == .st && okIs (s.scalars [1]) () && okIs (s.src 2) (0xFFFFFFFF, 0) && decide (10 + 4 * 16 + 10 * 256 + 10 * 2 ^ 14 < 2 ^ 20) && decide (-(2 ^ 47) ≤ (BitVec.ofInt 64 (-(2 ^ 47)) : Word).toInt) &&
    decide (2 ^ 47 ≤ (BitVec.ofInt 64 (2 ^ 47) : Word).toInt) && decide ((9 : BitVec 4).toNat < 10) &&
    next (exec (.cesh 1 0 15 15) s) (fun t => (t.cur.shapes[15]?).any (fun p => p.ctl == BitVec.ofNat 64 (10 + 4 * 16 + 10 * 256 + 10 * 2 ^ 14))) &&
    next (exec (.cesh 2 0 9 15) s) (fun t => t.seq.pc == 36) && next (exec (.cesh 0 0 9 15) s) (fun t => t.seq.cause == 2) && next (exec (.cesh 3 1 9 0) s) (fun t => t.seq.pc == 36) &&
    next (exec (.cesh 4 2 9 0) s) (fun t => t.seq.cause == 2) && next (exec (.cesh 0 0 15 0) s) (fun t => t.seq.cause == 2)) = true := by decide +kernel
/-- A copy in flight with a completion literal. -/
def flying (lit : BitVec 32) : Copy := ⟨4, .ld, 9, .cpy, 0, lit, chip, chip, 0x100, 0x200, 0, ⟨0x31, (Shape.unset.dims.setIfInBounds 0 ⟨4, 8, 8⟩)⟩, 0, 0, [], [], false, [], [], [], false, none, false, 0⟩
theorem witness_CompletionCounts : (let s := on .ld { worker with ccnt := 5 } [(1, 5), (2, 6)]
    let m := on .ld { worker with ccnt := 5, copies := [flying 0x40000001] } [(1, 5), (2, 6)]
    okIs (s.scalars [1]) () && okIs (s.scalars [3]) () && okIs (s.src 1) (5, 0) && okIs (s.src 2) (6, 0) && decide ((s.cur.ccnt - BitVec.ofNat 32 (5 + 0)).toNat < 2 ^ 31) && decide (2 ^ 31 ≤ (s.cur.ccnt - BitVec.ofNat 32 (6 + 0)).toNat) &&
    m.cur.copies.any (fun k => litKind k.lit == 4) && next (exec (.cwait 1 0) s) (fun t => t.seq.pc == 36) && next (exec (.cwait 2 0) s) (fun t => t.seq.cause == 0x27) &&
    next (exec (.cwait 2 0) m) (fun t => t.seq.run == .waiting)) = true := by decide +kernel

/-- The shape of four 8-byte elements, 8 bytes apart on both sides. -/
def four : Shape := ⟨0x31, Shape.unset.dims.setIfInBounds 0 ⟨4, 8, 8⟩⟩
def copying (q : Sq) (vs : List (Nat × Word)) : State := access q (fun c => { c with shapes := c.shapes.setIfInBounds 1 four }) vs
theorem witness_CopyIssues : (let s := copying .ld [(30, 0x100), (31, 0xBFFE0)]
    let (src, dst) := copySides .cpy four chip chip 0x100 0xBFFE0
    let es := four.extents
    let rights := copyRights .cpy chip chip
    wfGroup 30 1 && CopyMode.cpy.sequencers.contains s.curSq && okIs (s.scalars [30, 31]) () && okIs (s.handleReg 2) chip && decide (s.cur.copies.length < 512) && okIs (s.src 30) (0x100, 0) &&
    okIs (s.src 31) (0xBFFE0, 0) && goodLiteral .ld 0x40000001 && four.ndim != 0 && es == [4] && four.sfmt == 0 && four.dfmt == 0 && okIs (s.copyHandle src es rights.1 false false) false &&
    okIs (s.copyHandle dst es rights.2 false false) false && src.aligned es && src.inBounds es && s.sideCause src es == none && dst.aligned es && dst.inBounds es && s.sideCause dst es == none &&
    decide (product es ≤ 2 ^ 40) && s.completionCause 0x40000001 == none) = true := by decide +kernel
theorem test_copy_issues : next (exec (.cpy 2 2 1 30 0x40000001) (copying .ld [(30, 0x100), (31, 0xBFFE0)])) (fun t => t.cur.copies.length == 1 && t.seq.issued == 1) = true := by decide +kernel

/-- Element 3 of the copy in flight: 8 bytes from 0x118 to 0x218 of the scratchpad. -/
def moving (mode : CopyMode) : Copy := { flying 0x40000002 with mode := mode, next := 3 }
def engine (k : Copy) : State := on .ld { worker with copies := [k], scratch := [(0x118, 0xAA)], invals := [⟨0, Quad.all true, false, 0, 0⟩] } []
theorem witness_CopyElements : (let k := moving .cpy
    let s := engine k
    let m := s.copyMapping 0 k
    coords k.shape.extents 3 == [3] && okAnd (s.engineLocate 0 k.src 0x118 8 .read true m) (fun r => okIs (r.1.engineRead r.2) [0xAA, 0, 0, 0, 0, 0, 0, 0] &&
      okAnd (r.1.engineLocate 0 k.dst 0x218 8 .write true m) (fun w => okIs (w.1.engineMay w.2) ())) &&
    okAnd ((engine (moving .cpyz)).engineLocate 0 k.dst 0x218 8 .write true m) (fun w => okIs (w.1.engineMay w.2) ()) &&
    okAnd (s.transferUnit 0 k) (fun r => let t := r.1.modCore 0 (fun c => c.setCopy r.2);
      r.2.next == 4 && r.2.staged.length == 8 && (t.core 0).copy? 4 == some r.2 && (t.flush 0 4 (fun g => g == 16)).readLoc (.win 0 0x218) == 0xAA && t.readLoc (.win 0 0x218) == 0)) = true := by decide +kernel
/-- A GATHER at its last element, row 1 of which the index array names. -/
def gathering (index : Nat) : State × Copy :=
  let k : Copy := { moving .gather with extra := 0x800, shape := ⟨0x32, (four.dims.setIfInBounds 0 ⟨2, 8, 8⟩).setIfInBounds 1 ⟨2, 16, 16⟩⟩ }
  let s := engine k
  (s.modCore 0 (fun c => { c with scratch := [(0x38, 0xAA)] ++ Memory.writeN [] 0x804 (bytesOf 4 index) }), k)
theorem witness_CopyElements_indexed : (let s := (gathering 3).1
    let k := (gathering 3).2
    let o := { k with mode := .scatter, soff := 0x38 }
    let ls : List Loc := (List.range 4).map (fun i => .win 0 (0x804 + i))
    coords k.shape.extents 3 == [1, 1] && okIs (s.engineRead ls) [3, 0, 0, 0] && k.sides.1.indexed && o.sides.2.indexed && k.sides.1.rowFits k.shape.extents 3 && o.sides.2.rowFits k.shape.extents 3 &&
    s.rowCause 0 k.sides.1 k.shape.extents 3 == none && s.rowCause 0 o.sides.2 k.shape.extents 3 == none &&
    okAnd (s.engineLocate 0 k.src 0x38 8 .read true (s.copyMapping 0 k)) (fun r => okIs (r.1.engineRead r.2) [0xAA, 0, 0, 0, 0, 0, 0, 0] &&
      okAnd (r.1.engineLocate 0 k.dst 0x218 8 .write true (s.copyMapping 0 k)) (fun w => okIs (w.1.engineMay w.2) ())) &&
    okAnd (s.transferUnit 0 k) (fun r => r.2.next == 4 && r.2.staged.head? == some (16, .win 0 0x218, 0xAA)) &&
    !k.sides.1.rowFits k.shape.extents (2 ^ 32 - 1) && !o.sides.2.rowFits k.shape.extents (2 ^ 32 - 1) &&
    okAnd ((gathering (2 ^ 32 - 1)).1.transferUnit 0 k) (fun r => r.2.next == 4 && r.2.status == 0x73 && r.2.staged == [])) = true := by decide +kernel
theorem witness_CopyElements_own : (let k := { moving .cpy with staged := [(8, .win 0 0x118, 0xBB)] }
    let s := engine k
    let m := s.copyMapping 0 k
    let cv : Copy := { moving .cpycv with shape := ⟨BitVec.ofNat 64 (1 + 7 * 256 + 6 * 2 ^ 14), four.dims.setIfInBounds 0 ⟨4, 4, 2⟩⟩ }
    let v := (engine cv).modCore 0 (fun c => { c with scratch := [(0x10E, 0x80), (0x10F, 0x3F)] })
    okAnd (s.engineLocate 0 k.src 0x118 8 .read true m) (fun r => okIs (r.1.engineRead r.2) [0xAA, 0, 0, 0, 0, 0, 0, 0] && r.2.any (fun l => k.staged.any (fun b => b.2.1 == l)) &&
      okAnd ((r.1.observed r.1.writes r.2).draw.engineLocate 0 k.dst 0x218 8 .write true m) (fun w => okIs (w.1.engineMay w.2) ())) &&
    kbfOf (copyCodes cv.mode cv.shape cv.dst cv.src).1 == none && kbfOf (copyCodes cv.mode cv.shape cv.dst cv.src).2 == none &&
    okAnd (v.engineLocate 0 cv.src 0x10C 4 .read true m) (fun r => okIs (r.1.engineRead r.2) [0, 0, 0x80, 0x3F] && okAnd (r.1.engineLocate 0 cv.dst 0x206 2 .write true m) (fun w => okIs (w.1.engineMay w.2) ())) &&
    okAnd (v.transferUnit 0 cv) (fun r => r.2.staged.map (fun b => b.2.2) == [0x80, 0x3F])) = true := by decide +kernel
/-- CPYCV of 32 elements between FP32 and KBF8 (codes 7 and 9 of Table 9-4), from 0x100 to 0x200 of the scratchpad. -/
def blocks (a b : Nat) (n : Nat) : Copy :=
  { moving .cpycv with next := n, shape := ⟨BitVec.ofNat 64 (1 + a * 256 + b * 2 ^ 14), four.dims.setIfInBounds 0 ⟨32, if a = 7 then 4 else 0, if b = 7 then 4 else 0⟩⟩ }
theorem witness_CopyBlocks : (let k := blocks 7 9 0
    let d := { blocks 9 7 3 with doff := 0x400 }
    let s := (engine k).modCore 0 (fun c => { c with scratch := [(0x102, 0x80), (0x103, 0x3F)] })
    let v := (engine d).modCore 0 (fun c => { c with scratch := [(0x103, 0xC0)] })
    let m := s.copyMapping 0 k
    let line := fun (o : Nat) => [(o, 32), (hLen chip / 34 * 32 + 2 * (o / 32), 2)]
    kbfOf (copyCodes k.mode k.shape k.dst k.src).2 == some 1 && fpOf (copyCodes k.mode k.shape k.dst k.src).1 == some fp32 && kbfOf (copyCodes d.mode d.shape d.dst d.src).1 == some 1 && fpOf (copyCodes d.mode d.shape d.dst d.src).2 == some fp32 &&
    okAnd (s.sideLocs 0 k.sides.1 .read m ((List.range 32).map (fun i => (0x100 + 4 * i, 4)))) (fun r => okAnd (r.1.engineRead (r.2.map Prod.snd)) (fun bs => bs.length == 128) &&
      okAnd ((r.1.observed r.1.writes (r.2.map Prod.snd)).sideLocs 0 k.sides.2 .write m (line 0x200)) (fun w => okIs (w.1.engineMay (w.2.map Prod.snd)) ())) &&
    okAnd (s.transferUnit 0 k) (fun r => r.2.next == 32 && r.2.staged.length == 34 && (r.2.staged.map (fun b => b.2.2)).take 2 == [32, 0x80] && (r.2.staged.map (fun b => b.2.2)).drop 32 == [128, 121]) &&
    okAnd (v.sideLocs 0 d.sides.1 .read m [(0x103, 1), (hLen chip / 34 * 32 + 16, 2)]) (fun r => okIs (r.1.engineRead (r.2.map Prod.snd)) [0xC0, 0, 0] &&
      okAnd ((r.1.observed r.1.writes (r.2.map Prod.snd)).sideLocs 0 d.sides.2 .write m [(0x40C, 4)]) (fun w => okIs (w.1.engineMay (w.2.map Prod.snd)) ())) &&
    okAnd (v.transferUnit 0 d) (fun r => r.2.next == 4 && r.2.staged.length == 4)) = true := by decide +kernel
theorem witness_CopyRecords : (let k : Copy := { flying 0 with mode := .cpyout, extra := 5, shape := { four with dims := four.dims.setIfInBounds 0 ⟨2, 8, 8⟩ } }
    let s : State := { engine k with streams := [(5, ⟨0, true, 7, 0⟩)] }
    let e : State := { s with streams := [(5, ⟨0, true, 7, 2 ^ 64 - 1⟩)] }
    let f := engine { k with staged := [(8, .win 0 0x118, 0xBB), (16, .win 0 0x200, 1)] }
    let p := s.plainLocs 0 k k.sides.1 .read k.units 0 []
    s.stream 5 0 true == some ⟨0, true, 7, 0⟩ && (engine k).stream 5 0 true == none && (e.stream 5 0 true).map Stream.last == some (2 ^ 64 - 1) && p.2.2 == none && (s.core 0).copy? 4 == some k &&
    okAnd (p.1.engineLocate 0 k.dst k.doff 48 .write true (p.1.copyMapping 0 k)) (fun r => okAnd (r.1.engineRead p.2.1) (fun bs => bs.length == 16) && okIs (r.1.engineMay r.2) ()) &&
    (match s.exportCopy 0 k with | (t, some k') => k'.staged.length == 48 && Store.find? t.streams 5 == some ⟨0, true, 7, 1⟩ && (k'.staged.map (fun b => b.2.2)).take 16 == bytesOf 4 5 ++ bytesOf 8 1 ++ bytesOf 4 16 | _ => false) &&
    (f.flush 0 4 (fun g => g == 8)).readLocs [.win 0 0x118, .win 0 0x200] == [0xBB, 0]) = true := by decide +kernel
theorem witness_CopyEnds_objects : (let k : Copy := { moving .cpy with next := 4, lit := 0x13000002 }
    let g : Copy := { k with lit := 0x30000000 + 0x4000 }
    let s := (engine k).modCore 0 (fun c => { c with rills := c.rills.setIfInBounds 3 (some ⟨0, 256, 4, 0, 3, 0⟩) })
    let w := s.modCore 0 (fun c => { c with copies := [{ k with id := 3 }, k] })
    let d := (engine g).modCore 0 (fun c => { c with task := c.task.map (fun p => { p with sigHandle := chip }) })
    litKind k.lit == 1 && litId k.lit == 3 && litCount k.lit == 2 && decide ((s.core 0).rills[3]? = some (some ⟨0, 256, 4, 0, 3, 0⟩)) && (s.core 0).copies.find? (fun x => fillsRill x.lit 3) == some k && !(s.core 0).saving &&
    next (exec (.copyCompletion 0 4) s) (fun t => decide ((t.core 0).rills[3]? = some (some ⟨0, 256, 4, 0, 1, 2⟩)) && (t.core 0).copies == []) &&
    next (exec (.copyCompletion 0 4) w) (fun t => decide ((t.core 0).rills[3]? = some (some ⟨0, 256, 4, 0, 3, 0⟩)) && (t.core 0).copies.map Copy.landed == [false, true]) &&
    litKind g.lit == 3 && g.status == 0 && ((d.core 0).task.map Task.sigHandle) == some chip &&
    next (exec (.copyCompletion 0 4) d) (fun t => t.readLocs ((List.range 8).map (fun i => .win 0 (0x4000 + i))) == List.replicate 8 0xFF)) = true := by decide +kernel
/-- A copy with a byte for a page that is being copied; a copy that decrements a signal at its end, and one that has none to decrement. -/
theorem witness_CopyEnds_signal : (let k : Copy := { moving .cpy with next := 4 }
    let b : Copy := { k with staged := [(0, .hbm 0x10000, 7)] }
    let h : State := { engine b with parts := [(0, { part with moving := [⟨0, 31, 1, true⟩] })] }
    let g : Copy := { k with lit := 0x30004000 }
    let d := fun (v : BitVec 256) => (engine g).modCore 0 (fun c => { c with task := c.task.map (fun p => { p with sigHandle := v }) })
    let s2 := fun (v : BitVec 256) => ((d v).copyWritten 0 4).deliverCopy 0 { g with staged := [] }
    let ls : List Loc := (List.range 8).map (fun i => .win 0 (0x4000 + i))
    h.copyHeld b && !(engine k).copyHeld k && !(d chip).copyHeld g && litKind g.lit == 3 && litCount g.lit == 0x4000 && ((d chip).core 0).task.isSome &&
    next (exec (.copyCompletion 0 4) h) (fun t => (t.core 0).copies == [b]) &&
    okAnd (State.serviceReach { s2 chip with actor := 0 } (((s2 chip).core 0).who 0) chip (rightR ||| rightW ||| rightA) 0x4000 8 8 .atomic) (fun r => r.2 == ls &&
      firstCause r.1.readCause r.2 == none && r.1.waiting == [] && !r.1.copying r.2 && r.1.memoryWf && decide (ls.map r.1.cell).Nodup) && ls.all Loc.isMemory && !ls.contains .discarded &&
    okAny ((s2 chip).decrementBy 0 chip 0x4000) && !okAny ((s2 0).decrementBy 0 0 0x4000) && next (exec (.copyCompletion 0 4) (d 0)) (fun t => (t.core 0).task == none)) = true := by decide +kernel
theorem witness_Decrements : (let s := access .ld id []
    let ls : List Loc := (List.range 8).map (fun i => .win 0 (0x4000 + i))
    s.accessCause 0 0 (rightR ||| rightW ||| rightA) 0 8 8 == some 0x70 && okAnd (s.serviceReach ((s.core 0).who 0) chip (rightR ||| rightW ||| rightA) 0x4000 8 8 .atomic) (fun r => r.2 == ls &&
      firstCause r.1.readCause r.2 == none && r.1.waiting == [] && !r.1.copying r.2 && r.1.memoryWf && decide (ls.map r.1.cell).Nodup) && ls.all Loc.isMemory && !ls.contains .discarded &&
    okAnd (s.decrement ((s.core 0).who 0) chip 0x4000) (fun u => u.readLocs ls == List.replicate 8 0xFF)) = true := by decide +kernel
theorem witness_CopyEnds : (let k : Copy := { moving .cpy with next := 4 }
    let f : Copy := { k with status := 0x73, lit := 0 }
    let t : Copy := { k with lit := 0x2100FFFF }
    let s := engine k
    (s.core 0).copy? 4 == some k && k.fault == none && !k.landed && decide (k.units ≤ k.next) && !s.copyHeld k && !(engine f).copyHeld f && !(engine t).copyHeld t && litKind k.lit == 4 && (s.core 0).copyReady k && k.next != 0 && f.status != 0 && litKind f.lit == 0 && litKind t.lit == 2 &&
    decide (queueOf t.sq.num (litId t.lit) < 12) && decide (((engine t).core 0).tokenCount (queueOf t.sq.num (litId t.lit)) + litCount t.lit ≤ 65535) && decide (k.mode ≠ .cpyout) &&
    next (exec (.copyCompletion 0 4) s) (fun u => (u.core 0).ccnt == 2 && (u.core 0).copies == []) &&
    next (exec (.copyCompletion 0 4) (engine f)) (fun u => ((u.core 0).seqs.get .ld).copyStatus == 2 ^ 48 + 9 * 2 ^ 16 + 0x73) &&
    next (exec (.copyCompletion 0 4) (engine t)) (fun u => (u.core 0).tokenCount 0 == 65535)) = true := by decide +kernel

/-- A sealed record of 16 bytes on stream 5 with counter 1 (Table 9-4), under key 7 (R181). -/
def sealedRecord : List Byte := bytesOf 4 5 ++ bytesOf 8 1 ++ bytesOf 4 16 ++ (List.range 16).map (BitVec.ofNat 8) ++ [202, 110, 251, 183, 108, 235, 207, 193, 22, 162, 241, 10, 247, 68, 135, 229]
def importing (st : List (Nat × Stream)) (bs : List Byte) : State × Copy :=
  let k : Copy := { flying 0 with mode := .cpyin, shape := { four with dims := four.dims.setIfInBounds 0 ⟨2, 8, 8⟩ } }
  let s := on .ld { worker with copies := [k], scratch := Memory.writeN [] 0x100 bs } []
  ({ s with streams := st }, k)
theorem witness_ImportVerifies : (let i := importing [(5, ⟨0, false, 7, 0⟩)] sealedRecord
    let s := i.1
    let k := i.2
    let p := s.plainLocs 0 k k.sides.2 .write k.units 0 []
    (s.core 0).copy? 4 == some k && k.mode == .cpyin && k.next == 0 && k.status == 0 && k.fault == none && k.unverified == [] && (s.core 0).copyReady k && (s.core 0).copies.head? == some k && p.2.2 == none &&
    product k.shape.extents * k.shape.esz == 16 && okAnd (s.engineLocate 0 k.src k.soff 16 .read true (s.copyMapping 0 k)) (fun r => okIs (r.1.engineRead r.2) (sealedRecord.take 16)) &&
    okAnd (p.1.engineLocate 0 k.src k.soff 48 .read true (p.1.copyMapping 0 k)) (fun r => okIs (r.1.engineRead r.2) sealedRecord && okIs (r.1.engineMay p.2.1) ()) &&
    numOf (sealedRecord.take 4) == 5 && s.stream 5 0 false == some ⟨0, false, 7, 0⟩ && numOf ((sealedRecord.take 16).drop 12) == 16) = true := by decide +kernel
/-- The record verifies and its counter is above the last; with the counter taken already, or one bit turned, it does not (R181). -/
theorem witness_ImportTags : (Crypto.gcmTag 7 (sealedRecord.take 12) (sealedRecord.take 16) ((sealedRecord.drop 16).take 16) == sealedRecord.drop 32 && decide (0 < numOf ((sealedRecord.drop 4).take 8)) &&
    !decide (1 < numOf ((sealedRecord.drop 4).take 8)) && (importing [] sealedRecord).1.stream 5 0 false == none) = true := by decide +kernel

/-- A nest of one row-step: BF16 by BF16, A at 0 and B at 0x2000 of the scratchpad, C row 0 of tile 0 (Table 11-2). -/
def nest (vs : List (Nat × Word)) : MxRegs := ([(0x18, (2 : Word)), (0x1A, 2), (0x1B, 0x2000), (0x1E, 6), (0x1F, 6)] ++ vs).foldl (fun (r : MxRegs) (v : Nat × Word) => r.setIfInBounds v.1 v.2) (Vector.replicate 36 0)
def operation (vs : List (Nat × Word)) : MeOp := ⟨nest vs, none, none, chip, chip, 6, 6, 0, [], [], [], [], [], none, false, false, none⟩
def matrix (f : Me → Me) : State := access .ex (fun c => { c with me := f { c.me with shadow := nest [] } }) []
theorem witness_MatrixRegisters : (let s := on .ex worker [(1, 5)]
    s.curSq == .ex && okIs (s.scalars [1]) () && okIs (s.src 1) (5, 0) && decide ((0x023 : BitVec 11).toNat ≤ 0x023) && s.cur.me.active == none && s.cur.me.pendingOp == none &&
    (matrix (fun m => { m with active := some (operation []) })).cur.me.active.isSome && next (exec (.mxset 1 0x23) s) (fun t => decide (t.cur.me.shadow[0x23]? = some 5)) &&
    next (exec (.kgen 2 1 6) s) (fun t => decide (t.cur.kmask[2]? = some 0x7FF))) = true := by decide +kernel
theorem witness_MatrixOperations : (let s := matrix id
    let r := s.cur.me.shadow
    let b := matrix (fun m => { m with shadow := nest [(0x20, 0x10)] })
    let g := matrix (fun m => { m with shadow := nest [(0x23, 3)] })
    s.curSq == .ex && s.cur.me.pendingOp == none && mxRegsGood r && decide ((mxReg r 0x1C).toNat < s.cur.decl.tiles) && okIs (s.handleReg (mxReg r 0x18).toNat) chip && okIs (s.handleReg (mxReg r 0x1A).toNat) chip &&
    mxFormats r chip chip == (6, 6) && mxK 6 6 == some 64 && s.cur.tile 0 == .fp32 && mxRowsFit r && okIs (s.mxOperands r [mxSide r chip 0x19 1 6 (mxBytes 6 64), mxSide r chip 0x1B 2 6 (64 * mxBytes 6 64)]) () &&
    mxPartner 6 == some 6 && s.cur.me.bufferFree && mxReg r 0x23 == 0 && decide (s.cur.handles[(mxReg r 0x18).toNat]?.getD 0 = chip) && !mxRegsGood b.cur.me.shadow && mxReg g.cur.me.shadow 0x23 != 0 &&
    goodMembers 3 0 2 && (matrix (fun m => { m with pendingOp := some (operation []) })).cur.me.pendingOp.isSome &&
    decide ((on .ex { worker with task := some { Task.placed with decl := { Decl.all with tiles := 0 } } } []).cur.decl.tiles ≤ (mxReg r 0x1C).toNat)) = true := by decide +kernel
theorem test_matrix : next (exec .mxgo (matrix id)) (fun t => t.cur.me.pendingOp.isSome) = true := by decide +kernel
/-- A weight block whose bytes are the first of column 0; A at 0 holds 1.0 (R50). -/
def block : WeightBlock := ⟨chip, 0x2000, 6, 128, [0, 0x40] ++ List.replicate 126 0, [], [], []⟩
theorem witness_MatrixSteps : (let o := operation []
    let s := matrix (fun m => { m with active := some o, latched := some block })
    let p := matrix (fun m => { m with pendingOp := some o })
    let masked := { o with rowMask := some 0 }
    let c := s.core 0
    (p.core 0).me.active == none && (p.core 0).me.pendingOp == some o && c.me.active == some o && c.opMoves o && !s.gated 0 && o.bcast == none && o.rowActive o.prog && !masked.rowActive masked.prog && Store.rising c.rows &&
    c.me.latched == some block && holds (some block) o (mxBoff o.regs o.prog) && (matrix (fun m => { m with active := some masked })).cur.opMoves masked &&
    okAnd (s.mxLocs 0 o.ah o.fmtA (mxAoff o.regs o.prog) (mxBytes o.fmtA o.k) o.k) (fun l => okAny (l.1.engineRead l.2.1) && okAny (l.1.engineRead l.2.2)) && decide (mxTotal o.regs ≤ o.prog + 1) &&
    decide (0 + 1 < mxTotal (nest [(0, 2)])) && (matrix (fun m => { m with active := some o })).cur.me.wanted o == some (0, 0x2000) && (matrix (fun m => { m with active := some o })).cur.me.canTake o 0) = true := by decide +kernel
theorem witness_MatrixSteps_saving : (let h := fun (m : Me → Me) => (matrix m).modCore 0 (fun c => c.modSeq .ctl (fun x => { x with mark := some (.save 1) }))
    let s := h (fun m => { m with active := some (operation []), latched := some block })
    let p := h (fun m => { m with pendingOp := some (operation []) })
    (s.core 0).saving && (p.core 0).saving && (p.core 0).me.active == none && next (exec (.meRowStep 0) s) (fun t => (t.core 0).me == (s.core 0).me) && next (exec (.meOperationStart 0) p) (fun t => (t.core 0).me == (p.core 0).me)) = true := by decide +kernel
theorem test_row_step : (let s := matrix (fun m => { m with active := some (operation [(0x22, 1)]), latched := some block })
    next (exec (.meRowStep 0) (s.modCore 0 (fun c => { c with scratch := [(0, 0x80), (1, 0x3F)] }))) (fun t => (t.core 0).row 0 == 0x40000000 && (t.core 0).me.active == none)) = true := by decide +kernel
theorem witness_MatrixFill : (let o := operation []
    let s := matrix (fun m => { m with active := some o })
    okAnd (s.readBlock 0 ⟨o.bh, 0x2000, o.fmtB, mxBytes o.fmtB o.k, [], [], [], []⟩) (fun r => r.2.bytes.length == 8192)) = true := by decide +kernel
/-- Columns masked and not; BF16 on BF16, and KBF8 on KBF4 with two header bytes for each 32 elements (Table 11-3). -/
theorem witness_MatrixColumns : (63 : Nat) < 64 ∧ ((some (1 : Word)) = some 1 ∧ (1 : Word).getLsbD 63 = false ∧ (1 : Word).getLsbD 0 = true) ∧ ({ operation [] with fmtA := 1 } : MeOp).colMask = none ∧
    (let o := operation []
     (o.fmtA ∈ [5, 6, 8, 9] ∧ o.fmtB ∈ [5, 6, 8, 9] ∧ (List.replicate 128 (0 : Byte)).length = mxBytes o.fmtA o.k ∧ block.colBytes = mxBytes o.fmtB o.k ∧ 8192 = 64 * block.colBytes ∧ block.headers.length = 64 * 0)) ∧
    (let o : MeOp := { operation [] with fmtA := 9, fmtB := 8 }
     (o.fmtA ∈ [5, 6, 8, 9] ∧ o.fmtB ∈ [8, 9] ∧ o.k = 256 ∧ 256 = mxBytes o.fmtA o.k ∧ 128 = mxBytes o.fmtB o.k ∧ (List.replicate 1024 (0 : Byte)).length = 64 * (o.k / 16))) := by decide +kernel
/-- What a K-step distinguishes: a NaN accumulator; a NaN product, and infinity times zero; infinities of one sign and of both; numbers (R57). -/
theorem witness_MatrixColumns_steps : Claims.nan 8 23 0x7F800001 ∧ ¬ Claims.nan 8 23 0x3F800000 ∧ Claims.operand 6 [0xC0, 0x7F] [] 0 = none ∧ Claims.operand 9 (List.replicate 32 1) [0xFF, 0xFF] 31 = none ∧
    Claims.product (some (some true, 0)) (some (none, 0)) = none ∧ Claims.product (some (some true, 0)) (some (none, -3)) = some (some false, 0) ∧
    Claims.operand 6 [0x80, 0x7F] [] 0 = some (some false, 0) ∧ Claims.operand 6 [0x80, 0x3F] [] 0 = some (none, 2 ^ 133) ∧ Claims.operand 5 [0, 0x3C] [] 0 = some (none, 2 ^ 133) ∧
    Claims.operand 9 (0x40 :: List.replicate 31 0) [127, 120] 0 = some (none, -(2 ^ 133)) ∧ Claims.operand 8 (0x0C :: List.replicate 15 0) [127, 125] 0 = some (none, -(2 ^ 131)) := by
  unfold Claims.nan; decide +kernel
/-- R56's example: 1.0 and 64 products of -2^-30 give 1 - 2^-20. -/
theorem test_window : kStep 0x3F800000 (List.replicate 64 (some (.fin true 1 (-30)))) = 0x3F7FFFF0 := by decide +kernel
/-- Two members of a gang of two, on cores 0 and 1, at the same rendezvous; and one that differs. -/
def meeting (p1 : Word) : State :=
  let op := fun (v : Word) => { operation [(0x23, 3), (0x1B, v)] with bcast := some 0 }
  let core := fun (m : Nat) (v : Word) => { worker with task := some { Task.placed with member := m, gangSize := 2 }, me := { Me.reset with active := some (op v) } }
  { base with cores := [(0, core 0 0x2000), (1, core 1 p1)], gangs := [(0, ⟨[0, 1], [], [], []⟩)] }
theorem witness_Rendezvous : (let s := meeting 0x2000
    let op := { operation [(0x23, 3)] with bcast := some 0 }
    let d := meeting 0x4000
    (s.core 0).me.active.bind MeOp.place == some (3, 0) && ((Store.find? s.gangs 0).elim [] Gang.broken) == [] && s.memberCores 0 3 == [0, 1] && (s.memberCores 0 3).all (fun n => (s.core n).me.active == some op && op.place == some (3, 0)) &&
    (List.range 16).countP (fun i => Nat.testBit 3 i) == 2 && op.agrees op && (d.memberCores 0 3).length == 2 && !op.agrees { operation [(0x23, 3), (0x1B, 0x4000)] with bcast := some 0 } &&
    next (exec (.meBroadcastRendezvous 0) s) (fun t => (t.core 1).me.active == some { op with met := true }) && next (exec (.meBroadcastRendezvous 0) d) (fun t => (t.core 0).seqs.ex.late == some 2)) = true := by decide +kernel

/-- Tile 0 of a type, with two rows, on ex; every lane active, or those given. -/
def vec (y : TileType) (vm : BitVec 256) (rows : List (Nat × BitVec 2048)) (vs : List (Nat × Word)) : State :=
  access .ex (fun c => { c with tileType := c.tileType.setIfInBounds 0 y, vm := vm, rows := rows }) vs
/-- What the lane-wise claims (VectorFloat, VectorInteger, VectorSpecial), and those on rows, suppose. -/
def vecReady (s : State) (types : List TileType) : Bool :=
  s.curSq == .ex && okIs (s.scalars [1]) () && okAny (s.src 1) && decide (0 < s.cur.decl.tiles) && types.contains (s.cur.tile 0) && !s.cur.tileStored s.curCore 0 && !s.cur.tileBusy 0 && Store.rising s.cur.rows && Store.rising s.cur.rowTaint
theorem witness_VectorArithmetic : (vecReady (vec .fp16 1 [(0, 0x3C00), (1, 0x4000)] [(1, 0x3C00)]) floatTypes && vecReady (vec .int8 1 [(0, 0x7F)] [(1, 1)]) intTypes && vecReady (vec .int32 1 [] []) allTypes &&
    vecReady (vec .bf16 1 [] []) floatTypes) = true := by decide +kernel
/-- FP16 1.0 + 2.0 = 3.0 in lane 0; the other lanes keep what they hold (R192). -/
theorem test_vadd : next (exec (.vadd 0 2 0 1) (vec .fp16 1 [(0, 0x3C00), (1, 0x4000), (2, 0x12340000)] [])) (fun t => t.cur.row 2 == 0x12344200) = true := by decide +kernel
/-- INT8 arithmetic wraps, and VIMIN is signed (R213). -/
theorem test_vint : (let s := vec .int8 1 [(0, 0x7F), (1, 0x80)] []
    next (exec (.viadd 0 2 0 0) s) (fun t => t.cur.row 2 == 0xFE) && next (exec (.vimin 0 2 0 1) s) (fun t => t.cur.row 2 == 0x80) && next (exec (.vsar 0 2 1 0) s) (fun t => t.cur.row 2 == 0xFF)) = true := by decide +kernel
/-- VEXP2 of 1.0 is exactly 2.0, and VRSQA of 4.0 has the exponent of 0.5 (R215, R216). -/
theorem test_vsfu : next (exec (.vexp2 0 2 0) (vec .fp32 1 [(0, 0x3F800000)] [])) (fun t => t.cur.row 2 == 0x40000000) = true := by decide +kernel
theorem witness_VectorMasks : (let s := vec .int32 0x8000000000000005 [(0, 3), (1, 4)] []
    vecReady s allTypes && s.cur.tile 0 == .int32 && next (exec (.vclt 0 0 0 1) s) (fun t => t.cur.vm == 1) && next (exec (.vclt 0 1 0 1) s) (fun t => t.cur.vm == 1) &&
    next (exec (.vceq 0 2 0 1) s) (fun t => t.cur.vm == 0xFFFFFFFFFFFFFFFF - 1 ||| 5) && next (exec (.vmpop 0 3) s) (fun t => t.seq.reg 3 == 3) && next (exec (.vceq 0 3 0 1) s) (fun t => t.seq.cause == 2)) = true := by decide +kernel
theorem witness_VectorReductions : (let s := vec .int32 5 [(0, 0x3000000020000000FFFFFFFF)] []
    let leaves := (List.range 64).map (fun k => if s.cur.vm.getLsbD k then some ((s.cur.row 0).toNat / 2 ^ (32 * k) % 2 ^ 32) else none)
    vecReady s allTypes && (tree (fun u v => ((u + v) % 4294967296, 0)) 6 leaves).1 == some 0x2FFFFFFF && next (exec (.vrsum 0 2 0) s) (fun t => t.cur.row 2 == 0x2FFFFFFF) &&
    next (exec (.vrmin 0 2 0) s) (fun t => t.cur.row 2 == 0xFFFFFFFF) && next (exec (.vrsum 0 2 0) (vec .int32 0 [(0, 1)] [])) (fun t => t.cur.row 2 == 0) &&
    next (exec (.vrmax 0 2 0) (vec .int8 1 [] [])) (fun t => t.seq.cause == 2)) = true := by decide +kernel
/-- VWMRG of (1, 1.0, 0) with (1, 3.0, 0) is (2, 2.0, 2.0) (R63). -/
theorem test_vwmrg : next (exec (.vwmrg 0 0 1) (vec .fp32 0 [(0, 0x000000003F8000003F800000), (1, 0x00000000404000003F800000)] [])) (fun t => t.cur.row 0 == 0x400000004000000040000000) = true := by decide +kernel
theorem witness_VectorPermutes : (let s := vec .int32 7 [(0, 0x300000002000000010), (1, 0x000000000000000200000041)] [(1, 65)]
    vecReady s allTypes && next (exec (.vrot 0 2 0 1) s) (fun t => t.cur.row 2 % 2 ^ 64 == 0x3000000020) && next (exec (.vshf 0 2 0 1) s) (fun t => t.cur.row 2 % 2 ^ 64 == 0x3000000020)) = true := by decide +kernel
theorem witness_VectorConverts : (let s := vec .fp32 1 [(0, 0x40004000)] []
    vecReady s allTypes && decide (TileType.ofCode 3 ≠ s.cur.tile 0) && decide ((1 : BitVec 2).toNat < max (128 / 64) (64 / 128)) && decide (4 < (5 : BitVec 3).toNat) && decide (max (128 / 64) (64 / 128) ≤ (2 : BitVec 2).toNat) &&
    next (exec (.vcvt 0 2 0 0 3) s) (fun t => t.cur.row 2 == 0x40000000) && next (exec (.vcvt 0 2 0 2 3) s) (fun t => t.seq.cause == 2) && next (exec (.vcvt 0 2 0 0 0) s) (fun t => t.seq.cause == 2)) = true := by decide +kernel
/-- A landed louvre tile at offset 0 of the scratchpad, of a collective whose counter is 2 (R355). -/
def landed : Coll := ⟨0, 0, 10, chip, chip, 0, 0, [64], 0, 0, true, false, 0, true, true, 0, [], 0, [], [], none, none, none, none, false, [2], [15], [], [], [], none⟩
theorem witness_VectorBlocks : (let s := vec .fp32 0 [] [(1, 0), (2, 0x2000000), (3, 64)]
    let l := s.modCore 0 (fun c => { c with colls := [(0, landed)] })
    vecReady s floatTypes && s.cur.tileAt 0 0 == none && l.cur.tileAt 0 0 == some 2 && okIs (s.src 1) (0, 0) && decide (2 ^ 25 ≤ (0x2000000 : Word).toNat) && decide (0 + 4224 ≤ s.cur.decl.scratch) &&
    vecReady (vec .fp16 1 [] []) floatTypes && next (exec (.vkenc 0 2 0 1 0) s) (fun t => t.seq.cause == 2) && next (exec (.vpldec 0 2 3 0) s) (fun t => t.seq.cause == 0x43)) = true := by decide +kernel
theorem witness_VectorTile : (let l := (vec .fp32 0 [] []).modCore 0 (fun c => { c with colls := [(0, landed)] })
    okAny (l.readNow ((List.range 4224).map (fun i => .win l.curCore (0 % 2 ^ 20 + i))))) = true := by decide +kernel
/-- Numbers of FP16: a quiet and a signalling NaN, infinities, a zero, subnormals, and the largest finite number (R43). -/
theorem witness_FormatArithmetic : (let special := fun (a : Nat) => a / 2 ^ 10 % 2 ^ 5 == 31
    special 0x7E01 && 0x7E01 % 2 ^ 10 != 0 && Nat.testBit 0x7E01 9 && special 0xFC01 && 0xFC01 % 2 ^ 10 != 0 && !Nat.testBit 0xFC01 9 && Sys2Proof.Claims.inf 5 10 true == 0xFC00 && Sys2Proof.Claims.inf 5 10 false == 0x7C00 &&
    !special 0x7BFF && !special 0x8001 && Sys2Proof.Claims.units 5 10 0x8001 == -1 && Sys2Proof.Claims.units 5 10 0x3C00 == 2 ^ 24 && Sys2Proof.Claims.units 5 10 0x7BFF == 2047 * 2 ^ 29 && Sys2Proof.Claims.units 5 10 0x8000 == 0 && decide (0xFC01 < 2 ^ (1 + 5 + 10)) &&
    fp16.add .rne 0xFC01 0x7E01 == (0xFE01, 16) && fp16.add .rne 0x7C00 0xFC00 == (0x7E00, 16) && fp16.mul .rne 0x7C00 0x8000 == (0x7E00, 16) && fp16.add .rne 0x7BFF 0x7BFF == (0x7C00, 5) && fp16.add .rtz 0x7BFF 0x7BFF == (0x7BFF, 5) &&
    fp16.mul .rup 0x8001 0x8001 == (1, 3) && fp16.fma .rne 0x7C00 0x3C00 0xFC00 == (0x7E00, 16) && fp16.add .rdn 0x3C00 0xBC00 == (0x8000, 0) && fp16.minMax true 0x8000 0 == (0, 0) && fp16.minMax false 0xFC01 0x3C00 == (0x3C00, 16)) = true := by decide +kernel
theorem witness_FormatConversions : (TileType.fmt .fp16 == fp16 && floatTypes.contains .fp16 && intTypes.contains .int8 && Sys2Proof.Claims.units 8 23 0x42FE0000 == 127 * 2 ^ 149 && signedOf 8 0x80 == -128 &&
    convertLane .rne .fp32 .fp16 0x477FF000 == (0x7C00, 5) && convertLane .rne .fp32 .fp16 0xFF800001 == (0xFE00, 16) && convertLane .rne .fp32 .int8 0x42FF0000 == (127, 16) && convertLane .rtz .fp32 .int8 0xC3000000 == (0x80, 0) &&
    convertLane .rne .fp32 .int8 0x7FC00000 == (0, 16) && convertLane .rne .int32 .fp16 0x80000000 == (0xFC00, 5) && convertLane .rne .int32 .int8 0xFFFFFF00 == (0x80, 0) && convertLane .rne .int8 .int32 0x80 == (0xFFFFFF80, 0)) = true := by decide +kernel
theorem witness_BlockFormats : (let vs := 0x3F800000 :: 0xBF000000 :: List.replicate 30 0
    let b := (kbfEncode 0 fp32 vs).1
    let n := (kbfEncode 0 fp32 (0x7FC00000 :: 0xFF800000 :: vs.take 30)).1
    vs.length == 32 && b.elems.take 3 == [2, 7, 8] && b.e0 == 128 && b.e1 == 125 && n.e0 == 255 && n.e1 == 254 && n.elems.take 2 == [0, 12] &&
    kbfDecode 0 ⟨128, 125, [2, 6]⟩ 0 fp32 .rne == (0x3F800000, 0) && kbfDecode 0 ⟨255, 125, [2, 6]⟩ 1 fp16 .rne == (0x7E00, 0)) = true := by decide +kernel
theorem witness_VectorMemory : (let s := vec .int32 5 [(2, 0x300000002000000010)] [(1, 0x100)]
    vecReady s allTypes && okIs (s.handleReg 2) chip && okIs (s.after 0) () && decide (s.cur.requests < 1024) && s.cur.stores.isEmpty &&
    okAnd (s.vectorReach chip rightR (offsetOf 0x100 0) 4 (activeLanes .int32 5 false) .read) (fun r => r.2.map Prod.fst == [0, 2] && okIs (r.1.readNow (r.2.flatMap Prod.snd)) (List.replicate 8 0)) &&
    okAnd (s.vectorReach chip rightW (offsetOf 0x100 0) 4 (activeLanes .int32 5 true) .write) (fun r => r.2.map (fun l => l.2.head?) == [some (.win 0 0x100), some (.win 0 0x104)]) &&
    okAnd ((vec .int32 0 [] []).vectorReach chip rightW (offsetOf 0x100 0) 4 (activeLanes .int32 0 true) .write) (fun r => r.2 == []) &&
    next (exec (.vstc 0 2 2 1) s) (fun t => t.cur.stores.all (fun x => x.kind == .plain [0x10, 0, 0, 0, 0x30, 0, 0, 0]) && t.cur.stores.length == 1)) = true := by decide +kernel
theorem witness_Accumulators : (let s := vec .int32 0 [(0, 0x200000001), (1, 0x400000003)] []
    let busy := s.modCore 0 (fun c => { c with me := { c.me with pendingOp := some (operation []) } })
    vecReady s allTypes && decide ((62 : BitVec 6).toNat + (1 : BitVec 6).toNat ≤ 63) && decide (63 < (63 : BitVec 6).toNat + (1 : BitVec 6).toNat) && busy.cur.tileBusy 0 &&
    decide ((on .ex { worker with task := some { Task.placed with decl := { Decl.all with tiles := 1 } } } []).cur.decl.tiles ≤ (1 : BitVec 2).toNat) &&
    next (exec (.axpose 0) s) (fun t => t.cur.row 0 == 0x300000001 && t.cur.row 1 == 0x400000002) && next (exec (.aclr 0 62 1) s) (fun t => t.seq.pc == 36) && next (exec (.await 0) busy) (fun t => t.seq.run == .waiting) &&
    next (exec (.axpose 0) (vec .fp16 0 [] [])) (fun t => t.seq.cause == 2) && next (exec (.axpose 0) (s.modCur (fun c => c.setRowSet 5 6))) (fun t => t.cur.rowSet 63 == 6)) = true := by decide +kernel

/-- A launch record from its fields, each at its byte offset (Table 1-4). -/
def record (fs : List (Nat × Nat)) : BitVec 2048 := BitVec.ofNat 2048 (fs.foldl (fun (n : Nat) f => n + f.2 * 2 ^ (8 * f.1)) 0)
/-- One level of two tasks; wait list, completion and status at 0x1000, 0x1008 and 0x1010. -/
def simple (flags waits : Nat) : BitVec 2048 :=
  record [(0, 0x524C584B), (4, flags), (7, 1), (0x0C, waits), (0x10, 2), (0x50, if waits = 0 then 0 else 0x1000), (0x60, 0x1008), (0x64, 0x1010), (0x80, chip.toNat)]
/-- A record at a stage. -/
def rec (b : BitVec 2048) (ph : RecPhase) : Record := { Record.new 0 b false chip 0x2000 with phase := ph, nextTask := 0, endTask := 2 }
/-- A kernel header with two parcels of code, an HDR among them (Table 1-5). -/
def header : Store Byte := [(0, 0x4B), (1, 0x58), (2, 0x4B), (3, 0x48), (4, 1), (8, 32), (12, 32), (16, 32), (20, 32), (0x18, 14), (0x19, 14), (0x1A, 14), (0x1B, 14),
  (0x1E, 4), (0x28, 1), (0x29, 1), (0x2C, 2), (64, 0), (65, 0xC0)]
/-- A queue with records, its signals in the scratchpad of core 0, which also holds a kernel. -/
def queued (sig : Byte) (rs : List Record) : State :=
  let s := on .ctl { worker with scratch := header ++ (if sig = 0 then [] else [(0x1000, sig)] ++ if sig = 0xFF then [(0x1007, 0xFF)] else []) } []
  { s with parts := [(0, { part with accounts := [(0, ⟨10, 10, 0, 0, 0⟩)] })], clusterTenant := [(0, 0)], queues := [(0, { queue with sigHandle := chip, area := 0x2000, tail := 1, records := rs })] }
def sqs : List Sq := [.ld, .ex, .st, .ctl]

theorem locateRange_one (s : State) (w : Who) (file : Bool) (acc : Acc) (n va len : Nat) (e : TlbEntry) (ht : s.tlbOf w.core = []) (hl : len ≠ 0) (ha : va + len ≤ 2 ^ 57)
    (hk : Nat.min len (Config.pageBytes - va % Config.pageBytes) = len) (ho : okIs (s.translateFresh w.ctx w.part va acc) e = true) :
    s.locateRange w file acc false .held (n + 1) va len = .ok (s.noteTlb w.core e, (List.range len).map (fun i => entryLoc file e (va + i))) := by
  have he : s.translateFresh w.ctx w.part va acc = .ok e := by
    revert ho; unfold okIs
    split <;> simp_all
  have hr : s.translate w.core w.ctx w.part va acc .held = .ok e := by
    simp [State.translate, ht, tlbLookup, he]
  have hz : State.locateRange (s.noteTlb w.core e) w file acc false .held n (va + len) 0 = .ok (s.noteTlb w.core e, []) := by cases n <;> simp [State.locateRange]
  have hv : ¬ 2 ^ 57 < va + len := by omega
  unfold State.locateRange
  simp [State.noteEntry, hl, hv, hk, hr, hz] <;> omega

theorem witness_QueueRegisters : (let s := queued 0 []
    let q : Queue := { queue with tail := 3, head := 2 }
    let t : State := { s with queues := [(0, q)], tdis := [(0, ⟨.run, true, 0, 0, 0, 0⟩)] }
    let r : State := { s with queues := [(0, { q with resetPending := true })] }
    t.tdiQueue 0 0 == some (0, q) && t.tdiAccepts 0 && !({ t with tdis := [] } : State).tdiAccepts 0 && next (exec (.qtailWrite 0 0 4) { t with tdis := [] }) (fun u => (Store.find? u.queues 0).any (fun x => x.ovf && x.tail == 3)) && decide (16 < (BitVec.ofNat 32 19 - q.head).toNat) && decide ((BitVec.ofNat 32 18 - q.head).toNat ≤ 16) &&
    decide ((BitVec.ofNat 32 2 - q.head).toNat < (q.tail - q.head).toNat) && decide (BitVec.ofNat 32 4 = q.tail + 1) && decide ((q.tail - q.head).toNat ≤ (BitVec.ofNat 32 4 - q.head).toNat) &&
    Store.find? r.queues 0 == some { q with resetPending := true } && ({ q with records := [rec 0 .running] } : Queue).records.any (fun r => r.phase.started && r.phase != .complete) &&
    next (exec (.qtailWrite 0 0 19) t) (fun u => (Store.find? u.queues 0).any (fun x => x.ovf && x.tail == 3)) && next (exec (.qtailWrite 0 0 3) t) (fun u => u.queues == t.queues) &&
    next (exec (.queueResetComplete 0 0) r) (fun u => (Store.find? u.queues 0).any (fun x => x.head == 3 && !x.resetPending))) = true := by decide +kernel

theorem witness_RecordAppends : ∃ s1 ls, Store.find? base.queues 0 = some queue ∧ (∀ k ∈ queue.records, k.ring ≠ queue.tail.toNat) ∧
    base.locateRange (queueWho 0 queue) false .read false .held 2 (queue.ringBase + 256 * (queue.tail.toNat % 2 ^ queue.ringLog)) 256 = .ok (s1, ls) ∧ firstCause s1.readCause ls = none :=
  ⟨_, _, by decide +kernel, by simp [queue], locateRange_one base (queueWho 0 queue) false .read 1 0x100000 256 ⟨0, 0, 2 ^ 31, 0, true, true, true, false⟩
    (by decide +kernel) (by decide) (by decide) (by decide) (by decide +kernel), by decide +kernel⟩

theorem witness_Candidates_check : (let s := queued 0 [rec (simple 0 1) .appended]
    let q : Queue := { queue with sigHandle := chip, area := 0x2000, tail := 1, records := [rec (simple 0 1) .appended] }
    let b : State := queued 0 [rec 0 .appended]
    s.consider 0 == some (q, rec (simple 0 1) .appended) && okAnd (s.candCheck (queueWho 0 q) q (simple 0 1)) (fun r => r.2.1.gang == 1 && r.2.2.2.2 == 2) &&
    decide (recNum (simple 0 1) 0x0C 1 ≠ 0) && (match b.candCheck (queueWho 0 q) q 0 with | .error (.trap c) => c == 2 | _ => false)) = true := by decide +kernel
theorem witness_Candidates_wait : ([((0 : Byte), (0 : Int)), (1, 1), (0xFF, -72057594037927681)].all (fun p =>
    let r := rec (simple 0 1) .waitList
    let s := queued p.1 [r]
    (s.consider 0).isSome && recWaits r.bits == [0x1000] && recRanges r.bits == [] &&
    okAnd (s.candRead (queueWho 0 queue) chip rightR 0x1000 8 8 .read) (fun x => signedOf 64 (numOf x.2) == p.2))) = true := by decide +kernel
theorem witness_Candidates_fault : (let r := { rec (simple 0 1) .appended with bits := record [(0, 0x524C584B), (7, 1), (0x10, 2), (0x80, chip.toNat)] }
    recNum r.bits 0x0C 1 == 0 && (0x40 : Cause).toNat / 16 == 4 && ({ cause := 0x40, under := 0, va := 0, gpa := 0, write := false, code := true } : FaultInfo).cause.toNat / 16 == 4) = true := by decide +kernel

theorem witness_RecordStarts : (let r := rec (simple 0 0) .waitList
    let p := { rec (simple 8 0) .startBarrier with group := ⟨1, 3, 0, [3, 1, 1, 1], []⟩, arrivals := [1], since := 5 }
    let s := queued 0 [r]
    let u := { queued 0 [p] with cycle := 5 + 100 * Config.cyclesPerMicro }
    let v := { queued 0 [{ p with phase := .running }] with cycle := 5 }
    (Store.find? s.queues 0).any (fun x => x.record 0 == some r) && !recFlag r.bits 3 && decide (r.nextTask < r.endTask) && r.faulted == none && !r.revoked && r.live == 0 &&
    (Store.find? u.queues 0).any (fun x => x.record 0 == some p) && recFlag p.bits 3 && recNum p.bits 0x68 4 == 0 && !p.arrivals.contains 0 && !p.arrivals.contains 2 &&
    ((Store.find? u.parts part.lastTenant).map Partition.startTimeout == some 100) && decide (p.since + 100 * Config.cyclesPerMicro ≤ u.cycle) &&
    decide (v.cycle < p.since + 100 * Config.cyclesPerMicro) && decide (0 < p.group.size) && p.group.rank != 0 &&
    next (exec (.startBarrierArrival 0 0 0 0 0) u) (fun t => (Store.find? t.queues 0).any (fun x => (x.record 0).any (fun y => y.arrivals == [1, 0] && y.phase == .startBarrier)))) = true := by decide +kernel
theorem witness_RecordStarts_revoked : (let p := { rec (simple 8 0) .startBarrier with revoked := true }
    let u := { queued 0 [p] with cycle := 100 * Config.cyclesPerMicro }
    (Store.find? u.queues 0).any (fun x => x.record 0 == some p) && p.phase == .startBarrier && p.revoked && decide (p.since + 100 * Config.cyclesPerMicro ≤ u.cycle)) = true := by decide +kernel

/-- A record with a range of one page of an argument handle of one page. -/
def ranged (count : Nat) : BitVec 2048 :=
  record [(0, 0x524C584B), (7, 1), (0x10, 2), (0x60, 0x1008), (0x64, 0x1010), (0x70, 2 ^ 62 + count), (0x80, chip.toNat), (0xA0, (makeHandle 0 0x30000 0x10000 3 0 0 0 0 0 0 0).toNat)]
theorem witness_RangeMigrations : (let r := rec (ranged 1) .migration
    let s := queued 0 [r]
    let f := queued 0 [rec (ranged 2) .migration]
    s.consider 0 == some ({ queue with sigHandle := chip, area := 0x2000, tail := 1, records := [r] }, r) && s.rootOf 0 == 0x10000 &&
    okAnd (s.migrateRanges (queueWho 0 queue) 0x10000 r.bits [] [] []) (fun t => okIs (t.rangePlaces (queueWho 0 queue) 0x10000 r.bits) [(3, 3, false)]) &&
    (recRanges (ranged 2)).any (fun e => decide (hLen (recHandle (ranged 2) e.1) < (e.2.1 + e.2.2) * 65536)) &&
    (match f.migrateRanges (queueWho 0 queue) 0x10000 (ranged 2) [] [] [] with | .error (.trap c) => c == 0x73 | _ => false)) = true := by decide +kernel
theorem witness_RangeMigrations_frames : (let r := rec (ranged 1) .migration
    let s := { queued 0 [r] with parts := [(0, { part with slices := [5] })] }
    okAnd (s.rangePlaces (queueWho 0 queue) 0x10000 r.bits) (fun ps => (ps.filter (fun p => p.2.2 || !s.inSlices 0 (p.2.1 * 65536))).length == 1) &&
    okAnd ((queued 0 [r]).rangePlaces (queueWho 0 queue) 0x10000 r.bits) (fun ps => (ps.filter (fun p => p.2.2 || !(queued 0 [r]).inSlices 0 (p.2.1 * 65536))) == []) &&
    (match s.migrateRanges (queueWho 0 queue) 0x10000 r.bits [] [] [] with | .error (.trap c) => c == 0x62 | _ => false)) = true := by decide +kernel

theorem witness_AbortForwarding : (let r := rec (simple 0 0) .running
    let s := queued 0 [r, { rec (simple 0 0) .running with ring := 1 }, { rec (simple 0 0) .waitList with ring := 2 }]
    (Store.find? s.queues 0).any (fun q => q.record 0 == some r && decide ((q.records.map Record.ring).Nodup)) && !recFlag r.bits 4 && (0x13 : Nat) != 2) = true := by decide +kernel

theorem witness_Dispatches : (let r := rec (simple 0 0) .running
    let s := queued 0 [r]
    let q : Queue := { queue with sigHandle := chip, area := 0x2000, tail := 1, records := [r] }
    s.serviceOrder 0 == [(0, q, r)] && s.seats 0 q r (recFlag r.bits 2) == some [1] && s.tenants.all (fun p => !p.2.rotating) &&
    (((s.dispatch 0 q r [1]).core 1).task).any (fun t => t.number == 0 && t.ring == 0)) = true := by decide +kernel

theorem witness_CoreClaims : (let r := rec (simple 4 0) .running
    let s := queued 0 [r]
    let q : Queue := { queue with sigHandle := chip, area := 0x2000, tail := 1, records := [r] }
    Store.find? s.queues 0 == some q && q.record 0 == some r && recFlag r.bits 2 && !recFlag (simple 0 0) 2 && s.dispatchable q r && s.seats 0 q r true == none &&
    s.seats 0 q r false == some [1] && !(s.cores.any (fun (p : Nat × Core) => p.2.claim == some (0, 0)))) = true := by decide +kernel

theorem witness_TaskEnds : (let c : Core := { worker with seqs := Quad.all { SeqState.reset with run := .ended } }
    let l : Core := { c with seqs := { c.seqs with ld := { SeqState.reset with run := .ended, late := some 0x90 } } }
    let h : Core := { c with seqs := { c.seqs with ld := { SeqState.reset with run := .halted, cause := 0xF0 } } }
    let s := fun (c : Core) => ({ base with cores := [(0, c)] } : State)
    let e := (s c).core 0
    (s c).faults == [] && e.task == some Task.placed && sqs.all (fun q => (e.seqs.get q).run == .ended && (e.seqs.get q).late == none) && e.loads == [] && e.stores == [] && e.copies == [] &&
    e.me.active == none && e.me.pendingOp == none && e.colls == [] && ((s l).core 0).seqs.ld.late == some 0x90 && ((s h).core 0).seqs.ld.run == .halted &&
    (let r := (on .ctl worker []).core 0; (sqs.all (fun q => (r.seqs.get q).run != .halted) && r.seqs.ctl.run == .running)) && Task.placed.launch == none &&
    next (exec (.taskEnd 0) (s c)) (fun t => (t.core 0).task == none)) = true := by decide +kernel

/-- A PERSIST handle of tenant 0 to the first 8 KiB of the file store, with every right (Table 17-4). -/
def vault : BitVec 256 := 0x31e2ead8aabb8c068000000084000000000001fe000000400000000000000000
/-- A store that holds the bytes from an address on. -/
def listing : Nat → List Byte → Store Byte
  | _, [] => []
  | a, b :: bs => (a, b) :: listing (a + 1) bs

theorem read_listing (a i : Nat) (bs : List Byte) : Memory.read (listing a bs) (a + i) = bs.getD i 0 := by
  induction bs generalizing a i with
  | nil => rfl
  | cons b bs ih =>
    cases i with
    | zero => simp [Memory.read, Store.getD, listing, Store.find?]
    | succ i =>
      have h : a + (i + 1) ≠ a := by omega
      have := ih (a + 1) i
      simp only [Memory.read, Store.getD, listing, Store.find?, if_neg h, List.getD_cons_succ] at this ⊢
      rw [← this]; congr 2; omega

theorem readLocs_listing (s : State) (bs : List Byte) (n : Nat) (hf : s.file = listing 0 bs) (hn : n ≤ bs.length) :
    s.readLocs ((List.range n).map Loc.file) = bs.take n := by
  apply List.ext_getElem
  · simp [State.readLocs, hn]
  · intro i h1 h2
    have hi : i < bs.length := by simp at h2; omega
    have := read_listing 0 i bs
    simp [State.readLocs, State.readLoc, hf] at this ⊢
    rw [this]; simp [hi]

theorem firstCause_files (s : State) (l : List Nat) : firstCause s.readCause (l.map Loc.file) = none := by
  induction l with
  | nil => rfl
  | cons a l ih => simpa [firstCause, State.readCause] using ih

/-- What the file store holds at a PERSIST handle with base 0 is read back. -/
theorem readImage_listing (s : State) (h : BitVec 256) (bs : List Byte) (n : Nat) (e : TlbEntry) (hf : s.file = listing 0 bs) (hn : n ≤ bs.length)
    (hz : (n != 0 && decide (n ≤ 65536) && !hOnchip h && !hPeer h && hPersist h && decide (hBase h = 0)) = true)
    (hc : s.accessCause (s.serviceWho (hTenant h) (hContext h)).tenant h rightS 0 n 1 = none) (ht : s.tlbOf Config.numCores = [])
    (ho : okIs (s.translateFresh (hContext h) (s.serviceWho (hTenant h) (hContext h)).part 0 .read) e = true)
    (he : (!e.d && e.pa == 0 && e.va == 0) = true) : ∃ s1, s.readImage h 0 n = .ok (s1, bs.take n) := by
  simp only [Bool.and_eq_true, Bool.not_eq_true', decide_eq_true_eq, bne_iff_ne, beq_iff_eq] at hz he
  obtain ⟨⟨⟨⟨⟨hz, hk⟩, h1⟩, h2⟩, h3⟩, h4⟩ := hz
  have hl := locateRange_one s (s.serviceWho (hTenant h) (hContext h)) true .read (n / Config.pageBytes + 1) 0 n e ht hz (by omega)
    (by simpa [Config.pageBytes] using Nat.min_eq_left hk) ho
  have hm : (List.range n).map (fun i => entryLoc true e (0 + i)) = (List.range n).map Loc.file := by
    simp [entryLoc, physLoc, he.1.1, he.1.2, he.2]
  rw [hm] at hl
  have hv : ¬ (2 ^ 57 < 0 + 0 + n) := by omega
  refine ⟨s.noteTlb Config.numCores e, ?_⟩
  have hb : (s.noteTlb Config.numCores e).file = listing 0 bs := by
    rw [← hf]; unfold State.noteTlb; split <;> rfl
  simp only [State.readImage, State.serviceReach, hc, State.locate, h1, h2, h3, h4, hv, Bool.false_eq_true, if_false]
  simp only [Nat.add_zero] at hl ⊢
  rw [show n / Config.pageBytes + 2 = n / Config.pageBytes + 1 + 1 from rfl, hl]
  simp only [State.serviceWho, firstCause_files, readLocs_listing _ bs n hb hn]

/-- The header of a sealed persistent image (Table 17-10), of counter 0 with value 1, under generation 1: a task without tiles and scratchpad. -/
def imageHead : List Byte := imageHeader { Task.placed with decl := { Task.placed.decl with tiles := 0, scratch := 0 } } true (some 0) 1 1 0 21 0 0x1010
/-- Its body as sealed under a root of zeros: the status, HDR and passes words of its four sequencers are zero. -/
def imageText : List Byte := [0xd4b8e1bcde18869055f0a3e6f2f28603, 0x1f1fa23ae62fbf8c0906a23b2a1464bb, 0xc4dd22075a44186144743748eb60ab73, 0x13736dab83a0c451ad76ed239e6ff6c3].flatMap
  (fun n => bytesOf 16 n ++ List.replicate 0x1F0 0) ++ List.replicate 0x700 0
def imageAll : List Byte := imageHead ++ imageText ++ bytesOf 16 0xc390f45a87230f1ee1ab6db013ac0a2c
/-- Task 0 of ring index 0, hard-stopped, and an image in the file store. -/
def stopped (bs : List Byte) : State :=
  { base with file := listing 0 bs, clusterTenant := [(0, 0)], counters := [(0, ⟨1, 1, some (0, 0, 0), false, none⟩)],
              parked := [(parkedNumber 0 0 0, ⟨Task.placed, Quad.all false, [], Me.reset⟩)], gangs := [(0, ⟨[parkedNumber 0 0 0], [], [], []⟩)] }
/-- The entry under which the file store's first bytes are read. -/
def low : TlbEntry := ⟨0, 0, 2 ^ 31, 0, true, true, true, false⟩

theorem witness_Restores_refused : ∃ s1, (stopped (List.replicate 0x100 0)).readImage vault 0 0x100 = .ok (s1, List.replicate 0x100 0) ∧
    goodImageHeader (List.replicate 0x100 0) (hLen vault) = false := by
  obtain ⟨s1, h⟩ := readImage_listing (stopped (List.replicate 0x100 0)) vault (List.replicate 0x100 0) 0x100 low rfl (by decide +kernel) (by decide +kernel)
    (by decide +kernel) (by decide +kernel) (by decide +kernel) (by decide)
  exact ⟨s1, h.trans (by rw [List.take_of_length_le (by decide +kernel)]), by decide +kernel⟩
theorem openImage_stopped : (stopped imageAll).openImage vault = (stopped imageAll).checkImage 0 imageAll := by
  obtain ⟨s1, h1⟩ := readImage_listing (stopped imageAll) vault imageAll 0x100 low rfl (by decide +kernel) (by decide +kernel)
    (by decide +kernel) (by decide +kernel) (by decide +kernel) (by decide)
  obtain ⟨s2, h2⟩ := readImage_listing (stopped imageAll) vault imageAll (numAt (imageAll.take 0x100) 0x6C 4) low rfl (by decide +kernel) (by decide +kernel)
    (by decide +kernel) (by decide +kernel) (by decide +kernel) (by decide)
  have h3 : goodImageHeader (imageAll.take 0x100) (hLen vault) = true := by decide +kernel
  have h4 : (stopped imageAll).imageRoot (imageAll.take 0x100) = .ok 0 := by
    have : okIs ((stopped imageAll).imageRoot (imageAll.take 0x100)) 0 = true := by decide +kernel
    revert this; unfold okIs; split <;> simp_all
  have h5 : imageAll.take (numAt (imageAll.take 0x100) 0x6C 4) = imageAll := List.take_of_length_le (by decide +kernel)
  unfold State.openImage
  rw [h1]; dsimp only
  rw [h3, h4]; simp only [Bool.not_true, Bool.false_eq_true, if_false]
  rw [h2]; dsimp only; rw [h5]
  simp [State.bygone, show (stopped imageAll).retired = [] from rfl]
theorem imageAll_good : tagGood 0 imageAll = true := by decide +kernel
theorem witness_Restores : (let s := stopped imageAll
    okAnd (s.openImage vault) (fun i => (s.imagePlan i).any (fun p => s.restoreSeats p.2.1 1 (Store.find? s.parked i.parked).isSome == some [0]) && s.wholeGang [i] && s.tenants.all (fun p => !p.2.rotating) && i.persistent)) = true := by
  dsimp only
  rw [openImage_stopped]
  unfold State.checkImage
  rw [imageAll_good]
  decide +kernel

/-- A halted ctl on core 0 with a restartable fault that the guest has been given, and a TDI with a fault ring at 0x30000. -/
def faulted (t : Tdi) (i : FaultInfo) : State :=
  let s := on .ctl worker []
  { s with cores := [(0, (s.core 0).modSeq .ctl (fun x => { x with run := .halted }))], tdis := [(0, t)], faults := [⟨7, .seq 0 .ctl, i, 0, false, false⟩], nextFault := 8 }
def ring : Tdi := ⟨.run, true, 0x30000, 4, 0, 0⟩
def missing : FaultInfo := ⟨0x40, 0, 0x90000000, 0, false, false⟩
def second : FaultInfo := ⟨0x60, 0, 0x1000, 0x1000, true, false⟩
theorem witness_FaultRings : (let s := faulted ring missing
    let full := faulted { ring with frprod := 16 } missing
    s.faults.all (fun g => !g.held && !g.beyond) && decide ((s.tdi 32).room = false ∨ (s.tdi 32).room = true) && s.fstat 0 == 0 && decide (2 ^ 57 - 4096 < 2 ^ 57) && decide ((2 ^ 57 - 4096) % 4096 = 0) && missing.toGuest && !(full.tdi 0).room && (s.tdi 0).room &&
    s.guestFault 0 8 == none && s.guestFault 0 7 == some ⟨7, .seq 0 .ctl, missing, 0, false, false⟩ && ((s.core 0).seqs.get .ctl).run == .halted && (s.core 0).task == some Task.placed &&
    Task.placed.launch == none && (s.core 0).loads == [] && (s.core 0).stores == [] &&
    next (exec (.fresRetry 0 7) s) (fun t => ((t.core 0).seqs.get .ctl).run == .running && t.faults == []) &&
    next (exec (.fresEndTask 0 7) s) (fun t => (t.core 0).task == none)) = true := by decide +kernel
/-- The checks of an image one after another (R330): a tenant that is not bound, a generation that is not held, a commit record of
another owner, a tag under another root, an older root whose tag is good, and a counter that has moved on. -/
theorem witness_Restores_checks : (let s := stopped imageAll
    let head := imageAll.take 0x100
    let other := imageHeader { Task.placed with tenant := 5, decl := { Task.placed.decl with tiles := 0, scratch := 0 } } true (some 0) 1 1 0 21 0 0x1010
    let t := fun (x : Tenant) => ({ s with tenants := [(0, x)] } : State)
    let rec' : CommitRecord := ⟨0, 9, 1, 0⟩
    let c := ({ s with counters := [(0, ⟨2, 2, some (0, 0, 0), false, some rec'⟩)] } : State)
    goodImageHeader head (hLen vault) && goodImageHeader other (hLen vault) && numAt other 0x0A 2 == 5 && Store.find? s.tenants 5 == none && numAt head 0x10 4 == 1 && numAt head 0x0A 2 == 0 && numAt head 8 1 == 1 &&
    ((Store.find? s.counters 0).bind Counter.record) == none && !decide (1 = ({ tenant with gen := 3 } : Tenant).gen) && ((Store.find? c.counters 0).bind Counter.record) == some rec' && rec'.gen == 1 && rec'.tenant == 0 && rec'.owner != tenant.owner &&
    (match (t { tenant with gen := 3 }).imageRoot head, c.imageRoot head, s.imageRoot other with | .error a, .error b, .error d => a == 0x96 && b == 0x96 && d == 0x96 | _, _, _ => false)) = true := by decide +kernel
theorem bygone_under {s : State} {root old : BitVec 256} {all : List Byte} (h : tagGood root all = false) (g : tagGood old all = true) (hs : s.retired = [old]) :
    s.bygone root all = true := by simp [State.bygone, h, g, hs]
theorem checkImage_tag {s : State} {root : BitVec 256} {all : List Byte} (h : tagGood root all = false) : s.checkImage root all = .error 0x94 := by
  simp [State.checkImage, h]
theorem imageAll_bad : tagGood 5 imageAll = false := by decide +kernel
theorem witness_Restores_tags : Store.find? tenant.imageRoots 1 = some 0 ∧ ({ (stopped imageAll) with retired := [0] } : State).bygone 5 imageAll = true ∧
    (stopped imageAll).checkImage 5 imageAll = .error 0x94 :=
  ⟨by decide, bygone_under imageAll_bad imageAll_good rfl, checkImage_tag imageAll_bad⟩
theorem witness_Restores_counter : (let s : State := { (stopped imageAll) with counters := [(0, ⟨2, 2, some (0, 0, 0), false, none⟩)] }
    match s.checkImage 0 imageAll with | .error a => a == 0x95 | _ => false) = true := by
  dsimp only
  unfold State.checkImage
  rw [imageAll_good]
  decide +kernel
theorem witness_FaultRings_write : ∃ s1 ls, (faulted ring missing).locateRange (((faulted ring missing).core 0).who 0) false .write false .held 2 (0x30000 + 0 * 32) 32 = .ok (s1, ls) :=
  ⟨_, _, locateRange_one (faulted ring missing) (((faulted ring missing).core 0).who 0) false .write 1 0x30000 32 ⟨0, 0, 2 ^ 31, 0, true, true, true, false⟩
    (by decide +kernel) (by decide) (by decide) (by decide) (by decide +kernel)⟩

theorem witness_FaultService : (let s := faulted ring second
    let c : State := { s with faults := [⟨7, .candidate 0 0, second, 0, false, false⟩] }
    s.faults.find? (fun f => f.id == 7 && !f.info.toGuest) == some ⟨7, .seq 0 .ctl, second, 0, false, false⟩ && ((s.core 0).seqs.get .ctl).run == .halted &&
    c.faults.find? (fun f => f.id == 7 && !f.info.toGuest) == some ⟨7, .candidate 0 0, second, 0, false, false⟩ &&
    (FaultUnit.seq 0 .ctl).core == some 0 && (s.core 0).task != none && (base.core 0).task == none && (base.core 0).copies == [] && s.clusterPart 31 == none && s.clusterPart 0 == some 0 &&
    next (exec (.secondStageFaultService 7 true [] []) s) (fun t => ((t.core 0).seqs.get .ctl).run == .running && t.faults == []) &&
    next (exec (.secondStageFaultService 7 false [] []) s) (fun t => (t.core 0).task == none) &&
    (s.core 0).invals == [] && (base.core 0).invals == [] &&
    next (exec (.invalidation 0) s) (fun t => (t.core 0).invals == [⟨0, Quad.all false, false, 0, s.writes + 1⟩])) = true := by decide +kernel
/-- A table of the MC that lies in a page being copied: the MC waits (R295). -/
theorem witness_FaultService_waits : (let m : State := { faulted ring second with parts := [(0, { part with moving := [⟨0, 31, 1, true⟩] })] }
    m.mcWaits [(0x10000, 1)] && !(faulted ring second).mcWaits [(0x10000, 1)] && (m.faults.find? (fun f => f.id == 7 && !f.info.toGuest)).isSome &&
    next (exec (.secondStageFaultService 7 true [(0x10000, 1)] []) m) (fun t => t.faults == m.faults)) = true := by decide +kernel

/-- Core 0 at rest with a task. -/
def resting : State := { on .ctl worker [] with gangs := [(0, ⟨[0], [], [], []⟩)], clusterTenant := [(0, 0)] }
def isResting (s : State) (n : Nat) (k : Task) : Bool :=
  let c := s.core n
  decide (n < 512) && c.task == some k && c.loads == [] && c.stores == [] && c.copies == [] && c.mints == [] && c.colls == [] &&
    sqs.all (fun q => (c.seqs.get q).mark == none && (c.seqs.get q).late == none && (c.seqs.get q).run != .halted)
theorem isResting_iff (s : State) (n : Nat) (k : Task) (h : isResting s n k = true) : let c := s.core n
    n < 512 ∧ c.task = some k ∧ c.loads = [] ∧ c.stores = [] ∧ c.copies = [] ∧ c.mints = [] ∧ c.colls = [] ∧
      ∀ q, (c.seqs.get q).mark = none ∧ (c.seqs.get q).late = none ∧ (c.seqs.get q).run ≠ .halted := by
  simp [isResting, sqs] at h
  obtain ⟨⟨⟨⟨⟨⟨⟨h1, h2⟩, h3⟩, h4⟩, h5⟩, h6⟩, h7⟩, h8⟩ := h
  refine ⟨h1, h2, h3, h4, h5, h6, h7, fun q => ?_⟩
  cases q <;> simp_all
theorem witness_Watchdogs : (let w := { SeqState.reset with run := .waiting, waitOn := some .token }
    let stuck : Core := { worker with seqs := Quad.all w, invals := [⟨0, Quad.all false, false, 0, 0⟩], lastActive := 4 }
    let s : State := { resting with cores := [(0, stuck)], cycle := 4100, ctxs := [(0, { ctx with draining := some (0, false) })], queues := [(0, { queue with records := [{ rec (simple 0 0) .running with live := 2 }] })] }
    let b := s.boundOf 0 Partition.quiescentBound
    let d := s.boundOf 0 Partition.drainBound
    Store.find? s.gangs 0 == some ⟨[0], [], [], []⟩ && (s.core 0).stuck && decide ((s.core 0).lastActive + 4096 ≤ s.cycle) && (s.core 0).task == some Task.placed && Task.placed.gang == 0 && Task.placed.launch == none &&
    decide (({ s with cycle := 4099 } : State).cycle < (s.core 0).lastActive + 4096) && (Store.find? s.queues (queueKey 0 0)).any (fun q => (q.record 0).any (fun r => r.faulted == none && decide (2 ≤ r.live))) &&
    (s.core 0).invals.head? == some ⟨0, Quad.all false, false, 0, 0⟩ && b == 170000 && decide (s.cycle < 0 + b) && decide (0 + b ≤ 170000) && (Store.find? s.ctxs 0).any (fun c => c.draining == some (0, false)) &&
    d == 170000 && decide (s.cycle < 0 + d) && s.coresOf 0 != [] && s.stoppable (s.coresOf 0) &&
    next (exec (.deadlockWatchdog 0) s) (fun t => (t.core 0).task == none)) = true := by decide +kernel
theorem witness_Drains : (let c := { ctx with draining := some (3, true) }
    let s : State := { base with ctxs := [(0, c)] }
    Store.find? base.ctxs 0 == some ctx && ctx.draining == none && !ctx.drained && Store.find? s.ctxs 0 == some c && s.coresOf 0 == [] && resting.coresOf 0 != [] && ({ ctx with drained := true } : Context).drained &&
    queue.ctx == 0) = true := by decide +kernel
theorem witness_HardStops : (let s := resting
    let f : State := { s with ctxs := [(0, { ctx with live := List.replicate 512 1 })] }
    isResting s 0 Task.placed && s.stoppedWith 0 == [0] && Store.find? s.ctxs 0 == some ctx && Store.find? s.tenants 0 == some tenant && Store.find? tenant.imageRoots tenant.gen == some 0 &&
    Store.getD tenant.seals 1 0 == 0 && decide (ctx.live.length < 512) && (Store.find? f.ctxs 0).any (fun c => decide (512 ≤ c.live.length)) &&
    next (exec (.hardStop 0 false []) f) (fun t => t.replies == [.preempted 0 0xD2 none]) && next (exec (.hardStop 0 true []) s) (fun t => t.replies == [.preempted 0 0xD2 none])) = true := by decide +kernel
theorem witness_HardStops_lost : (let k : Task := { Task.placed with decl := { Task.placed.decl with scratch := 256 } }
    let s : State := { (resting.modCore 0 (fun c => { c with task := some k })) with lostRows := [1] }
    isResting s 0 k && Store.rising s.cores && s.stoppedWith 0 == [0] && s.imageCause 0 k == some 0xE0 && decide (ctx.live.length < 512) && next (exec (.hardStop 0 false []) s) (fun t => (t.core 0).task == none)) = true := by decide +kernel
/-- SAVE on core 0 through `chip` or `vault`, with counter 0 bound to its task, which declares no tile and no scratchpad. -/
def saving (m : Option WaitMark) (b : Bool) : State :=
  let k : Task := { Task.placed with decl := { Task.placed.decl with tiles := 0, scratch := 0 } }
  let s := on .ctl { worker with handles := (worker.handles.setIfInBounds 2 chip).setIfInBounds 3 vault, task := some k, invals := [⟨0, Quad.all true, false, 0, 0⟩] } []
  { s.modSeq (fun x => { x with mark := m }) with counters := if b then [(0, ⟨1, 1, some (0, 0, 0), false, none⟩)] else [] }
theorem witness_Saves : (let s := saving none true
    let k : Task := { Task.placed with decl := { Task.placed.decl with tiles := 0, scratch := 0 } }
    s.curSq == .ctl && okIs (s.scalars [1]) () && okIs (s.handleReg 2) chip && okIs (s.handleReg 3) vault && (saving (some (.saved 1 5)) true).seq.mark == some (.saved 1 5) && (saving (some (.save 1)) true).seq.mark == some (.save 1) &&
    isResting s 0 k && s.handleCause 0 chip rightS == none && s.handleCause 0 vault rightS == none && (saving none false).counterOf k == none && s.counterOf k == some (0, ⟨1, 1, some (0, 0, 0), false, none⟩) && hPersist vault &&
    s.imageLength 0 k == 0x1010 && Store.find? s.ctxs 0 == some ctx && decide (ctx.live.length < 512) && s.handleCause 0 0 rightS == some 0x70 && Store.getD tenant.seals 1 0 == 0 &&
    next (exec (.save 1 2 0) (saving (some (.saved 1 5)) true)) (fun t => t.seq.reg 1 == 5) && next (exec (.save 1 2 1) s) (fun t => t.seq.reg 1 == 0x8000000000000002)) = true := by decide +kernel
theorem witness_HardStops_image : (let s : State := { saving none false with gangs := [(0, ⟨[0], [], [], []⟩)], clusterTenant := [(0, 0)] }
    let k : Task := { Task.placed with decl := { Task.placed.decl with tiles := 0, scratch := 0 } }
    isResting s 0 k && s.stoppedWith 0 == [0] && s.imageCause 0 k == none && (s.nextSession k.ctx false).any (fun x => x.2.1 == 1 && x.2.2 == none && (x.1.sealImage 0 k false none x.2.1).isSome) &&
    (s.pageCounter k).any (fun x => (x.1.sealImage 0 k false (some x.2) 1).isSome)) = true := by decide +kernel
theorem witness_Saves_more : (let k : Task := { Task.placed with decl := { Task.placed.decl with tiles := 0, scratch := 0 } }
    let l : Task := { Task.placed with decl := { Task.placed.decl with tiles := 0, scratch := 256 } }
    let s := saving none true
    let b : State := { s.modCore 0 (fun c => { c with task := some l }) with lostRows := [1] }
    Store.rising s.cores && s.imageCause 0 k == none && isResting b 0 l && b.imageCause 0 l == some 0xE0 && b.handleCause 0 chip rightS == none && next (exec (.save 1 2 0) b) (fun t => t.seq.cause == 0xE0) &&
    decide (2 ^ 32 ≤ Store.getD ({ tenant with seals := [(1, 2 ^ 32)] } : Tenant).seals (0 * 2 ^ 32 + 1) 0) && Store.find? tenant.imageRoots tenant.gen == some 0) = true := by decide +kernel
/-- A persistent hard stop of that task through `vault`. -/
theorem witness_HardStops_persistent : (let s : State := { saving none false with gangs := [(0, ⟨[0], [], [], []⟩)], clusterTenant := [(0, 0)] }
    let k : Task := { Task.placed with decl := { Task.placed.decl with tiles := 0, scratch := 0 } }
    isResting s 0 k && s.stoppedWith 0 == [0] && (s.pageCounter k).isSome && hPersist vault && s.accessCause (hTenant vault) vault rightS 0 (s.imageLength 0 k) 1 == none) = true := by decide +kernel
theorem witness_Saves_reach : (let s := saving none true
    okAnd (s.reach chip rightS 0 0x1010 1 .write) (fun r => okIs (r.1.writable r.2) ()) && okAnd (s.reach vault rightS 0 0x1010 1 .write) (fun r => okIs (r.1.writable r.2) ())) = true := by decide +kernel

/-- An all-reduce of 4 elements of FP32 over an axis of two members, from memory at 0x1000 to the scratchpad at 0x2000, that has started. -/
def reduction : Coll := ⟨1, 0, 7, plain, chip, 0x1000, 0x2000, [4], 0x10000, 0, false, false, 0x40000001, true, true, 0, [], 0, [], [], none, none, none, none, false, [], [], [], [], [], none⟩
/-- The task of a group of two. -/
def paired : Task := { Task.placed with group := ⟨0, 2, 0, [2, 1, 1, 1], []⟩ }
def fabric (hbm : Store Byte) (k : Coll) : State :=
  { on .ctl { worker with task := some paired, colls := [(3, k)], invals := [⟨0, Quad.all true, false, 0, 0⟩] } [] with hbm := hbm, tdis := [(0, { ring with frprod := 16 })], links := Vector.replicate 16 ⟨some (9, 2), 0, 0⟩ }
theorem witness_FaultService_engines : (let s := fabric [] reduction
    let k : Copy := { moving .cpy with src := plain }
    let e : State := { engine k with hbm := [], tdis := [(0, { ring with frprod := 16 })] }
    let h : State := engine { moving .cpy with fault := some 3 }
    (h.core 0).copies.all (fun k => !(h.core 0).copyMoves k) && (e.core 0).copy? 4 == some k && (e.core 0).copyMoves k && (((e.runCopy 0 4 (3 + 1 - k.next)).core 0).copy? 4).any (fun k => k.fault == some 0) &&
    Store.find? (s.core 0).colls 3 == some reduction && (s.core 0).collMoves reduction &&
    (match s.collRead 0 plain (0x1000 + 0) (Nat.min 4096 (reduction.srcBytes (s.core 0).group.axes - 0)) with | .error (.fault i) => s.restartable 0 i | _ => false)) = true := by decide +kernel

/-- An image of three bytes of `stopped` that awaits its commit. -/
def committing (bs : List Byte) : State :=
  { stopped bs with commits := [⟨0, some 0, vault, 0, 0, 1, 2, [1, 2, 3]⟩], cores := [(0, { worker with seqs := { worker.seqs with ctl := { SeqState.reset with run := .waiting, mark := some (.save 1) } } })] }
theorem witness_Commits : (committing [1, 2, 3]).commits.find? (fun k => k.counter == 0) = some ⟨0, some 0, vault, 0, 0, 1, 2, [1, 2, 3]⟩ ∧
    Store.find? (committing [1, 2, 3]).counters 0 = some ⟨1, 1, some (0, 0, 0), false, none⟩ ∧ ((committing [1, 2, 3]).core 0).seqs.ctl.mark = some (.save 1) ∧ 2 = 1 + 1 ∧
    (let k : Commit := ⟨0, none, vault, 0, 0, 1, 2, [1, 2, 3]⟩
      let s : State := { committing [] with commits := [k, { k with value := 3 }] }
      next (exec (.persistentCommit 0 false) s) (fun t => t.replies == [.committed 0 none] && t.commits == [{ k with value := 3 }]) = true) ∧
    (∃ s1, (committing [1, 2, 3]).readImage vault 0 3 = .ok (s1, [1, 2, 3])) ∧ Store.find? (committing [1, 2, 3]).tenants 0 = some tenant ∧ Store.find? tenant.imageRoots 1 = some 0 := by
  refine ⟨by decide +kernel, by decide +kernel, by decide +kernel, rfl, by decide +kernel, ?_, by decide +kernel, by decide +kernel⟩
  exact readImage_listing (committing [1, 2, 3]) vault [1, 2, 3] 3 low rfl (by decide) (by decide +kernel) (by decide +kernel) (by decide +kernel) (by decide +kernel) (by decide)

theorem witness_Migrations : (let s := base
    let p : Partition := { part with dirty := [3] }
    let d : State := { s with parts := [(0, p)] }
    Store.find? d.parts 0 == some p && d.coresIn 0 == [] && part.slices.contains 0 && s.sliceFree 31 && !s.sliceFree 0 && !(part.moving.any (fun m => m.slice == 0)) &&
    next (exec (.migration 0 []) s) (fun t => t.queues == [] && t.ctxs == []) && next (exec (.legacySliceCopy 0 0 31) s) (fun t => (Store.find? t.parts 0).any (fun p => p.sliceMap == [(0, 31)]))) = true := by decide +kernel
theorem witness_SliceMoves : (let m := fun (n : Nat) (c : Bool) => (⟨0, 31, n, c⟩ : SliceMoving)
    let p := fun (n : Nat) (c : Bool) => ({ part with moving := [m n c] } : Partition)
    let s := fun (n : Nat) (c : Bool) => ({ base with parts := [(0, p n c)] } : State)
    part.moving.all (fun m => m.slice != 0) && [(0, false), (0, true), (slicePages - 1, true)].all (fun x =>
      (p x.1 x.2).moving.find? (fun m => m.slice == 0) == some (m x.1 x.2) && Store.rising (s x.1 x.2).parts && Memory.wf (s x.1 x.2).hbm &&
      List.find? (fun q : Nat × Partition => q.2.moving.any (fun m => m.slice == 0) || (Store.find? q.2.sliceMap 0).isSome) (s x.1 x.2).parts == some (0, p x.1 x.2) &&
      decide (x.1 < slicePages) && (p x.1 x.2).physical 0 != 31) && decide (0 + 1 < slicePages) && decide (slicePages - 1 + 1 = slicePages) &&
    next (exec (.sliceMovePage 0 0) (s 0 true)) (fun t => t.readLoc (.hbm 0x10000) == 1)) = true := by decide +kernel
theorem witness_HostSide : (let s := base
    let place := fun (acc : Acc) (i : Nat) => match s.secondStage 0 (0x10000 + i) with
      | .error _ => none
      | .ok l => if l.perm.allows acc then some (if l.perm.d then Loc.discarded else physLoc false l.addr) else none
    List.find? (fun (c : Nat × Context) => c.2.tdi == 0) s.ctxs == some (0, ctx) && (List.range 2).mapM (place .read) == some [.hbm 0x10000, .hbm 0x10001] && firstCause s.readCause [.hbm 0x10000, .hbm 0x10001] == none &&
    (List.range 1).mapM (place .write) == some [.hbm 0x10000] && !s.hbmHeld 0x10000 && part.page 0 == some 0 &&
    next (exec (.hostAccess 0 0x10000 2 false []) s) (fun t => t.replies == [.read [1, 0]])) = true := by decide +kernel
theorem witness_TenantTokens : (let a : Account := ⟨10, -3, 8, 1, 0⟩
    let b : Account := ⟨10, 7, 0, 0, 0⟩
    let p : Partition := { part with accounts := [(0, a), (1, b)], period := 5 }
    let s : State := { queued 0 [rec (simple 0 0) .running] with parts := [(0, p)], cycle := 170005 }
    let idle := p.accounts.filter (fun (x : Nat × Account) => x.1 != 0 && decide (0 < x.2.balance) && !s.tenantBusy 0 x.1)
    Store.find? s.parts 0 == some p && decide ({ s with cycle := 170004 }.cycle < p.period + 170000) && decide (p.period + 170000 ≤ s.cycle) && Store.find? p.accounts 0 == some a && Store.find? p.accounts 1 == some b &&
    decide (0 < b.balance) && decide (a.balance ≤ 0) && idle.find? (fun x => idle.all (fun y => decide (y.2.balance ≤ x.2.balance))) == some (1, b) && s.tenantOrder 0 0 0 != [] && decide (a.borrowed < 2 * a.budget) &&
    decide (a.debt < 8 * a.budget) && next (exec (.tokenBorrow 0 0) s) (fun t => (Store.find? t.parts 0).any (fun p => p.accounts == [(0, ⟨10, 4, 15, 8, 0⟩), (1, ⟨10, 0, 0, 0, 0⟩)])) &&
    next (exec (.arbitrationPeriod 0) s) (fun t => (Store.find? t.parts 0).any (fun p => p.accounts == [(0, ⟨10, 2, 3, 0, 0⟩), (1, ⟨10, 10, 0, 0, 0⟩)]))) = true := by decide +kernel
theorem witness_Caps : (let p : Partition := { part with cap := 100, level := 60 }
    let s : State := { base with parts := [(0, p)] }
    Store.find? s.parts 0 == some p && p.cap != 0 && decide (p.cap < 101) && decide (100 * 94 < 95 * p.cap) && next (exec (.powerCapTick 0 101) s) (fun t => (Store.find? t.parts 0).any (fun p => p.level == 61)) &&
    next (exec (.setPowerCap [(0, 1880)]) s) (fun t => (Store.find? t.parts 0).any (fun p => p.cap == 1880)) && next (exec (.setPowerCap [(0, 1881)]) s) (fun t => (Store.find? t.parts 0).any (fun p => p.cap == 100)) &&
    next (exec (.setSlotQuota [(0, 512)]) s) (fun t => t.quotas == [(0, 512)]) && next (exec (.setSlotQuota [(0, 1), (5, 512)]) s) (fun t => t.quotas == []) &&
    next (exec (.setCisternShare 0 7 96) s) (fun t => (Store.find? t.parts 0).any (fun p => p.cistern.getD 7 0 == 96)) && next (exec (.setCisternShare 0 7 97) s) (fun t => (Store.find? t.parts 0).any (fun p => p.cistern.getD 7 0 == 1))) = true := by decide +kernel
theorem witness_Configures : (let s : State := { base with tdis := [(0, ring)] }
    let c : QueueSetup := ⟨0, 63, 0, 0, 0, 0x10000, 0x100000, 16, chip, 0x2000⟩
    let p : PartSetup := ⟨15, [31], [31], [15], 0x10000, [0, 1], 1, [], [], none, some 100, none⟩
    s.goodSetup c && !s.goodSetup { c with ringLog := 17 } && s.goodPartition p && !s.goodPartition { p with slices := [0] }) = true := by decide +kernel
theorem witness_Configures_waits : (let s : State := { base with parts := [(0, { part with moving := [⟨0, 31, 1, true⟩] })] }
    s.mcWaits [(0x10000, 1)] && !base.mcWaits [(0x10000, 1)] && s.waiting == [] && s.faults == []) = true := by decide +kernel
theorem witness_FunctionResets : (let s := queued 0 []
    Store.rising s.ctxs && next (exec (.flr 0) s) (fun t => t.ctxs == [] && t.queues == [] && (t.core 0).task == none)) = true := by decide +kernel

/-- Sessions of the driver, of tenant 0, of another owner, and of the driver through a TDI that is not locked. -/
def requesting (s : State) : State :=
  { s with tdis := [(0, { ring with state := .locked })], sessions := [(1, ⟨0, none, 0, 0, 0⟩), (2, ⟨0, some 0, 0, 0, 0⟩), (3, ⟨0, some 9, 0, 0, 0⟩), (4, ⟨1, none, 0, 0, 0⟩)] }
def inSession (s : State) (id : Nat) (owner : Option (BitVec 384)) : Bool := (Store.find? s.sessions id).any (fun x => s.tdiAccepts x.tdi && x.owner == owner)
def outOfSession (s : State) (id : Nat) : Bool := (Store.find? s.sessions id).all (fun x => !s.tdiAccepts x.tdi)
/-- What the claims about the TC's requests suppose of their requesters. -/
theorem witness_sessions : (let s := requesting base
    inSession s 1 none && inSession s 2 (some 0) && tenant.owner == 0 && inSession s 3 (some 9) && outOfSession s 4 && outOfSession s 5) = true := by decide +kernel

theorem witness_TenantRequests : (let full : State := { base with tenants := (List.range 1024).map (fun i => (i + 1, { tenant with slot := i })) }
    let two : State := { base with tenants := [(0, tenant), (5, { tenant with slot := 1 })], pages := [(3, ⟨some 0, false, false⟩)], hbm := [(0x30000, 7)] }
    Store.find? base.tenants 0 == some tenant && tenant.owner != 1 && goodPolicy policy && !goodPolicy { policy with maxCounters := 4097 } && Store.rising two.tenants && Store.rising two.ctxs &&
    two.pages.any (fun p => p.2.slot == some 0 && p.1 == 3) && Store.find? base.tenants 1 == none && decide (1023 < 1024) && Store.find? two.tenants 1023 == none && two.tenants.all (fun p => p.2.slot != 2) &&
    (List.range 2).all (fun j => two.tenants.any (fun p => p.2.slot == j)) && Store.find? full.tenants 0 == none &&
    next (exec (.bind (.session 3) 1023 policy) (requesting two)) (fun t => (Store.find? t.tenants 1023).any (fun x => x.slot == 2 && x.owner == 9) && t.replies == [.status 0]) &&
    next (exec (.policy (.session 3) 0 policy) (requesting two)) (fun t => t.replies == [.status 1]) &&
    next (exec (.unbind ⟨.session 2, 0⟩) (requesting two)) (fun t => Store.find? t.tenants 0 == none && t.pages.all (fun p => p.2.slot != some 0) && Memory.read t.hbm 0x30000 == 0)) = true := by decide +kernel
def crowd (n : Nat) : Store Tenant := (List.range n).map (fun i => (i + 1, { tenant with slot := i }))
theorem mem_crowd (n k : Nat) (hk : k < n) : ∃ p ∈ crowd n, p.2.slot = k :=
  ⟨(k + 1, { tenant with slot := k }), List.mem_map.mpr ⟨k, List.mem_range.mpr hk, rfl⟩, rfl⟩
theorem witness_TenantRequests_full : ∀ k, k < 1024 → ∃ p ∈ crowd 1024, p.2.slot = k := mem_crowd 1024
theorem witness_DriverMints : (let s := base
    let q : MintAsk := ⟨0x1000, 64, 3, 0, 0, false⟩
    Store.find? s.ctxs 1 == none && Store.find? s.ctxs 0 == some ctx && (s.mint 0 0 0 true q).2.1 == 0 && (s.mint 0 0 0 true { q with len := 0 }).2.1 == 3 && (s.mint 0 0 0 true { q with fmt := 12 }).2.1 == 3 &&
    (s.mint 0 0 0 true { q with flags := 5 }).2.1 == 1 && (s.mint 0 0 0 true { q with reserved := true }).2.1 == 2 &&
    next (exec (.mint ⟨.session 1, 0⟩ 0 0x1000 64 3 0 0) (requesting s)) (fun t => t.replies.any (fun r => match r with | .minted n h => n == 0 && hBase h == 0x1000 | _ => false)) &&
    (requesting s).sessionTdi (.session 1) == some ctx.tdi &&
    next (exec (.mint ⟨.session 1, 0⟩ 0 0x1000 64 3 0 0) (requesting { s with ctxs := [(0, { ctx with tdi := 5 })] })) (fun t => t.replies == [.minted 1 0]) &&
    next (exec (.mint ⟨.session 2, 0⟩ 0 0x1000 64 3 0 0) (requesting s)) (fun t => t.replies == [.minted 1 0])) = true := by decide +kernel
def sweeping (st : Nat) (all : Bool) : Sweep := ⟨0, 1, all, true, none, st, 1, 0, false, false⟩
def revoking (st : Nat) (all : Bool) : State := { on .ctl { worker with handles := worker.handles.setIfInBounds 3 vault } [] with sweeps := [(4, sweeping st all)] }
theorem witness_Revocations : (let f : Tenant := { tenant with revoked := List.replicate 1024 9 }
    Store.find? base.tenants 0 == some tenant && decide (tenant.revoked.length < 1024) && decide (1024 ≤ f.revoked.length) && !f.revoked.contains 1 && base.sweeps == [] &&
    (List.range 5).all (fun st => [true, false].all (fun a => List.find? (fun (p : Nat × Sweep) => p.2.tenant == 0 && !p.2.done) (revoking st a).sweeps == some (4, sweeping st a))) &&
    (revoking 3 false).tenantCores 0 == [0] && ((revoking 4 false).core 0).loads == [] && ((revoking 4 false).core 0).stores == [] &&
    next (exec (.revocationSweep 0) (revoking 0 false)) (fun t => (Store.find? t.tenants 0).any (fun x => x.revoked == [1])) &&
    next (exec (.revocationSweep 0) (revoking 0 true)) (fun t => (Store.find? t.tenants 0).any (fun x => x.epoch == 1)) &&
    next (exec (.revocationSweep 0) (revoking 3 false)) (fun t => decide ((t.core 0).handles[3]? = some (vault &&& ~~~((1 : BitVec 256) <<< 191)))) &&
    ((revoking 4 false).core 0).copies == [] && (revoking 4 false).waiting == [] &&
    next (exec (.revocationSweep 0) (revoking 4 false)) (fun t => t.replies == [.revoked 0 1 0] && t.sweeps == [])) = true := by decide +kernel
/-- Copies through the handle that the sweep names: not begun, begun, at the end of its elements, and halted at a fault (R307). -/
theorem witness_Revocations_copies : (let k : Copy := { moving .cpy with src := vault, next := 0 }
    let ks := [{ k with id := 1 }, { k with id := 2, touched := true }, { k with id := 3, touched := true, next := 4 }, { k with id := 5, touched := true, fault := some 0, staged := [(8, .win 0 0x118, 0xBB)] }]
    let s := fun (st : Nat) => (revoking st false).modCore 0 (fun c => { c with copies := ks })
    let w := fun (st : Nat) => sweeping st false
    Store.rising (s 1).cores && (s 1).tenantCores 0 == [0] && ks.all (fun k => (s 1).sweepNames (w 1) k.src && k.status == 0 && !k.landed && ((s 1).core 0).copy? k.id == some k) && !((s 2).core 0).saving &&
    !(s 2).copying [.win 0 0x118] && ((s 2).core 0).task != none && ((s 4).core 0).me.preloads == [] &&
    next (exec (.revocationSweep 0) (s 1)) (fun t => (t.core 0).copies.map Copy.status == [0x74, 0, 0, 0] && (Store.find? t.sweeps 4).any (fun x => x.copies == 1 && x.stage == 2)) &&
    next (exec (.revoke ⟨.session 1, 0⟩ (2 ^ 32) false) (requesting base)) (fun t => t.replies == [.revoked 2 0 0]) && next (exec (.revoke ⟨.session 3, 0⟩ 1 false) (requesting base)) (fun t => t.replies == [.revoked 1 0 0])) = true := by decide +kernel
/-- Tenant 0 while its pages of slice 0, page 3 among them, take the newer generation. -/
def rotating : State := { base with tenants := [(0, { tenant with rotating := true, older := true, gen := 2, marks := [(0, 0)] })], pages := [(3, ⟨some 0, false, false⟩)] }
theorem witness_Rotations : (let l : Tenant := { tenant with gen := 2 ^ 32 - 1 }
    Store.find? base.tenants 0 == some tenant && !tenant.rotating && decide (tenant.gen < 2 ^ 32 - 1) && decide (2 ^ 32 - 1 ≤ l.gen) &&
    (List.find? (fun (p : Nat × Tenant) => p.2.rotating && (Store.find? p.2.marks 0).isSome) rotating.tenants).any (fun p => p.1 == 0) && rotating.nextMark 0 0 (Store.getD [(0, 0)] 0 0) == some 3 &&
    (({ base with cores := [(0, { worker with bankMark := some 16383 })] } : State).core 0).bankMark == some 16383 &&
    next (exec (.rotationPageConvert 0) rotating) (fun t => (Store.find? t.tenants 0).any (fun x => !x.older && x.gen == 2)) && next (exec (.bankRowRekey 0) { base with cores := [(0, { worker with bankMark := some 16383 })] }) (fun t => (t.core 0).bankMark == none)) = true := by decide +kernel
theorem witness_Scrubs : (let s : State := { base with cores := [(0, { Core.reset with watermark := 16383, scratch := [(5, 1)] }), (1, { Core.reset with watermark := 16384 })], hbm := [(0x30000, 7)], pages := [(4, ⟨none, false, false⟩)] }
    decide (16384 ≤ (s.core 1).watermark) && decide ((s.core 0).watermark < 16384) && !((s.core 0).scrubbed.contains 16383) && !(s.owner 4).scrub && (s.owner 3).scrub && decide (3 * 65536 < Config.hbmBytes) &&
    next (exec (.hbmScrubPage 3) s) (fun t => Memory.read t.hbm 0x30000 == 0 && !(t.owner 3).scrub) && next (exec (.zeroWalkRow 0) { s with cores := [(0, { Core.reset with scratch := [(5, 1)] })] }) (fun t => t.readLoc (.win 0 5) == 0)) = true := by decide +kernel
theorem witness_StoredState : (let y : Stream := ⟨0, false, 7, 0⟩
    let s : State := { base with streams := [(5, y), (6, { y with tenant := 1 })], counters := [(0, ⟨4, 4, some (0, 0, 7), false, none⟩)], fuses := base.fuses.setIfInBounds 3 ⟨(1 <<< 127) - 1, (1 <<< 127) - 1⟩ }
    let u : State := { s with cores := [(0, { worker with copies := [{ flying 0 with mode := .cpyout, extra := 5 }] })] }
    let m : State := { s with counters := (List.range 4).map (fun i => (i, ⟨4, 4, some (0, 0, i), false, none⟩)) }
    let f : State := { s with fuses := base.fuses.setIfInBounds 3 ⟨BitVec.allOnes 128, 0⟩ }
    Store.find? s.tenants 0 == some tenant && Store.find? s.streams 65535 == none && Store.find? s.streams 5 == some y && (Store.find? s.streams 6).any (fun z => z.tenant != 0) && s.cores.all (fun p => !s.usesStream p.1 5 0) &&
    u.cores.any (fun p => u.usesStream p.1 5 0) && decide (policy.maxCounters ≤ m.counters.countP (fun (p : Nat × Counter) => (p.2.bound.map Prod.fst) == some 0)) &&
    decide (s.counters.countP (fun (p : Nat × Counter) => (p.2.bound.map Prod.fst) == some 0) < policy.maxCounters) && s.counters.all (fun p => p.2.bound != some (0, 0, 1)) &&
    (Store.find? s.counters 1).bind Counter.bound == none && (Store.find? s.counters 0).bind Counter.bound != none &&
    (s.fuses[3]?).any (fun f => f.value == 127) && (f.fuses[3]?).any (fun f => f.value == 128) && decide (127 + 1 ≤ 128) &&
    next (exec (.counterBind ⟨.session 1, 0⟩ 0 1) (requesting s)) (fun t => t.replies == [.counter 0 1]) && next (exec (.counterRead ⟨.session 1, 0⟩) (requesting s)) (fun t => t.replies == [.counter 0 4]) &&
    next (exec (.fuseAdvance ⟨.mc, 3⟩ 128 true false) s) (fun t => (t.fuses[3]?).any (fun f => f.value == 128)) && next (exec (.fuseAdvance ⟨.mc, 3⟩ 127 true false) s) (fun t => t.replies == [.status 1])) = true := by decide +kernel
theorem witness_Interfaces : (let l : Link := ⟨some (9, 2), 7, 7⟩
    let s := fun (g : Nat) (o : Bool) (u : List Nat) (n : Nat) => ({ base with links := base.links.setIfInBounds 3 { l with fails := n }, parts := [(0, { part with linkGen := g, linkOlder := o, linkUpdated := u })] } : State)
    let x := s 1 true [3] 7
    let f := fun (g : Nat) => (⟨0, g, 5, List.replicate 16 0⟩ : Frame)
    let good := Crypto.gcmTag (({ part with linkGen := 1 } : Partition).linkKey 1 3) (frameIv 3 true 5) (frameHeader (f 1)) (List.replicate 16 0)
    (x.tdi 31).state == .unlocked && (({ base with tdis := [(0, { ring with state := .locked })] } : State).tdi 0) == { ring with state := .locked } && ring.stream && next (exec (.tdispMessage 0 2) { base with tdis := [(0, { ring with state := .locked, stream := false })] }) (fun t => (t.tdi 0).state == .locked) && base.failedStep == none && ({ base with failedStep := some 4 } : State).failedStep == some 4 &&
    decide (x.links[3]? = some l) && decide ((s 1 true [] 8).links[3]? = some { l with fails := 8 }) && (Store.find? x.parts 0).any (fun p => p.linkGen == 1 && p.linkOlder && p.ports.contains 3 && p.linkUpdated.contains 3 && !p.linkUpdated.contains 0) &&
    (Store.find? (s 1 false [] 0).parts 0).any (fun p => !p.linkOlder) && (Store.find? (s 1 true [0, 1, 2, 3] 0).parts 0).any (fun p => p.ports.all p.linkUpdated.contains) && ((worker.task.map Task.part) == some 0) &&
    next (exec (.frameReceive 3 (f 1) good 0 0 false) x) (fun t => (t.links[3]?).any (fun l => l.fails == 0)) && next (exec (.frameReceive 3 (f 1) [] 0 0 false) x) (fun t => decide (t.links[3]? = some { l with fails := 8 })) &&
    next (exec (.frameReceive 3 (f 0) [] 0 0 true) (s 1 true [] 8)) (fun t => (t.links[3]?).any (fun l => l.peer == none && l.fails == 0)) && (Store.find? x.parts 0).any (fun p => p.goodFrame 3 (f 1) good && !p.goodFrame 3 (f 1) []) &&
    next (exec (.linkKeyUpdate 0 0) x) (fun t => (Store.find? t.parts 0).any (fun p => p.linkUpdated == [3, 0])) && next (exec (.linkKeyRetire 0) (s 1 true [0, 1, 2, 3] 0)) (fun t => (Store.find? t.parts 0).any (fun p => !p.linkOlder)) &&
    next (exec (.tdispMessage 0 1) base) (fun t => (t.tdi 0).state == .locked)) = true := by decide +kernel
theorem witness_Interfaces_measured : (next (exec (.spdmMessage ⟨0, 0, none⟩) { base with failedStep := some 4 }) (fun t => t.replies == []) && next (exec (.spdmMessage ⟨0, 3, some 7⟩) { base with failedStep := some 4 }) (fun t => t.replies == [.measurement [4]]) &&
    next (exec (.spdmMessage ⟨0, 4, none⟩) base) (fun t => t.replies == [.measurement [0, 0, 0, 0]])) = true := by decide +kernel

theorem witness_ReductionSlots : (let c : Context := { ctx with slots := List.replicate 63 (0, false, 0) }
    let s : State := { on .ctl worker [(1, 1), (2, 2), (3, 63)] with ctxs := [(0, c)] }
    let p : State := { s with poolDrawn := Vector.replicate 16 512 }
    let q : State := { s with quotas := [(0, 1)] }
    let y : SlotDraw := ⟨0, 3, 1, none, 3, 0, 1, 7, []⟩
    let w : State := { s with cores := s.cores ++ [(1, worker)], parts := [(0, part), (3, part)], ctxs := [(0, c), (3, { ctx with part := 3, slots := [(0, false, 1)] })], poolDrawn := Vector.replicate 16 448, slotDraws := [y] }
    s.curSq == .ctl && okIs (s.scalars [5, 1]) () && okIs (s.src 1) (1, 0) && okIs (s.src 2) (2, 0) && okIs (s.src 3) (63, 0) && Store.find? s.ctxs s.who.ctx == some c && wfSlotType 2 && decide (63 + 1 ≤ 64) &&
    s.drawSlots s.who.part 1 == some 0 && p.drawSlots p.who.part 1 == none && p.drawsNow == [] && q.drawSlots q.who.part 1 == some 1 && w.drawSlots w.who.part 1 == none && w.drawsNow == [y] && decide (w.behind w.who.part < w.behind y.part) &&
    (w.undraw y).drawSlots w.who.part 1 == some 0 && (Store.find? w.ctxs y.ctx).any (fun z => z.slots.length == 1) &&
    next (exec (.rslotReserve 5 1 2) q) (fun t => t.seq.reg 5 == 64 && (Store.find? t.ctxs 0).any (fun c => decide (c.slots[63]? = some (2, true, 0)))) && next (exec (.rslotReserve 5 1 2) w) (fun t => t.seq.reg 5 == 64 && (t.core 1).seqs.ctl.reg 7 == 0x80000000000000C1 && (Store.find? t.ctxs 3).any (fun z => z.slots == [])) && decide (64 < 63 + 2) && decide (63 ≤ c.slots.length) &&
    next (exec (.rslotReserve 5 1 2) s) (fun t => t.seq.reg 5 == 64) && next (exec (.rslotReserve 5 1 2) p) (fun t => t.seq.reg 5 == 0x80000000000000C1) && next (exec (.rslotRelease 5 3) s) (fun t => t.seq.reg 5 == 0)) = true := by decide +kernel

/-- Draws of partition 1, of other modules alone, on plane 3 (R343): slots are left, none are, and none but those of a draw behind it. -/
theorem witness_ReductionSlots_outside : (let y : SlotDraw := ⟨0, 3, 1, none, 3, 0, 1, 7, []⟩
    let w := fun (n : Nat) => ({ base with cores := [(1, worker)], parts := [(0, part), (3, part)], ctxs := [(0, ctx), (3, { ctx with part := 3, slots := [(0, false, 1)] })], poolDrawn := Vector.replicate 16 n } : State)
    let d : State := { w 511 with slotDraws := [y] }
    let fits := fun (u : State) => [3].all (fun i => decide (1 ≤ u.poolFree i) && decide (1 ≤ u.planeFree i))
    (w 0).partition 1 == none && fits (w 0) && !fits (w 511) && (w 511).drawsNow == [] && !fits d && d.drawsNow == [y] && decide (d.behind 1 < d.behind y.part) && fits (d.undraw y) &&
    decide ((((w 0).outside (.poolDrawn 1 1 [3])).poolDrawn[3]) = 1) && decide (((d.outside (.poolDrawn 1 1 [3])).poolDrawn[3]) = 512) && (d.outside (.poolDrawn 1 1 [3])).drawsNow == [⟨0, 1, 0, none, 0, 0, 1, 0, [3]⟩]) = true := by decide +kernel

/-- A handle of tenant 0 to the reduction aperture, with every right (Table 17-4, R344). -/
def aperture : BitVec 256 := 0x125a0016c886e9f98000000081000000000001fe000020000100000000000000
def reducing (q : Sq) (k : Task) (w : ApWord) : State :=
  { on q { worker with handles := worker.handles.setIfInBounds 3 aperture, task := some k } [(1, 8), (2, 5)] with
    ctxs := [(0, { ctx with slots := [(0, false, 0)] })], aperture := [(apKey 0 0 1, w)] }
theorem witness_Aperture : (let w := fun (ps rs : List Word) => (⟨ps, rs, [(0, 0)], [0], 0⟩ : ApWord)
    let s := reducing .st Task.placed (w [1] [])
    let l := reducing .ld Task.placed (w [1] [9])
    let e := reducing .ctl paired (w [1] [])
    let a := reducing .st paired (w [1] [])
    let b := reducing .ld paired (w [1] [9])
    let opened := fun (s : State) => ({ s with links := Vector.replicate 16 ⟨some (9, 2), 0, 0⟩ } : State)
    s.curSq == .st && okIs (s.scalars [2, 1]) () && okIs (s.handleReg 3) aperture && okIs (s.src 1) (8, 0) && okIs (s.src 2) (5, 0) &&
    okIs (s.apertureCheck aperture (rightW ||| rightE) (offsetOf 8 0)) (apKey 0 0 1, 0) && okIs (l.apertureCheck aperture (rightR ||| rightI) (offsetOf 8 0)) (apKey 0 0 1, 0) && okIs (s.after 0) () && s.cur.stores == [] &&
    s.apWord (apKey 0 0 1) == w [1] [] && l.seq.mark == none && decide ((w [1] [9]).results[0 + 1 - 1]? = some 9) && decide ((w [1] []).results[0 + 1 - 1]? = none) &&
    (w [1, 1] []).writers.any (fun n => decide (Store.getD (w [1, 1] []).loads n 0 + 2 ≤ 2)) && (Store.find? e.ctxs ((e.core 0).who 0).ctx).any (fun c => decide (c.slots[0]? = some (0, false, 0))) && (e.core 0).group.size == 2 &&
    decide ((w [1] []).puts[(w [1] []).results.length]? = some 1) && goodLayout 0x10000 && !goodLayout 0x400000 &&
    s.reachesAll s.who.part s.cur.group && l.reachesAll l.who.part l.cur.group && !a.reachesAll a.who.part a.cur.group && !b.reachesAll b.who.part b.cur.group && (opened a).reachesAll a.who.part a.cur.group &&
    next (exec (.apst 2 1 3) a) (fun t => t.seq.cause == 0xC4) && next (exec (.apld 2 1 3) b) (fun t => t.seq.cause == 0xC4) && next (exec (.apst 2 1 3) (opened a)) (fun t => (t.apWord (apKey 0 0 1)).puts == [1, 5]) &&
    next (exec (.apst 2 1 3) s) (fun t => (t.apWord (apKey 0 0 1)).puts == [1, 5]) && next (exec (.apst 2 1 3) (reducing .st Task.placed (w [1, 1] []))) (fun t => t.seq.run == .waiting) &&
    next (exec (.apld 2 1 3) l) (fun t => t.seq.reg 2 == 9)) = true := by decide +kernel

/-- COLL's operands: handles h1 and h2, a format, channel 15, offsets, and an extent of 4. -/
def collecting (fmt : Nat) (cs : Store Coll) : State :=
  { access .ctl (fun c => { c with task := some paired, layouts := c.layouts.setIfInBounds 1 0x10000, colls := cs }) [(8, BitVec.ofNat 64 (1 + 2 * 32 + fmt * 1024 + 15 * 65536)), (9, 0x1000), (10, 0x2000), (11, 4), (12, 0x100000)] with clusterTenant := [(0, 0)] }
theorem witness_CollectiveIssues : ([((7 : Nat), false), (7, true)].all (fun m =>
    let s := collecting m.1 []
    wfGroup 8 3 && s.curSq == .ctl && okIs (s.scalars [5, 8, 9, 10, 11]) () && okIs (s.src 8) (BitVec.ofNat 64 (1 + 2 * 32 + m.1 * 1024 + 15 * 65536), 0) && okIs (s.src 9) (0x1000, 0) && okIs (s.src 10) (0x2000, 0) && okIs (s.src 11) (4, 0) &&
    litKind 0x40000001 != 1 && goodLiteral .ctl 0x40000001 && s.completionCause 0x40000001 == none && layoutDims 0x10000 == 1 && okIs (s.handleReg 1) plain && okIs (s.handleReg 2) chip)) = true := by decide +kernel
theorem witness_CollectiveIssues_sides : ([((7 : Nat), false), (7, true)].all (fun m =>
    let s := collecting m.1 []
    let k : Coll := { reduction with channel := 15, louvre := m.2 }
    let axes := s.cur.group.axes
    let sb := k.srcBytes axes
    let db := k.dstBytes axes
    s.handleCause 0 plain (if needM 0 plain 0x1000 sb then rightR ||| rightE ||| rightM else rightR ||| rightE) == none && s.handleCause 0 chip (if needM 0 chip 0x2000 db then rightW ||| rightI ||| rightM else rightW ||| rightI) == none &&
    decide (k.soff % k.esz = 0) && decide (k.doff % k.esz = 0) && decide (k.soff + sb ≤ hLen plain) && decide (k.doff + db ≤ hLen chip) &&
    s.sideCause ⟨plain, 0x1000, [], 0, sb, none, false, none⟩ [] == none && s.sideCause ⟨chip, 0x2000, [], 0, db, none, false, none⟩ [] == none &&
    k.scratchAt 0 == 0x2000 && decide (0x2000 + db ≤ s.cur.decl.scratch) && decide (k.tiles axes ≤ 128) && s.cur.heldColl 0 == none &&
    (List.range 16).all (fun i => (collecting 7 ((List.range 16).map (fun i => (i, k)))).cur.heldColl i != none))) = true := by decide +kernel
theorem test_coll : (next (exec (.coll 5 8 0 1 0 1 0x40000001) (collecting 7 [(0, reduction)])) (fun t => t.seq.reg 5 == 1 && (Store.find? t.cur.colls 1).any (fun k => k.counters.length == 1 && k.soff == 0x1000 && k.channel == 15)) &&
    next (exec (.coll 5 12 0 1 0 1 0x40000001) (collecting 7 [])) (fun t => t.seq.cause == 2)) = true := by decide +kernel

/-- A louvre collective of one tile that has landed one plane. -/
def louvre (n : Nat) : Coll := { reduction with louvre := true, counters := [n], cuts := [15] }
def waiting (k : Coll) : State := on .ctl { worker with task := some paired, colls := [(3, k)] } [(1, 3), (2, 4096), (4, 0xFF3), (6, 0x13)]
theorem witness_CollectiveWaits : (let s := waiting (louvre 2)
    let e := waiting { louvre 2 with ended := some 0xC1 }
    okIs (s.scalars [5, 1]) () && okIs (s.scalars [1]) () && okIs (s.src 1) (3, 0) && s.curSq == .ctl && s.cur.heldColl 3 == some (louvre 2) && (waiting { louvre 2 with held := false }).cur.heldColl 3 == none && (louvre 2).ended == none &&
    s.cur.tileCount 3 0 == some 2 && s.cur.tileCount 3 1 == none && okIs (s.src 2) (4096, 0) && okIs (s.src 4) (0xFF3, 0) && wfPlanes 16 && decide ((2 : BitVec 5).toNat ≤ 2) && decide (2 < (3 : BitVec 5).toNat) &&
    next (exec (.collw 5 1) e) (fun t => t.seq.reg 5 == 0xC1 && t.cur.heldColl 3 == none) && next (exec (.collw 5 1) s) (fun t => t.seq.run == .waiting) && next (exec (.plcnt 5 1) s) (fun t => t.seq.reg 5 == 2) &&
    next (exec (.plwait 1 3) e) (fun t => t.seq.cause == 0x27) && next (exec (.plcut 4 9) s) (fun t => (Store.find? t.cur.colls 3).any (fun k => k.cuts == [9])) && next (exec (.plcnt 5 6) s) (fun t => t.seq.cause == 0x27)) = true := by decide +kernel
theorem witness_CollectiveEvents : (let n := { reduction with started := false }
    let f := fun (k : Coll) => fabric tables k
    let s := f n
    let r := f reduction
    Store.find? (s.core 0).colls 3 == some n && (s.core 0).task == some paired && n.ended == none && litKind n.lit == 4 && paired.group.size == 2 && s.reachesAll 0 paired.group && !({ s with peersDown := [(1, 0), (1, 1), (1, 2), (1, 3)] } : State).reachesAll 0 paired.group &&
    layoutSteps paired.group.axes 0x10000 0 [4] == some [.allReduce 0] && layoutSteps paired.group.axes 0 0x10000 [4] == none && layoutSteps paired.group.axes 0x1 0 [4] == some [.allGather 0 0] && s.heldSlot 0 n.slotType == none &&
    ({ s with ctxs := [(0, { ctx with slots := [(1, false, 0)] })] } : State).heldSlot 0 n.slotType == some 0 && s.drawSlots 0 1 == some 0 && n.step paired.group.axes != none &&
    (r.core 0).collMoves reduction && !reduction.cancelling && reduction.srcBytes paired.group.axes == 16 && okIs (match r.collRead 0 plain 0x1000 16 with | .ok (_, bs) => Except.ok bs | .error e => .error e) (List.replicate 16 0) &&
    (louvre 16).landed && ((f (louvre 16)).core 0).collMoves (louvre 16)) = true := by decide +kernel
theorem witness_CollectiveEvents_meet : (let n := { reduction with started := false }
    let s := fabric tables n
    let ended := fun (t : State) => (Store.find? (t.core 0).colls 3).bind Coll.ended
    let y : SlotDraw := ⟨0, 3, 1, none, 3, 0, 1, 7, []⟩
    let w : State := { s with cores := s.cores ++ [(1, worker)], parts := [(0, part), (3, part)], ctxs := [(0, ctx), (3, { ctx with part := 3, slots := [(0, false, 1)] })], poolDrawn := Vector.replicate 16 511, slotDraws := [y] }
    n.met paired.group [(1, n.words)] && !n.met paired.group [] && s.drawsNow == [] && w.drawSlots 0 1 == none && w.drawsNow == [y] && decide (w.behind 0 < w.behind 3) && (w.undraw y).drawSlots 0 1 == some 0 && w.heldSlot 0 n.slotType == none &&
    next (exec (.collectiveRendezvous 0 3 [(1, n.words)] true) w) (fun t => (Store.find? (t.core 0).colls 3).any (fun k => k.started && k.drawn == some false) && (t.core 1).seqs.ctl.reg 7 == 0x80000000000000C1) &&
    next (exec (.collectiveRendezvous 0 3 [(1, n.words)] true) { s with peersDown := [(1, 0), (1, 1), (1, 2), (1, 3)] }) (fun t => (t.core 0).task == none) &&
    next (exec (.collectiveRendezvous 0 3 [(1, n.words)] true) s) (fun t => (Store.find? (t.core 0).colls 3).any (fun k => k.started && k.drawn == some false)) &&
    next (exec (.collectiveRendezvous 0 3 [(1, { n.words with fmt := 6 })] true) s) (fun t => ended t == some 0xC0) &&
    next (exec (.collectiveRendezvous 0 3 [(1, n.words)] true) { s with poolDrawn := Vector.replicate 16 512 }) (fun t => ended t == some 0xC1) &&
    next (exec (.collectiveRendezvous 0 3 [] true) s) (fun t => (Store.find? (t.core 0).colls 3).any (fun k => !k.started && k.ended == none))) = true := by decide +kernel
/-- A reduction whose chunks have all passed, one that is cut off from its peer, and an exchange of which nothing has come. -/
theorem witness_CollectiveEvents_ends : (let k : Coll := { reduction with passed := 2, gone := List.replicate 16 0 }
    let x : Coll := { k with exchange := true }
    let r := fabric tables k
    let cut : State := { fabric tables reduction with peersDown := [(1, 0), (1, 1), (1, 2), (1, 3)] }
    let from' := fun (m : Nat) => List.replicate (if m = 0 then 16 else 16) (0 : Byte)
    cut.cutOff 0 reduction paired.group && !(fabric tables (louvre 16)).cutOff 0 (louvre 16) paired.group && k.passedAll paired.group && (r.core 0).collMoves k &&
    okAnd (r.ownPart 0 k paired.group) (fun o => o.2 == List.replicate 16 0) && k.brought paired.group (r.collResult k paired.group from') &&
    okAny (r.collWrite 0 k.order 0 chip 0x2000 (r.collResult k paired.group from')) && !x.brought paired.group ((fabric tables x).collResult x paired.group from') && x.passedAll paired.group &&
    next (exec (.collectiveCompletion 0 3 0 []) cut) (fun t => (t.core 0).task == none) && next (exec (.planeLanding 0 3 0 []) { fabric tables (louvre 0) with peersDown := cut.peersDown }) (fun t => (t.core 0).task == none) &&
    next (exec (.collectiveCompletion 0 3 0xC2 []) r) (fun t => (Store.find? (t.core 0).colls 3).any (fun k => k.ended == some 0xC2) && (t.core 0).ccnt == 1)) = true := by decide +kernel
theorem witness_CollectiveEvents_planes : (let l : Coll := { louvre 1 with formed := [(0, List.replicate 0x1080 7)], passed := 3, come := List.replicate 0x280 7 }
    let s := fabric tables l
    let e : Coll := { l with come := [] }
    decide (l.counters[0]? = some 1) && (s.core 0).collMoves l && !s.cutOff 0 l paired.group && decide (1 ≤ l.cuts.getD 0 15) &&
    (Store.find? l.formed 0).any (fun bs => l.tileCame paired.group 0 0x180 ((bs.drop 0x180).take 0x100) && !e.tileCame paired.group 0 0x180 ((bs.drop 0x180).take 0x100) &&
      okAny (s.collWrite 0 l.order 1 chip (0x2000 + 0x180) ((bs.drop 0x180).take 0x100))) && decide (({ louvre 3 with cuts := [2] } : Coll).cuts.getD 0 15 < 3) &&
    next (exec (.planeLanding 0 3 0 []) s) (fun t => (Store.find? (t.core 0).colls 3).any (fun k => k.counters == [2])) &&
    next (exec (.planeLanding 0 3 0 []) (fabric tables e)) (fun t => (Store.find? (t.core 0).colls 3).any (fun k => k.counters == [1]))) = true := by decide +kernel
/-- Chunks of that reduction, one out and one in (R341): they enter where there is room, and leave. -/
theorem witness_CollectiveEvents_chunks : (let s := fabric tables reduction
    let axes := paired.group.axes
    let room := { s with parts := [(0, { part with cistern := [1] })] }
    let i : Coll := { reduction with passed := 1, chunks := [List.replicate 16 9] }
    let moved := (fabric tables i).moveChunk 0 3 false []
    reduction.travels paired.group && !s.cutOff 0 reduction paired.group && reduction.allChunks axes == 2 && decide (({ reduction with passed := 2 } : Coll).allChunks axes ≤ 2) && decide (({ s with parts := [(0, { part with cistern := [] })] } : State).chunkRoom 0 ≤ 0) &&
    decide (room.chunksHeld 0 < room.chunkRoom 0) && okAnd (room.chunkOf 0 reduction paired.group 0 []) (fun r => r.2 == List.replicate 16 0) && reduction.chunks == [] && i.spoiled == none && chunkAt (reduction.plan axes) 1 == (16, false) &&
    ((Store.find? ((room.moveChunk 0 3 true []).core 0).colls 3).any (fun k => k.chunks == [List.replicate 16 0])) &&
    ((Store.find? (moved.core 0).colls 3).any (fun k => k.chunks == [] && k.passed == 2 && k.come == List.replicate 16 9))) = true := by decide +kernel

theorem witness_PowerAndHeat : (let s : State := { base with parts := [(0, { part with level := 63 }), (1, { part with cap := 50, level := 7 })], dies := base.dies.setIfInBounds 3 ⟨63, 0, []⟩ }
    decide (s.dies[3]? = some ⟨63, 0, []⟩) && (s.dies[4]?).isNone && (Store.find? s.parts 0).any (fun p => p.cap == 0) && (Store.find? s.parts 1).any (fun p => p.cap != 0) && decide (s.lifetime.temps[15]? = some 0) && decide (s.lifetime.droops[3]? = some 0) &&
    next (exec (.moduleLimiterTick 2701 0) s) (fun t => (Store.find? t.parts 0).any (fun p => p.level == 63) && (Store.find? t.parts 1).any (fun p => p.level == 7)) &&
    next (exec (.thermalLevelTick 3 104) s) (fun t => decide (t.dies[3]? = some ⟨63, 0, []⟩)) && next (exec (.junctionTemperatureSample 114) s) (fun t => decide (t.lifetime.temps[14]? = some 1)) &&
    next (exec (.supplyDroop 3) s) (fun t => (t.dies[3]?).any (fun d => d.droopUntil == 64))) = true := by decide +kernel
theorem witness_LifetimeRecord : (let s := base
    s.commits == [] && decide (s.lifetime.saveSeq < 2 ^ 64 - 1) && ({ s with commits := [⟨0, none, 0, 0, 0, 1, 1, []⟩] } : State).commits != [] && decide (0x10000 / 64 * 64 < Config.hbmBytes) && decide (s.hbmAddr 0x30000 / 64 = 0xC00) &&
    !((({ s with pages := [(3, ⟨some 0, false, false⟩)] } : State).owner 3).scrub) && decide (s.lifetime.hbmCorrected[stackOf 0xC00]? = some 0) &&
    next (exec .lifetimeSave s) (fun t => t.lifetime.saveSeq == 1 && t.saved0 == none && (t.saved1).any (fun l => l.saveSeq == 1))) = true := by decide +kernel

/-- `base` with a turn at the head of the agenda. -/
def due (m : Move) : State := { base with agenda := [⟨1, m⟩] }
theorem witness_StepTurns : (let f : State := { due (.op (.spdmMessage ⟨0, 1, none⟩)) with failedStep := some 4 }
    let o : State := { due (.op .coldReset) with powered := false }
    (due (.op .thermalTrip)).turn.move == .op .thermalTrip && (due (.issue 0 .ld)).powered && (due (.issue 0 .ld)).failedStep == none && (due (.copy 0 4 1)).turn.move == .copy 0 4 1 && (due (.issue 0 .ld)).turn.move == .issue 0 .ld && sessionOf .thermalTrip == none &&
    (((due (.issue 0 .ld)).begin.core 0).seqs.get .ld).run == .idle && f.failedStep == some 4 && f.turn.move == .op (.spdmMessage ⟨0, 1, none⟩) && survivesBringUp (.spdmMessage ⟨0, 1, none⟩) && survivesBringUp .thermalTrip && !survivesBringUp .lifeRead && (due (.strike (.lineLost 3))).turn.move == .strike (.lineLost 3) && (due (.chunk 0 3 true [])).turn.move == .chunk 0 3 true [] && (due (.outside (.poolDrawn 0 1 [3]))).turn.move == .outside (.poolDrawn 0 1 [3]) && !o.powered && o.turn.move == .op .coldReset) = true := by decide +kernel

theorem roundKeys_zero : 2 ≤ (Crypto.roundKeys (Crypto.keyBytes 0)).length ∧ ∀ k ∈ Crypto.roundKeys (Crypto.keyBytes 0), k.length = 16 := by
  have h : ((Crypto.roundKeys (Crypto.keyBytes 0)).all (fun k => k.length == 16) && decide (2 ≤ (Crypto.roundKeys (Crypto.keyBytes 0)).length)) = true := by decide +kernel
  simpa [and_comm] using h
/-- A request over session 1 that comes bare, and in a message that opens to it. -/
theorem witness_SecuredMessages : (let i : Instr := .revoke ⟨.session 1, 0⟩ 5 false
    let s := requesting (due (.op i))
    (s.powered && s.failedStep == none && s.turn.move == .op i && sessionOf i == some 1 && decide (sessionOf i ≠ some 2) && Store.find? s.begin.sessions 1 == some ⟨0, none, 0, 0, 0⟩ &&
      (requesting (due (.sealed 1 [1] [] i))).turn.move == .sealed 1 [1] [] i) = true ∧
    ∃ cipher tag, Crypto.gcmTag 0 (bytesOf 4 0 ++ bytesOf 8 0) [] cipher = tag ∧ Crypto.gcmCrypt 0 (bytesOf 4 0 ++ bytesOf 8 0) cipher = Config.requestText i) :=
  ⟨by decide +kernel, _, _, rfl, Crypto.gcmCrypt_twice 0 _ _ roundKeys_zero.1 roundKeys_zero.2⟩

/-- Sequencer ctl of core 0 at the start of the instruction's words, as `withFetchWord` places them, in the body of a block. -/
def placed (g : BitVec 256) (pb : Option PbState) : State :=
  let s := on .ctl { worker with task := some { Task.placed with code := chip } } []
  { (s.modSeq (fun x => { x with granules := [(2, g)], pb := pb })) with agenda := [⟨1, .issue 0 .ctl⟩] }
theorem witness_Decoded : ([((0x0C14 : BitVec 256) <<< 32), 0x0F00E000 <<< 32, 0xB800 <<< 32].all (fun g =>
    let b : State := { (placed g none).begin with curCore := 0, curSq := .ctl }
    (placed g none).powered && (placed g none).failedStep == none && (placed g none).turn.move == .issue 0 .ctl && b.seq.run == .running && !b.standsStill && b.seq.late == none && b.seq.rep == none && b.seq.inBody && b.seq.guardRuns && !b.gated 0 && !b.seq.reread && b.cur.task.all (fun k => !k.unread) && okAnd b.rereadCode (fun r => r.seq.pc == 34) &&
    okAnd (b.fetchParcels b.seq.pc) (fun r => if g = 0x0C14 <<< 32 then decodes r.2 (.mov 16 20) 1 && (Instr.mov 16 20).wf && r.2.length == 1 && (r.2.headD 0).toNat / 2048 != 0x10
      else if g = 0x0F00E000 <<< 32 then decodes r.2 (.trap 15) 2 && !(Instr.trap 15).wf else refused r.2 1)) &&
    next (step (placed (0xB800 <<< 32) none)) (fun t => t.seq.cause == 1) && next (step (placed (0x0F00E000 <<< 32) none)) (fun t => t.seq.cause == 2) &&
    next (step (placed (0x0C14 <<< 32) none)) (fun t => t.seq.pc == 35)) = true := by decide +kernel
/-- A restored sequencer reads the length of its block again; a task that no record tells of has the header of its kernel read, here none. -/
theorem witness_Decoded_restored : (let old := fun (f : Task → Task) => ((placed (0x0C14000E0000 <<< 0) none).modSeq (fun x => { x with reread := true, length := 0 })).modCur (fun c => { c with task := c.task.map f })
    let b := fun (f : Task → Task) => ({ (old f).begin with curCore := 0, curSq := .ctl } : State)
    let none' := fun (k : Task) => { k with unread := true }
    (b id).seq.reread && (b id).seq.rep == none && okAnd ((b id).parcel ((b id).seq.hdr + 1)) (fun r => r.2 == 14 && r.1.seq.rep == none) && okAnd (b id).rereadCode (fun r => r.seq.length == 14 && !r.seq.reread) &&
    next (step (old id)) (fun t => t.seq.pc == 35) && !okAny (b none').rereadCode && next (step (old none')) (fun t => t.seq.cause == 5)) = true := by decide +kernel
theorem witness_Decoded_gated : (let s : State := { on .ex { worker with task := some { Task.placed with code := chip } } [] with dies := base.dies.setIfInBounds 0 ⟨0, 9, []⟩, agenda := [⟨1, .issue 0 .ex⟩] }
    let g : State := s.modSeq (fun x => { x with granules := [(2, 0x0005F200 <<< 32)] })
    let b : State := { g.begin with curCore := 0, curSq := .ex }
    okAnd (b.fetchParcels b.seq.pc) (fun r => decodes r.2 .vmnot 2) && b.gated 0 && throttled .vmnot && !throttled .nopl && next (step g) (fun t => t.seq.pc == 34 && t.cur.vm == 0)) = true := by decide +kernel
theorem witness_Decoded_off : (let p : PbState := ⟨33, true, 2, 2, 0⟩
    let b : State := { (placed (0x0C14 <<< 32) (some p)).begin with curCore := 0, curSq := .ctl }
    !b.seq.guardRuns && next (step (placed (0x0C14 <<< 32) (some p))) (fun t => t.seq.reg 16 == 0)) = true := by decide +kernel
theorem witness_Fetches : (let s := placed 5 none
    let u := placed 0 none
    Store.find? s.seq.granules (34 / 16) == some 5 && Store.find? s.seq.granules (16 / 16) == none && s.cur.task == some { Task.placed with code := chip } && s.handleCause 0 chip rightX == none &&
    okAnd (u.locate u.who chip (16 / 16 * 32) 32 .code false (u.cur.mapping u.curSq)) (fun r => firstCause r.1.readCause r.2 == none) && s.handleCause 1 chip rightX == some 0x75 &&
    next (.next s) (fun _ => okAnd (s.parcel 34) (fun r => r.2 == 0))) = true := by decide +kernel
theorem witness_DecodeEncode : ((Instr.maddLit 31 30 1 0x80000000).wf && (Instr.maddLit 31 30 1 0x80000000).isStream && (Instr.li6 0 63).wf && (Instr.li6 0 63).isStream) = true := by decide +kernel
theorem witness_MemoryBytes : (base.memoryWf && Loc.isMemory (.hbm 5) && decide (Loc.hbm 5 ≠ .discarded)) = true := by decide +kernel

/-- A step that is determined, from a state with counters above zero and canonical memories. -/
def counting : State := { placed (0x0C14 <<< 32) none with counters := [(7, ⟨3, 3, none, false, none⟩)], fuses := base.fuses.setIfInBounds 2 ⟨1, 1⟩ }
theorem witness_NeverFall : (((counting.fuses[2]?).map Fuse.value).getD 0 == 1 && ((Store.find? counting.counters 7).map Counter.value).getD 0 == 3 && counting.memoryWf &&
    next (step counting) (fun t => ((Store.find? t.counters 7).map Counter.value).getD 0 == 3 && t.memoryWf)) = true := by decide +kernel
theorem witness_step : ∃ t, step counting = .next t := by
  have h : next (step counting) (fun _ => true) = true := by decide +kernel
  revert h; unfold next
  split
  · exact fun _ => ⟨_, by assumption⟩
  · simp
theorem witness_Frames : (let s := on .ctl { worker with handles := (worker.handles.setIfInBounds 31 chip).setIfInBounds 1 0xFFFF } [(1, 0xBFFE0)]
    okIs (s.handleReg 31) chip && okIs (s.src 1) (0xBFFE0, 0) && okAny (s.reach chip rightW (offsetOf 0xBFFE0 0) 32 32 .write) &&
    next (exec (.add 3 1 1 0) s) (fun t => t.seq.reg 3 == 0x17FFC0 && t.seq.preds == s.seq.preds) && next (exec (.hst 1 1 31) s) (fun t => t.readLoc (.win 0 0xBFFDF) == 0)) = true := by decide +kernel

end Sys2Proof.Tests
end

section
/-!
SUPPORT. The checks of a meaning, and what an update that shows in no register and no byte of memory leaves: the shared ground of
the statements about tokens, rills and tasks (R91, R102, R230).
-/
namespace Sys2Proof.Machine

section Checks
variable {α β : Type}

@[simp] theorem stop_ok_bind (a : α) (f : α → Except Stop β) : ((Except.ok a : Except Stop α) >>= f) = f a := rfl
@[simp] theorem stop_error_bind (e : Stop) (f : α → Except Stop β) : ((Except.error e : Except Stop α) >>= f) = .error e := rfl

theorem need_pass {b : Bool} (h : b = true) (c : Cause) : need b c = .ok () := by simp [need, h]
theorem need_fail {b : Bool} (h : b = false) (c : Cause) : need b c = .error (.trap c) := by simp [need, h]

end Checks

/-- Registers that are declared together are declared each. -/
theorem State.scalars_mono {s : State} {rs ts : List Nat} (h : s.scalars ts = .ok ()) (hsub : ∀ r ∈ rs, r ∈ ts) : s.scalars rs = .ok () := by
  unfold State.scalars need at h ⊢
  split at h
  · next hall =>
    rw [if_pos]
    exact List.all_eq_true.mpr fun r hr => List.all_eq_true.mp hall r (hsub r hr)
  · cases h

/-- The count s[a] + imm10 of an instruction whose source register can be read (R123, R126). -/
theorem State.count_of_src {s : State} {a : Nat} {x : Word × Taint} (h : s.src a = .ok x) (n : BitVec 10) :
    s.count a n = .ok (x.1.toNat + n.toNat) := by simp [State.count, h]

/-! The issuing core after an update of it, and after a pop of the receive queue. -/

@[simp] theorem State.cur_modCur (s : State) (f : Core → Core) : (s.modCur f).cur = f s.cur := State.cur_setCore s _
@[simp] theorem State.curCore_modCur (s : State) (f : Core → Core) : (s.modCur f).curCore = s.curCore := rfl
@[simp] theorem State.curSq_modCur (s : State) (f : Core → Core) : (s.modCur f).curSq = s.curSq := rfl
@[simp] theorem State.core_modCur_other (s : State) (f : Core → Core) {n : Nat} (h : n ≠ s.curCore) : (s.modCur f).core n = s.core n :=
  State.core_setCore_other s _ h
@[simp] theorem State.cur_pop (s : State) (rs : List Nat) : (s.pop rs).cur = s.cur.setSeq s.curSq (s.seq.pop s.curSq rs) := State.cur_modCur s _
@[simp] theorem State.curSq_pop (s : State) (rs : List Nat) : (s.pop rs).curSq = s.curSq := rfl
@[simp] theorem Core.decl_setSeq (c : Core) (q : Sq) (x : SeqState) : (c.setSeq q x).decl = c.decl := rfl
@[simp] theorem Core.tokenCount_setSeq (c : Core) (q : Sq) (x : SeqState) (k : Nat) : (c.setSeq q x).tokenCount k = c.tokenCount k := rfl

/-! The registers of a sequencer that leaves a unit, resumes or pops its queue. -/

/-- Two sequencers show the same registers, with the same taint sets. -/
def SeqState.sameRegs (x y : SeqState) : Prop := y.regs = x.regs ∧ y.taint = x.taint

theorem SeqState.goTo_sameRegs (x : SeqState) (pc : Nat) : x.sameRegs (x.goTo pc) := by
  unfold SeqState.goTo
  split
  · exact ⟨rfl, rfl⟩
  · split <;> exact ⟨rfl, rfl⟩

theorem SeqState.advance_sameRegs (x : SeqState) (n : Nat) : x.sameRegs (x.advance n) := by
  unfold SeqState.advance
  split
  · split
    · exact ⟨rfl, rfl⟩
    · exact SeqState.goTo_sameRegs _ _
  · exact SeqState.goTo_sameRegs _ _

theorem SeqState.pop_sameRegs (x : SeqState) (q : Sq) (rs : List Nat) : x.sameRegs (x.pop q rs) := by
  unfold SeqState.pop
  split <;> exact ⟨rfl, rfl⟩

theorem SeqState.sameRegs.reads {x y : SeqState} (h : x.sameRegs y) (i : Nat) : y.reg i = x.reg i ∧ y.set i = x.set i := by
  simp [SeqState.reg, SeqState.set, h.1, h.2]

/-- The sequencer that issues, the bytes of memory and the registers of that sequencer are as they were. -/
structure State.Unseen (s t : State) : Prop where
  curCore : t.curCore = s.curCore
  curSq : t.curSq = s.curSq
  memory : s.sameMemory t
  regs : s.sameRegsBut t []

theorem State.Unseen.refl (s : State) : s.Unseen s := ⟨rfl, rfl, fun _ _ => rfl, fun _ _ => ⟨rfl, rfl⟩⟩

theorem State.Unseen.trans {s t u : State} (h : s.Unseen t) (g : t.Unseen u) : s.Unseen u where
  curCore := g.curCore.trans h.curCore
  curSq := g.curSq.trans h.curSq
  memory l hl := (g.memory l hl).trans (h.memory l hl)
  regs i hi := ⟨(g.regs i hi).1.trans (h.regs i hi).1, (g.regs i hi).2.trans (h.regs i hi).2⟩

/-- Below the row slots a window shows the scratchpad (Table 1-2). -/
theorem Core.readWin_scratch (c : Core) {o : Nat} (h : o < 0x100000) : c.readWin o = Memory.read c.scratch o := by
  simp [Core.readWin, winPart, h]

/-- A change of the issuing core that spares its scratchpad and its sequencer's registers is unseen. -/
theorem State.modCur_unseen (s : State) (f : Core → Core) (hm : (f s.cur).scratch = s.cur.scratch)
    (hr : s.seq.sameRegs ((f s.cur).seqs.get s.curSq)) : s.Unseen (s.modCur f) where
  curCore := rfl
  curSq := rfl
  memory l hl := by
    match l with
    | .hbm _ | .host _ | .file _ | .peer _ _ | .discarded => rfl
    | .win n o =>
      have ho : o < 0x100000 := by simpa [Loc.isMemory] using hl
      by_cases hn : n = s.curCore
      · subst hn
        have : (s.modCur f).core s.curCore = f s.cur := State.cur_modCur s f
        simp only [State.readLoc, this, Core.readWin_scratch _ ho, hm]; rfl
      · simp [State.readLoc, State.core_modCur_other s f hn]
  regs i _ := by
    have : (s.modCur f).seq = (f s.cur).seqs.get s.curSq := by simp [State.seq]
    rw [this]
    exact hr.reads i

theorem State.pop_unseen (s : State) (rs : List Nat) : s.Unseen (s.pop rs) :=
  s.modCur_unseen (fun c => c.modSeq s.curSq (fun x => x.pop s.curSq rs)) rfl
    (by simpa [Core.modSeq_eq, State.seq] using SeqState.pop_sameRegs s.seq s.curSq rs)

theorem State.retire_unseen (s : State) (n : Nat) : s.Unseen (s.retire n) :=
  s.modCur_unseen _ rfl (by simpa [Core.modSeq_eq, SeqState.sameRegs, State.seq] using SeqState.advance_sameRegs s.seq n)

theorem State.handOn_unseen (s : State) : s.Unseen s.handOn :=
  s.modCur_unseen _ (by split <;> rfl) (by split <;> exact ⟨rfl, rfl⟩)

theorem State.takeOver_unseen (s : State) : s.Unseen s.takeOver :=
  s.modCur_unseen _ (by split <;> rfl) (by split <;> exact ⟨rfl, rfl⟩)

/-- Only the history and its time have changed. -/
def State.onlyPast (s t : State) : Prop := t = { s with past := t.past, writes := t.writes }

theorem State.onlyPast.unseen {s t : State} (h : s.onlyPast t) : s.Unseen t := by
  rw [h]
  exact ⟨rfl, rfl, fun l _ => by cases l <;> rfl, fun _ _ => ⟨rfl, rfl⟩⟩

/-- Joining writes changes the history, and in the issuing core at most the floor of its later loads (R248). -/
theorem State.joinObject_cases (s : State) (code : Nat) :
    s.onlyPast (s.joinObject code) ∨ ∃ (u : State) (k : Nat → Nat), s.onlyPast u ∧
      s.joinObject code = u.modCur (fun c => { c with floor := k c.floor }) := by
  unfold State.joinObject State.joins
  dsimp only
  split
  · exact .inr ⟨State.carry (State.modPast s _ _) _ _, fun k => (List.map Past.latest _).foldl Nat.max k, rfl, rfl⟩
  · exact .inl rfl

theorem State.joinObject_unseen (s : State) (code : Nat) : s.Unseen (s.joinObject code) := by
  obtain h | ⟨u, k, h, e⟩ := s.joinObject_cases code
  · exact h.unseen
  · rw [e]
    exact h.unseen.trans (u.modCur_unseen _ rfl ⟨rfl, rfl⟩)

/-! The tokens are left alone by every update but `setTokens`. -/

@[simp] theorem State.retire_tokens (s : State) (n : Nat) : (s.retire n).cur.tokens = s.cur.tokens := by simp [State.retire_eq]
@[simp] theorem State.handOn_tokens (s : State) : s.handOn.cur.tokens = s.cur.tokens := by
  simp only [State.handOn, State.cur_modCur]; split <;> rfl
@[simp] theorem State.takeOver_tokens (s : State) : s.takeOver.cur.tokens = s.cur.tokens := by
  simp only [State.takeOver, State.cur_modCur]; split <;> rfl
@[simp] theorem State.joinObject_tokens (s : State) (code : Nat) : (s.joinObject code).cur.tokens = s.cur.tokens := by
  obtain h | ⟨u, k, h, e⟩ := s.joinObject_cases code
  · rw [h]; rfl
  · rw [e, State.cur_modCur, h]; rfl

end Sys2Proof.Machine
end

section
/-!
PROOFS. Token queues (R11, R123, R124): who may set and who may wait, and what each leaves.
-/
namespace Sys2Proof.Machine

/-- Setting a queue to the count it has changes nothing. -/
theorem Core.tokens_set_tokenCount (c : Core) {q : Nat} (h : q < 12) : c.tokens.setIfInBounds q (c.tokenCount q) = c.tokens := by
  ext i hi
  simp only [Vector.getElem_setIfInBounds, Core.tokenCount]
  split
  · next e => subst e; simp [h]
  · rfl

/-- Only the source sets a token queue (R11). -/
theorem State.tokenSet_wrong_side {s : State} {q : Nat} (hq : q < 12) (h : queueSource q ≠ s.curSq.num) (len n : Nat) :
    s.tokenSet len q n = .error (.trap 0x03) := by
  rw [State.tokenSet, need_pass (by simpa using hq), need_fail (by simpa using h)]; rfl

/-- Only the destination waits on a token queue (R11). -/
theorem State.tokenWait_wrong_side {s : State} {q : Nat} (hq : q < 12) (h : queueDest q ≠ s.curSq.num) (len n : Nat) :
    s.tokenWait len q n = .error (.trap 0x03) := by
  rw [State.tokenWait, need_pass (by simpa using hq), need_fail (by simpa using h)]; rfl

theorem State.setTokens_unseen (s : State) (q : Nat) (k : Core → Nat) : s.Unseen (s.modCur (fun c => c.setTokens q (k c))) :=
  s.modCur_unseen _ rfl ⟨rfl, rfl⟩

section Set
variable {s : State} {q : Nat} (hq : q < 12) (hsrc : queueSource q = s.curSq.num) (len n : Nat)
include hq hsrc

/-- A set that would pass 65,535 traps (R123). -/
theorem State.tokenSet_overflow (h : 65535 < s.cur.tokenCount q + n) : s.tokenSet len q n = .error (.trap 0x27) := by
  rw [State.tokenSet, need_pass (by simpa using hq), need_pass (by simpa using hsrc), need_fail (by simpa using h)]; rfl

theorem State.tokenSet_room (h : s.cur.tokenCount q + n ≤ 65535) : s.tokenSet len q n =
    if n = 0 then .ok (s.retire len)
    else .ok ((s.handOn.modCur (fun c => c.setTokens q (c.tokenCount q + n))).retire len) := by
  rw [State.tokenSet, need_pass (by simpa using hq), need_pass (by simpa using hsrc), need_pass (by simpa using h)]; rfl

/-- A set with room adds its count and shows in no register and no byte of memory; so does a count of 0, which has no effect. -/
theorem State.tokenSet_adds (h : s.cur.tokenCount q + n ≤ 65535) : ∃ t, s.tokenSet len q n = .ok t ∧
    t.cur.tokens = s.cur.tokens.setIfInBounds q (s.cur.tokenCount q + n) ∧ s.Unseen t := by
  rw [State.tokenSet_room hq hsrc len n h]
  split
  · next h0 => exact ⟨_, rfl, by simp [h0, Core.tokens_set_tokenCount _ hq], s.retire_unseen len⟩
  · refine ⟨_, rfl, by simp [Core.setTokens, Core.tokenCount], ?_⟩
    exact (s.handOn_unseen.trans (State.setTokens_unseen _ _ _)).trans (State.retire_unseen _ len)

end Set

section Wait
variable {s : State} {q : Nat} (hq : q < 12) (hdst : queueDest q = s.curSq.num) (len n : Nat)
include hq hdst

/-- A wait for more than 65,535 tokens can never be met, and traps (R123). -/
theorem State.tokenWait_overflow (h : 65535 < n) : s.tokenWait len q n = .error (.trap 0x27) := by
  rw [State.tokenWait, need_pass (by simpa using hq), need_pass (by simpa using hdst), need_fail (by simpa using h)]; rfl

theorem State.tokenWait_possible (h : n ≤ 65535) : s.tokenWait len q n =
    if n = 0 then .ok (s.retire len)
    else if s.cur.was.tokens[q]?.getD 0 < n ∨ s.cur.tokenCount q < n then .error (.wait .token)
    else .ok (((s.joinObject (32 + q)).takeOver.modCur (fun c => c.setTokens q (c.tokenCount q - n))).retire len) := by
  rw [State.tokenWait, need_pass (by simpa using hq), need_pass (by simpa using hdst), need_pass (by simpa using h)]; rfl

/-- A wait whose count has stood at the end of the last cycle and stands still takes it, and shows in no register and no byte of
memory; so does a count of 0, which has no effect (R124). -/
theorem State.tokenWait_takes (h : n ≤ 65535) (hnow : n ≤ s.cur.tokenCount q) (hwas : n ≤ s.cur.was.tokens[q]?.getD 0) :
    ∃ t, s.tokenWait len q n = .ok t ∧
      t.cur.tokens = s.cur.tokens.setIfInBounds q (s.cur.tokenCount q - n) ∧ s.Unseen t := by
  rw [State.tokenWait_possible hq hdst len n h, if_neg (c := _ ∨ _) (by omega)]
  split
  · next h0 => exact ⟨_, rfl, by simp [h0, Core.tokens_set_tokenCount _ hq], s.retire_unseen len⟩
  · refine ⟨_, rfl, by simp [Core.setTokens, Core.tokenCount], ?_⟩
    exact (((s.joinObject_unseen _).trans (State.takeOver_unseen _)).trans (State.setTokens_unseen _ _ _)).trans (State.retire_unseen _ len)

end Wait

/-- A long form whose queue is the issuing sequencer's, with a register that can be read, comes to its body with the count
s[a] + imm10, the receive queue popped (R123). -/
theorem State.tokenLong_body {s : State} {q a : BitVec 5} {x : Word × Taint} {side : Nat → Nat} (hq : q.toNat < 12)
    (hside : side q.toNat = s.curSq.num) (hsc : s.scalars [a.toNat] = .ok ()) (hsrc : s.src a.toNat = .ok x) (n : BitVec 10)
    (body : State → Nat → Except Stop State) :
    s.tokenLong q a n side body = body (s.pop [a.toNat]) (x.1.toNat + n.toNat) := by
  rw [State.tokenLong, need_pass (by simpa [wfQueue] using hq), need_pass (by simpa using hside), hsc, State.count_of_src hsrc]; rfl

/-- The clause of R11, R123 and R124 about queues that are the issuing sequencer's. -/
theorem tokens_hold : Claims.Tokens := by
  intro n q ql a i s x hq hql hsc hsrc
  have hqL : ql.toNat < 12 := hql ▸ hq
  have hn : n.toNat + 1 ≤ 65535 := by omega
  have popped := s.pop_unseen [a.toNat]
  refine ⟨fun hs => ⟨fun h => ?_, fun h => ?_, fun h => ?_⟩, fun hd => ⟨fun h hw => ?_, fun h => ?_, fun h => ?_, fun h hw hk => ?_⟩⟩
  · simp [execTks, State.tokenSet_room hq hs 1 _ h, finish_ok]
  · simp [execTks, State.tokenSet_overflow hq hs 1 _ h, finish_error]
  · have hs' : queueSource ql.toNat = (s.pop [a.toNat]).curSq.num := hql ▸ hs
    obtain ⟨t, ht, htok, hu⟩ := State.tokenSet_adds hqL hs' 2 (x.1.toNat + i.toNat) (by simpa [hql] using h)
    refine ⟨t, ?_, by simpa [hql] using htok, (popped.trans hu).memory, (popped.trans hu).regs⟩
    rw [exec_tksL, execTksL, State.tokenLong_body hqL (hql ▸ hs) hsc hsrc, ht, finish_ok]
  · rw [exec_tkw, execTkw, State.tokenWait_possible hq hd 1 _ hn, if_neg (Nat.succ_ne_zero _), if_neg (by omega), finish_ok]
  · rw [exec_tkw, execTkw, State.tokenWait_possible hq hd 1 _ hn, if_neg (Nat.succ_ne_zero _), if_pos h.symm, finish_error]; rfl
  · have hd' : queueDest ql.toNat = (s.pop [a.toNat]).curSq.num := hql ▸ hd
    rw [exec_tkwL, execTkwL, State.tokenLong_body hqL (hql ▸ hd) hsc hsrc, State.tokenWait_overflow hqL hd' 2 _ h, finish_error]
  · have hd' : queueDest ql.toNat = (s.pop [a.toNat]).curSq.num := hql ▸ hd
    obtain ⟨t, ht, htok, hu⟩ := State.tokenWait_takes hqL hd' 2 (x.1.toNat + i.toNat) hk (by simpa [hql] using h) (by simpa [hql] using hw)
    refine ⟨t, ?_, by simpa [hql] using htok, (popped.trans hu).memory, (popped.trans hu).regs⟩
    rw [exec_tkwL, execTkwL, State.tokenLong_body hqL (hql ▸ hd) hsc hsrc, ht, finish_ok]

theorem tokenSides_hold : Claims.TokenSides := by
  intro n q s hq
  refine ⟨fun h => ?_, fun h => ?_⟩
  · rw [exec_tks, execTks, State.tokenSet_wrong_side hq h, finish_error]
  · rw [exec_tkw, execTkw, State.tokenWait_wrong_side hq h, finish_error]

/-- Settles O6: a set or a wait passes its checks in order, and what then follows is one equation for each (R11, R123, R124). -/
theorem tokenQueues : Obligations.TokenQueues := ⟨tokens_hold, tokenSides_hold⟩

end Sys2Proof.Machine
end

section
/-!
PROOFS. Rills (R13, R14, R125 to R128): advances, waits, geometry and status.
-/
namespace Sys2Proof.Machine

/-- A declared rill with a geometry is found (R26, R126). -/
theorem State.rill_of_set {s : State} {w : Nat} {r : Rill} (hw : w < s.cur.decl.rills) (hr : s.cur.rills[w]? = some (some r)) :
    s.rill w = .ok r := by
  rw [State.rill, need_pass (by simpa using hw), hr]; rfl

theorem State.rill_pop (s : State) (rs : List Nat) (w : Nat) : (s.pop rs).rill w = s.rill w := by
  simp [State.rill]

/-- What an advance that can be made does (R14, R127). -/
theorem State.rillAdvance_moves {s : State} {w : Nat} {r r' : Rill} {n : Nat} {f : Rill → Nat → Option Rill} (hr : s.rill w = .ok r)
    (hf : f r n = some r') (hn : n ≠ 0) (len : Nat) :
    s.rillAdvance len w n f = .ok ((s.handOn.modCur (fun c => { c with rills := c.rills.setIfInBounds w (some r') })).retire len) := by
  rw [State.rillAdvance, hr, stop_ok_bind, hf]; exact if_neg hn

/-- An advance that cannot be made traps (R14). -/
theorem State.rillAdvance_overrun {s : State} {w : Nat} {r : Rill} {n : Nat} {f : Rill → Nat → Option Rill} (hr : s.rill w = .ok r)
    (hf : f r n = none) (len : Nat) : s.rillAdvance len w n f = .error (.trap 0xA2) := by
  rw [State.rillAdvance, hr, stop_ok_bind, hf]

/-- An advance by no slots has no effect (R126). -/
theorem State.rillAdvance_zero {s : State} {w : Nat} {r r' : Rill} {f : Rill → Nat → Option Rill} (hr : s.rill w = .ok r)
    (hf : f r 0 = some r') (len : Nat) : s.rillAdvance len w 0 f = .ok (s.retire len) := by
  rw [State.rillAdvance, hr, stop_ok_bind, hf]; rfl

theorem Rill.produce_room {r : Rill} {n : Nat} (h : r.fill + n ≤ r.count) :
    r.produce n = some { r with pptr := (r.pptr + n) % r.count, fill := r.fill + n } := if_pos h
theorem Rill.produce_full {r : Rill} {n : Nat} (h : r.count < r.fill + n) : r.produce n = none := if_neg (by omega)
theorem Rill.consume_filled {r : Rill} {n : Nat} (h : n ≤ r.fill) :
    r.consume n = some { r with cptr := (r.cptr + n) % r.count, fill := r.fill - n } := if_pos h
theorem Rill.consume_short {r : Rill} {n : Nat} (h : r.fill < n) : r.consume n = none := if_neg (by omega)

section Wait
variable {s : State} {w : Nat} {r : Rill} {n : Nat} (hr : s.rill w = .ok r) (slots : Rill → Nat) (join : State → State)
include hr

/-- A wait for more slots than there are can never be met, and traps (R14). -/
theorem State.rillWait_impossible (h : r.count < n) : s.rillWait w n slots join = .error (.trap 0xA2) := by
  rw [State.rillWait, hr, stop_ok_bind, need_fail (by simpa using h)]; rfl

theorem State.rillWait_possible (h : n ≤ r.count) : s.rillWait w n slots join =
    if n = 0 then .ok (s.retire 2)
    else if slots r < n then .error (.wait .rill) else .ok ((join s).takeOver.retire 2) := by
  rw [State.rillWait, hr, stop_ok_bind, need_pass (by simpa using h)]; rfl

theorem State.rillWait_met (h : n ≤ r.count) (hn : n ≠ 0) (hs : n ≤ slots r) :
    s.rillWait w n slots join = .ok ((join s).takeOver.retire 2) := by
  rw [State.rillWait_possible hr slots join h, if_neg hn, if_neg (by omega)]

theorem State.rillWait_waits (h : n ≤ r.count) (hs : slots r < n) : s.rillWait w n slots join = .error (.wait .rill) := by
  rw [State.rillWait_possible hr slots join h, if_neg (by omega), if_pos hs]

end Wait

theorem State.rillWait_zero {s : State} {w : Nat} {r : Rill} (hr : s.rill w = .ok r) (slots : Rill → Nat) (join : State → State) :
    s.rillWait w 0 slots join = .ok (s.retire 2) := by
  rw [State.rillWait_possible hr slots join (Nat.zero_le _), if_pos rfl]

/-- A long form on a rill that is set, with a register that can be read, comes to its body with the count s[a] + imm10, the
receive queue popped (R126). -/
theorem State.rillLong_body {s : State} {w a : BitVec 5} {r : Rill} {x : Word × Taint} (hw : w.toNat < 16) (hr : s.rill w.toNat = .ok r)
    (hsc : s.scalars [a.toNat] = .ok ()) (hsrc : s.src a.toNat = .ok x) (n : BitVec 10) (body : State → Nat → Except Stop State) :
    s.rillLong w a n body = body (s.pop [a.toNat]) (x.1.toNat + n.toNat) := by
  rw [State.rillLong, need_pass (by simpa [wfRill] using hw), hsc, hr, State.count_of_src hsrc]; rfl

theorem rills_hold : Claims.Rills := by
  intro n w wl a i s r x hw hwl hset hsc hsrc
  have hr : s.rill w.toNat = .ok r := State.rill_of_set hw hset
  have hp : (s.pop [a.toNat]).rill w.toNat = .ok r := (s.rill_pop _ _).trans hr
  have hbody := State.rillLong_body (w := wl) (by omega) (hwl ▸ hr) hsc hsrc i
  have h1 : n.toNat + 1 ≠ 0 := Nat.succ_ne_zero _
  dsimp only
  refine ⟨fun h => ?_, fun h => ?_, fun h => ?_, fun h => ?_, fun h0 h => ?_, fun h0 h => ?_, fun h0 hk h => ?_, fun hk h => ?_,
    fun h0 hk h => ?_, fun hk h => ?_, fun h0 hf j hj => ?_, fun h => ⟨?_, ?_⟩⟩
  · rw [exec_adv, execAdv, if_pos rfl, State.rillAdvance_moves hr (Rill.produce_room h) h1, finish_ok]
  · rw [exec_adv, execAdv, if_pos rfl, State.rillAdvance_overrun hr (Rill.produce_full h), finish_error]
  · rw [exec_adv, execAdv, if_neg (by decide), State.rillAdvance_moves hr (Rill.consume_filled h) h1, finish_ok]
  · rw [exec_adv, execAdv, if_neg (by decide), State.rillAdvance_overrun hr (Rill.consume_short h), finish_error]
  · rw [exec_wadvp, execWadvp, hbody, hwl, State.rillAdvance_moves hp (Rill.produce_room h) h0, finish_ok]
  · rw [exec_wadvc, execWadvc, hbody, hwl, State.rillAdvance_moves hp (Rill.consume_filled h) h0, finish_ok]
  · rw [exec_wwaitf, execWwaitf, hbody, hwl, State.rillWait_met hp _ _ hk h0 h, finish_ok]
  · rw [exec_wwaitf, execWwaitf, hbody, hwl, State.rillWait_waits hp _ _ hk h, finish_error]; rfl
  · rw [exec_wwaite, execWwaite, hbody, hwl, State.rillWait_met hp _ _ hk h0 h, finish_ok]; rfl
  · rw [exec_wwaite, execWwaite, hbody, hwl, State.rillWait_waits hp _ _ hk h, finish_error]; rfl
  · have none_in : r.produce 0 = some { r with pptr := (r.pptr + 0) % r.count, fill := r.fill + 0 } := Rill.produce_room hf
    have none_out := Rill.consume_filled (r := r) (Nat.zero_le _)
    simp only [List.mem_cons, List.not_mem_nil, or_false] at hj
    obtain rfl | rfl | rfl | rfl := hj
    · rw [exec_wadvp, execWadvp, hbody, hwl, h0, State.rillAdvance_zero hp none_in, finish_ok]
    · rw [exec_wadvc, execWadvc, hbody, hwl, h0, State.rillAdvance_zero hp none_out, finish_ok]
    · rw [exec_wwaitf, execWwaitf, hbody, hwl, h0, State.rillWait_zero hp, finish_ok]
    · rw [exec_wwaite, execWwaite, hbody, hwl, h0, State.rillWait_zero hp, finish_ok]
  · rw [exec_wwaitf, execWwaitf, hbody, hwl, State.rillWait_impossible hp _ _ h, finish_error]
  · rw [exec_wwaite, execWwaite, hbody, hwl, State.rillWait_impossible hp _ _ h, finish_error]

/-- The operand of Table 7-5 that names a valid geometry gives a rill with both pointers zero and every slot free (R13). -/
theorem rillGeometry_valid {g : Word} {scratch base size count : Nat} (hb : base % 256 = 0) (hz : size % 256 = 0) (h0 : size ≠ 0)
    (h2 : 2 ≤ count) (h256 : count ≤ 256) (hsize : size < 2 ^ 20) (hwin : base + size * count ≤ 0xC0000)
    (hscr : base + size * count ≤ scratch) (hg : g.toNat = count * 2 ^ 40 + size * 2 ^ 20 + base) :
    rillGeometry g scratch = some ⟨base, size, count, 0, 0, 0⟩ := by
  have hbase : base < 2 ^ 20 := by have := Nat.le_of_add_right_le hwin; omega
  have hcount : bitsOf g.toNat 48 40 = count := by rw [bitsOf, hg]; omega
  have hmid : bitsOf g.toNat 39 20 = size := by rw [bitsOf, hg]; omega
  have hlow : bitsOf g.toNat 19 0 = base := by rw [bitsOf, hg]; omega
  have htop : g.toNat / 2 ^ 49 = 0 := by rw [hg]; omega
  unfold rillGeometry
  dsimp only
  rw [hcount, hmid, hlow]
  exact if_pos ⟨htop, hb, h0, hz, h2, h256, hwin, hscr⟩

theorem rillState_holds : Claims.RillState := by
  intro w a d w4 s x base size count hw hdecl hsc hsrc
  have hdec : decide (w.toNat < s.cur.decl.rills) = true := by simpa using hdecl
  refine ⟨fun hctl hb hz h0 h2 h256 hsize hwin hscr hg hfree => ?_, ?_⟩
  · have hgeo := rillGeometry_valid hb hz h0 h2 h256 hsize hwin hscr hg
    have hsca : s.scalars [a.toNat] = .ok () := State.scalars_mono hsc (by simp)
    have honly : s.only [.ctl] = .ok () := by simp [State.only, need, hctl]
    rw [exec_winit, execWinit, need_pass (by simp [wfRill]; omega), honly, hsca, need_pass hdec, hsrc]
    simp only [stop_ok_bind, hgeo, hfree]
    exact finish_ok
  · have hscd : s.scalars [d.toNat] = .ok () := State.scalars_mono hsc (by simp)
    rw [exec_wstat, execWstat, hscd, need_pass (hw ▸ hdec), ← hw]
    simp only [stop_ok_bind, State.report, State.constant, hscd, rillWord]
    exact finish_ok

/-- Settles O7: each rill instruction comes to one of the two bodies of R14, the advance and the wait, or to the words of Tables 7-5 and 7-6. -/
theorem rillInstructions : Obligations.RillInstructions := ⟨rills_hold, rillState_holds⟩

end Sys2Proof.Machine
end

section
/-!
SUPPORT. What writes to memory leave of the cores: a byte written to a window changes a core's scratchpad, its rows and its scalar
and predicate registers, and neither its task nor how its sequencers stand (Table 1-2, R20). So a record that completes, whose status
word and signal lie in memory, leaves them too (R265).
-/
namespace Sys2Proof.Machine

/-! A store whose values are changed one by one keeps its keys. -/

theorem Store.find?_map_value {α β : Type} (f : Nat × α → β) (m : Store α) (i : Nat) :
    Store.find? (m.map (fun p => (p.1, f p))) i = (Store.find? m i).map (fun x => f (i, x)) := by
  induction m with
  | nil => rfl
  | cons p m ih =>
    obtain ⟨k, v⟩ := p
    by_cases h : i = k
    · subst h; simp [Store.find?]
    · simpa [Store.find?, h] using ih

/-- The task of a core, its requests and copies, and the STATE of each sequencer are as they were. -/
structure Core.SameCourse (c d : Core) : Prop where
  task : d.task = c.task
  copies : d.copies = c.copies
  mints : d.mints = c.mints
  run : ∀ q, (d.seqs.get q).run = (c.seqs.get q).run

theorem Core.SameCourse.refl (c : Core) : c.SameCourse c := ⟨rfl, rfl, rfl, fun _ => rfl⟩

theorem Core.SameCourse.trans {c d e : Core} (h : c.SameCourse d) (g : d.SameCourse e) : c.SameCourse e :=
  ⟨g.task.trans h.task, g.copies.trans h.copies, g.mints.trans h.mints, fun q => (g.run q).trans (h.run q)⟩

/-- Every core is as it was in its task, its requests and copies, and the STATE of its sequencers. -/
def State.SameCourse (s t : State) : Prop := ∀ n, (s.core n).SameCourse (t.core n)

theorem State.SameCourse.refl (s : State) : s.SameCourse s := fun _ => .refl _

theorem State.SameCourse.trans {s t u : State} (h : s.SameCourse t) (g : t.SameCourse u) : s.SameCourse u := fun n => (h n).trans (g n)

/-- A state with the same cores. -/
theorem State.SameCourse.of_cores {s t : State} (h : t.cores = s.cores) : s.SameCourse t := fun n => by
  rw [State.core, State.core, h]; exact .refl _

theorem State.core_modCore_self (s : State) (n : Nat) (f : Core → Core) : (s.modCore n f).core n = f (s.core n) := s.core_setCore_self n _
theorem State.core_modCore_other (s : State) {n k : Nat} (f : Core → Core) (h : k ≠ n) : (s.modCore n f).core k = s.core k :=
  s.core_setCore_other _ h

theorem State.modCore_sameCourse (s : State) (n : Nat) {f : Core → Core} (h : (s.core n).SameCourse (f (s.core n))) :
    s.SameCourse (s.modCore n f) := fun k => by
  by_cases hk : k = n
  · subst hk; rw [State.core_modCore_self]; exact h
  · rw [State.core_modCore_other s f hk]; exact .refl _

/-- A change of each listed core by itself. -/
theorem State.core_mapCores {f : Nat × Core → Core} {s t : State} (h : t.cores = s.cores.map (fun p => (p.1, f p))) (n : Nat) :
    t.core n = s.core n ∨ t.core n = f (n, s.core n) := by
  simp only [State.core, Store.getD, h, Store.find?_map_value]
  cases Store.find? s.cores n with
  | none => exact .inl rfl
  | some c => exact .inr rfl

theorem SeqState.put_run (x : SeqState) (q : Sq) (i : Nat) (v : Word) (t : Taint) : (x.put q i v t).run = x.run := by
  unfold SeqState.put
  split <;> rfl

/-- A change of one sequencer that leaves its STATE. -/
theorem Core.modSeq_sameCourse (c : Core) (q : Sq) {f : SeqState → SeqState} (h : (f (c.seqs.get q)).run = (c.seqs.get q).run) :
    c.SameCourse (c.modSeq q f) where
  task := rfl
  copies := rfl
  mints := rfl
  run r := by
    by_cases hr : r = q
    · subst hr; rw [Core.modSeq_eq, Core.setSeq_get, h]
    · rw [Core.modSeq_eq, Core.setSeq_get_other _ _ hr]

theorem Core.writeWin_sameCourse (c : Core) (off : Nat) (b : Byte) : c.SameCourse (c.writeWin off b) := by
  unfold Core.writeWin
  split
  · exact ⟨rfl, rfl, rfl, fun _ => rfl⟩
  · exact ⟨rfl, rfl, rfl, fun _ => rfl⟩
  · exact c.modSeq_sameCourse _ (SeqState.put_run _ _ _ _ _)
  · split
    · exact c.modSeq_sameCourse _ rfl
    · exact .refl c
  · exact .refl c
  · exact .refl c
  · exact .refl c

theorem State.writeLoc_sameCourse (s : State) (l : Loc) (b : Byte) : s.SameCourse (s.writeLoc l b) := by
  cases l with
  | win c o => exact s.modCore_sameCourse c (Core.writeWin_sameCourse _ o b)
  | hbm _ => exact .of_cores rfl
  | host _ => exact .of_cores rfl
  | file _ => exact .of_cores rfl
  | peer _ _ => exact .of_cores rfl
  | discarded => exact .refl s

theorem State.writeBytes_sameCourse (s : State) (m : List (Loc × Byte)) : s.SameCourse (s.writeBytes m) := by
  induction m generalizing s with
  | nil => exact .refl s
  | cons p m ih => exact (s.writeLoc_sameCourse p.1 p.2).trans (ih _)

theorem State.mend_cores (s : State) (ls : List Loc) : (s.mend ls).cores = s.cores := by
  unfold State.mend
  split <;> rfl

theorem State.writeFrom_sameCourse (s : State) (agents : List Nat) (w : Strength) (m : List (Loc × Byte)) :
    s.SameCourse (s.writeFrom agents w m) :=
  (s.writeBytes_sameCourse _).trans (.of_cores (State.mend_cores _ (m.map Prod.fst)))

theorem State.writeRmw_sameCourse (s : State) (m : List (Loc × Byte)) : s.SameCourse (s.writeRmw m) :=
  State.writeFrom_sameCourse (s.observed s.writes (m.map Prod.fst)) _ _ m

/-! The writes of a service unit (R265, R295). -/

theorem State.writeDelayed_sameCourse (s : State) (d : Delayed) : s.SameCourse (s.writeDelayed d) := by
  unfold State.writeDelayed
  dsimp only
  split
  · exact State.writeFrom_sameCourse { s with actor := d.actor } [d.actor] Strength.plain _
  · exact State.writeRmw_sameCourse { s with actor := d.actor } _

theorem State.serviceStore_sameCourse (s : State) (d : Delayed) : s.SameCourse (s.serviceStore d) := by
  unfold State.serviceStore
  split
  · exact .of_cores rfl
  · exact s.writeDelayed_sameCourse d

theorem State.onlyPaths.sameCourse {s t : State} (h : s.onlyPaths t) : s.SameCourse t := .of_cores (by rw [h])

theorem State.serviceReach_onlyPaths {s t : State} {w : Who} {h : BitVec 256} {right : BitVec 8} {off len align : Nat} {acc : Acc}
    {ls : List Loc} (hr : s.serviceReach w h right off len align acc = .ok (t, ls)) : s.onlyPaths t := by
  unfold State.serviceReach at hr
  split at hr
  · cases hr
  · split at hr
    · next hl => cases hr; exact State.locate_onlyPaths hl
    · cases hr
    · cases hr
    · cases hr

theorem State.serviceWrite_sameCourse {s t : State} {w : Who} {h : BitVec 256} {off : Nat} {bs : List Byte}
    (hw : s.serviceWrite w h off bs = .ok t) : s.SameCourse t := by
  unfold State.serviceWrite at hw
  split at hw
  · cases hw
  · next hr => cases hw; exact (State.serviceReach_onlyPaths hr).sameCourse.trans (State.serviceStore_sameCourse _ _)

theorem State.decrement_sameCourse {s t : State} {w : Who} {h : BitVec 256} {off : Nat} (hd : s.decrement w h off = .ok t) :
    s.SameCourse t := by
  unfold State.decrement at hd
  split at hd
  · cases hd
  · next hr =>
    split at hd
    · cases hd
    · cases hd; exact (State.serviceReach_onlyPaths hr).sameCourse.trans (State.serviceStore_sameCourse _ _)

/-! The queues and their records (R265 to R269). -/

@[simp] theorem State.modQueue_cores (s : State) (key : Nat) (f : Queue → Queue) : (s.modQueue key f).cores = s.cores := by
  unfold State.modQueue
  split <;> rfl

theorem State.modQueue_sameCourse (s : State) (key : Nat) (f : Queue → Queue) : s.SameCourse (s.modQueue key f) :=
  .of_cores (s.modQueue_cores key f)

/-- Ending the claims made for a record changes each core at most in its claim (R24). -/
theorem State.dropClaims_core (s : State) (key ring n : Nat) : ∃ x, (s.dropClaims key ring).core n = { s.core n with claim := x } := by
  have hmap : (s.dropClaims key ring).cores = s.cores.map (fun p : Nat × Core =>
      (p.1, if p.2.claim = some (key, ring) then { p.2 with claim := none } else p.2)) :=
    List.map_congr_left fun p _ => by split <;> rfl
  obtain h | h := State.core_mapCores hmap n
  · exact ⟨_, h⟩
  · rw [h]
    dsimp only
    split
    · exact ⟨none, rfl⟩
    · exact ⟨_, rfl⟩

theorem State.dropClaims_sameCourse (s : State) (key ring : Nat) : s.SameCourse (s.dropClaims key ring) := fun n => by
  obtain ⟨x, h⟩ := s.dropClaims_core key ring n
  rw [h]
  exact ⟨rfl, rfl, rfl, fun _ => rfl⟩

theorem State.writeStatus_sameCourse (s : State) (key : Nat) (q : Queue) (r : Record) (status : Nat) (cause : Cause) (task : BitVec 32) :
    s.SameCourse (s.writeStatus key q r status cause task) := by
  unfold State.writeStatus
  split
  · split
    · exact .refl s
    · exact s.modQueue_sameCourse key _
  · split
    · next t ht =>
      have written : s.SameCourse t := State.serviceWrite_sameCourse ht
      split
      · split
        · exact written
        · exact written.trans (t.modQueue_sameCourse key _)
      · exact written
    · split
      · exact s.modQueue_sameCourse key _
      · exact s.modQueue_sameCourse key _

theorem State.finishRecord_sameCourse (s : State) (key ring status : Nat) (cause : Cause) (task : BitVec 32) :
    s.SameCourse (s.finishRecord key ring status cause task) := by
  unfold State.finishRecord
  split
  · exact .refl s
  · next q _ =>
    split
    · exact .refl s
    · next r _ =>
      extract_lets s1 off s2 s3
      have status_written : s.SameCourse s1 := s.writeStatus_sameCourse key q r status cause task
      have signalled : s1.SameCourse s2 := by
        simp only [s2]
        split
        · exact .refl s1
        · split
          · next ht =>
            split at ht
            · cases ht
            · exact State.decrement_sameCourse ht
          · exact s1.modQueue_sameCourse key _
      have completed : s2.SameCourse s3 := s2.modQueue_sameCourse key _
      have dropped : s3.SameCourse { s3 with faults := s3.faults.filter (fun f => f.unit != .candidate key ring) } := .of_cores rfl
      exact (status_written.trans signalled).trans (completed.trans (dropped.trans (State.dropClaims_sameCourse _ key ring)))

theorem State.abortRecords_sameCourse (s : State) (key : Nat) (rs : List Record) : s.SameCourse (s.abortRecords key rs) := by
  induction rs generalizing s with
  | nil => exact .refl s
  | cons r rs ih =>
    refine .trans ?_ (ih _)
    split
    · exact .refl s
    · exact s.finishRecord_sameCourse key _ _ _ _

theorem State.completeRecord_sameCourse (s : State) (key ring status : Nat) (cause : Cause) (task : BitVec 32) :
    s.SameCourse (s.completeRecord key ring status cause task) := by
  unfold State.completeRecord
  split
  · exact .refl s
  · split
    · exact .refl s
    · have finished := s.finishRecord_sameCourse key ring status cause task
      dsimp only
      split
      · exact finished
      · exact (finished.trans (State.abortRecords_sameCourse _ key _)).trans (State.modQueue_sameCourse _ key _)

theorem State.replicaDone_sameCourse (s : State) (key ring rank : Nat) (w : BitVec 64) : s.SameCourse (s.replicaDone key ring rank w) := by
  unfold State.replicaDone
  split
  · exact .refl s
  · split
    · exact .refl s
    · dsimp only
      split
      · exact s.modQueue_sameCourse key _
      · exact (s.modQueue_sameCourse key _).trans (State.completeRecord_sameCourse _ key ring _ _ _)

theorem State.localDone_sameCourse (s : State) (key ring status : Nat) (cause : Cause) (task : BitVec 32) :
    s.SameCourse (s.localDone key ring status cause task) := by
  unfold State.localDone
  split
  · exact .refl s
  · split
    · exact s.replicaDone_sameCourse key ring _ _
    · exact s.completeRecord_sameCourse key ring status cause task

theorem State.settleRecord_sameCourse (s : State) (key ring : Nat) : s.SameCourse (s.settleRecord key ring) := by
  unfold State.settleRecord
  split
  · exact .refl s
  · split
    · exact .refl s
    · split
      · exact s.localDone_sameCourse key ring _ _ _
      · split <;> exact s.localDone_sameCourse key ring _ _ _

end Sys2Proof.Machine
end

section
/-!
PROOFS. The end of a task (R15, R29): when it comes, and how it leaves its core and its record.
-/
namespace Sys2Proof.Machine

/-- A step beside the tasks: no core changes course, and no queue changes. -/
structure State.Aside (s t : State) : Prop where
  course : s.SameCourse t
  queues : t.queues = s.queues

theorem State.Aside.refl (s : State) : s.Aside s := ⟨.refl s, rfl⟩

theorem State.Aside.trans {s t u : State} (h : s.Aside t) (g : t.Aside u) : s.Aside u :=
  ⟨h.course.trans g.course, g.queues.trans h.queues⟩

theorem State.Aside.foldl {α : Type} {f : State → α → State} (hf : ∀ (s : State) a, s.Aside (f s a)) (l : List α) (s : State) :
    s.Aside (l.foldl f s) := by
  induction l generalizing s with
  | nil => exact .refl s
  | cons a l ih => exact (hf s a).trans (ih (f s a))

theorem State.modCore_aside (s : State) (n : Nat) {f : Core → Core} (h : (s.core n).SameCourse (f (s.core n))) : s.Aside (s.modCore n f) :=
  ⟨s.modCore_sameCourse n h, rfl⟩

/-! What a task that leaves its core leaves beside it (R33, R254, R342). -/

theorem State.keepSlots_aside (s : State) (ctx : Nat) (keep : Nat → Nat × Bool × Nat → Bool) : s.Aside (s.keepSlots ctx keep) := by
  unfold State.keepSlots
  split
  · exact .refl s
  · extract_lets stay words recount cores
    refine ⟨fun n => ?_, rfl⟩
    have hmap : cores = s.cores.map (fun p : Nat × Core => (p.1, if p.2.task.map Task.ctx = some ctx
        then { p.2 with colls := p.2.colls.map (fun q : Nat × Coll => (q.1, recount q.2)) } else p.2)) :=
      List.map_congr_left fun p _ => by split <;> rfl
    obtain h | h := State.core_mapCores (s := s) (t := { s with cores := cores }) hmap n
    · exact h ▸ .refl _
    · refine h ▸ ?_
      split
      · exact ⟨rfl, rfl, rfl, fun _ => rfl⟩
      · exact .refl _

theorem State.freeSlots_aside (s : State) (ctx core : Nat) : s.Aside (s.freeSlots ctx core) :=
  (s.keepSlots_aside ctx _).trans ⟨.of_cores rfl, rfl⟩

theorem State.leaveGang_aside (s : State) (g core since : Nat) : s.Aside (s.leaveGang g core since) := by
  unfold State.leaveGang
  split
  · exact .refl s
  · extract_lets cs x' s1
    split
    · exact ⟨.of_cores rfl, rfl⟩
    · have gone : s.Aside s1 := ⟨.of_cores rfl, rfl⟩
      exact gone.trans (.foldl (fun t m => t.modCore_aside m ⟨rfl, rfl, rfl, fun _ => rfl⟩) _ s1)

theorem State.acknowledge_aside (s : State) (n part : Nat) : s.Aside (s.acknowledge n part) := ⟨.of_cores rfl, rfl⟩

theorem State.settleInval_aside (s : State) (n : Nat) : s.Aside (s.settleInval n) := by
  unfold State.settleInval
  extract_lets c is met
  split
  · exact .refl s
  · have taken : s.Aside (s.setCore n { c with invals := is.filter (fun i => !met i) }) :=
      s.modCore_aside n (f := fun c => { c with invals := is.filter (fun i => !met i) }) ⟨rfl, rfl, rfl, fun _ => rfl⟩
    exact taken.trans (.foldl (fun t (i : Inval) => t.acknowledge_aside n i.part) _ _)

/-- A core that no task holds: its sequencers idle, no copy in flight and no request open (R7). -/
structure Core.Vacant (c : Core) : Prop where
  task : c.task = none
  copies : c.copies = []
  mints : c.mints = []
  idle : ∀ q, (c.seqs.get q).run = .idle

theorem Core.vacate_vacant (c : Core) : c.vacate.Vacant := ⟨rfl, rfl, rfl, fun q => by cases q <;> rfl⟩

theorem Core.Vacant.of_sameCourse {c d : Core} (h : c.Vacant) (g : c.SameCourse d) : d.Vacant :=
  ⟨g.task.trans h.task, g.copies.trans h.copies, g.mints.trans h.mints, fun q => (g.run q).trans (h.idle q)⟩

section Ends
variable {s : State} {n : Nat} {k : Task} (hn : n < 512) (ht : (s.core n).task = some k) (hk : k.launch = none)
include hn ht

theorem State.taskAt_core : s.taskAt n = some k := by rw [State.taskAt, if_pos (show n < Config.numCores from hn), ht]

include hk

/-- The task of no superstep launch leaves its core vacant, and every queue as it was. -/
theorem State.vacate_leaves : ((s.vacate n).core n).Vacant ∧ (s.vacate n).queues = s.queues := by
  have rest : (s.modCore n Core.vacate).Aside (s.vacate n) := by
    unfold State.vacate
    rw [State.taskAt_core hn ht]
    dsimp only
    rw [if_pos (show n < Config.numCores from hn), hk]
    refine .trans ?_ (State.settleInval_aside _ n)
    refine .trans ?_ (State.leaveGang_aside _ _ n _)
    exact (State.freeSlots_aside _ k.ctx n).trans ⟨.of_cores rfl, rfl⟩
  refine ⟨.of_sameCourse ?_ (rest.course n), rest.queues⟩
  rw [State.core_modCore_self]
  exact Core.vacate_vacant _

end Ends

/-- A core without outstanding accesses has nothing to drain (R29). -/
theorem State.drained_of_still {s : State} {n : Nat} (hl : (s.core n).loads = []) (hs : (s.core n).stores = []) : s.drained n = s := by
  simp [State.drained, State.drainCore, hl, hs]

/-- The record of a task that has ended: one task fewer is live, and the first fault stays (R267). -/
def Record.taskEnded (k : Task) (fault : Option Cause) (r : Record) : Record :=
  { r with live := r.live - 1, faulted := if r.faulted.isSome then r.faulted else fault.map (fun c => (c, k.number)) }

section EndOne
variable {s : State} {n : Nat} {k : Task} (hn : n < 512) (ht : (s.core n).task = some k) (hk : k.launch = none)
  (hl : (s.core n).loads = []) (hs : (s.core n).stores = []) (fault : Option Cause)
include hn ht hl hs

theorem State.endOne_of_still : s.endOne n fault = (((s.coverTask n).vacate n).modQueue (queueKey k.tenant k.queue)
    (fun q => q.modRecord k.ring (Record.taskEnded k fault))).settleRecord (queueKey k.tenant k.queue) k.ring := by
  unfold State.endOne
  rw [State.taskAt_core hn ht, State.drained_of_still hl hs]
  rfl

include hk

/-- A task of no superstep launch, with no access outstanding, leaves its core vacant. -/
theorem State.endOne_vacant : ((s.endOne n fault).core n).Vacant := by
  rw [State.endOne_of_still hn ht hl hs]
  have left := (State.vacate_leaves (s := s.coverTask n) hn ht hk).1
  exact left.of_sameCourse (((State.modQueue_sameCourse _ _ _).trans (State.settleRecord_sameCourse _ _ _)) n)

end EndOne

theorem State.find?_modQueue {s : State} {key : Nat} {q : Queue} (h : Store.find? s.queues key = some q) (f : Queue → Queue) :
    Store.find? (s.modQueue key f).queues key = some (f q) := by
  simp only [State.modQueue, h]
  exact Store.find?_put_self _ _ _

/-- A record that is changed and keeps its ring index is found changed. -/
theorem Queue.record_modRecord {q : Queue} {ring : Nat} {r : Record} {f : Record → Record} (h : q.record ring = some r)
    (hf : ∀ r, (f r).ring = r.ring) : (q.modRecord ring f).record ring = some (f r) := by
  have hpred : ((fun r : Record => r.ring == ring) ∘ fun r => if r.ring = ring then f r else r) = fun r => r.ring == ring := by
    funext r
    simp only [Function.comp]
    split <;> simp [hf]
  have hring : r.ring = ring := by simpa using List.find?_some h
  unfold Queue.record Queue.modRecord at *
  rw [List.find?_map, hpred, h]
  simp [hring]

/-- A record with tasks still live does not complete (R265). -/
theorem State.settleRecord_live {s : State} {key ring : Nat} {q : Queue} {r : Record} (hq : Store.find? s.queues key = some q)
    (hr : q.record ring = some r) (hlive : r.live ≠ 0) : s.settleRecord key ring = s := by
  simp [State.settleRecord, hq, hr, hlive]

/-- The record of a task that ends while others of it are live (R267). -/
theorem State.endOne_record {s : State} {n : Nat} {k : Task} {q : Queue} {r : Record} (hn : n < 512) (ht : (s.core n).task = some k)
    (hk : k.launch = none) (hl : (s.core n).loads = []) (hs : (s.core n).stores = []) (fault : Option Cause)
    (hq : Store.find? s.queues (queueKey k.tenant k.queue) = some q) (hr : q.record k.ring = some r) (hlive : 2 ≤ r.live) :
    ∃ q', Store.find? (s.endOne n fault).queues (queueKey k.tenant k.queue) = some q' ∧
      q'.record k.ring = some (r.taskEnded k fault) := by
  have hkept : Store.find? ((s.coverTask n).vacate n).queues (queueKey k.tenant k.queue) = some q := by
    rw [(State.vacate_leaves (s := s.coverTask n) hn ht hk).2]; exact hq
  have hfound := State.find?_modQueue hkept (fun q => q.modRecord k.ring (Record.taskEnded k fault))
  have hrec := Queue.record_modRecord (f := Record.taskEnded k fault) hr (fun _ => rfl)
  have hleft : (r.taskEnded k fault).live ≠ 0 := by simp only [Record.taskEnded]; omega
  rw [State.endOne_of_still hn ht hl hs, State.settleRecord_live hfound hrec hleft]
  exact ⟨_, hfound, hrec⟩

/-- The end of a task of no superstep launch is its own alone (R137). -/
theorem State.endTask_alone {s : State} {n : Nat} {k : Task} (ht : (s.core n).task = some k) (hk : k.launch = none) (fault : Option Cause) :
    s.endTask n fault = (fault.elim s s.countCheck).endOne n fault := by
  have hnone : ((s.core n).task.bind fun t => if t.unread then none else t.launch) = none := by simp [ht, hk]
  unfold State.endTask
  rw [hnone]
  cases fault <;> rfl

/-! When TASK_END ends a task. -/

/-- Every sequencer has ended, and no access and no engine operation of the task is outstanding (R29). -/
def Core.finished (c : Core) : Bool :=
  c.seqs.toList.all (fun x => x.run == .ended) && c.still && c.copies.isEmpty && c.me.active.isNone && c.me.pendingOp.isNone
    && c.colls.all (fun p : Nat × Coll => p.2.ended.isSome)

/-- With no sequencer halted, a task ends when it is finished, with the first cause that was raised after an END (R15). -/
theorem taskEnd_of_no_halt {core : Nat} {s : State} {k : Task} (ht : (s.core core).task = some k)
    (hrun : ∀ q, ((s.core core).seqs.get q).run ≠ .halted) : exec (.taskEnd core) s = .next
      (if (s.core core).finished then s.endTask core ((s.core core).seqs.toList.findSome? SeqState.late) else s) := by
  have hdead : ∀ held : Sq → Bool,
      [Sq.ld, Sq.ex, Sq.st, Sq.ctl].find? (fun q => ((s.core core).seqs.get q).run == .halted && !held q) = none := by
    intro held
    simp [hrun]
  rw [exec_taskEnd, execTaskEnd]
  dsimp only
  rw [hdead, ht]
  rfl

/-- A halt of ld that no restartable fault holds ends the task, once its accesses have performed, with the cause of ld (R29). -/
theorem taskEnd_of_halt {core : Nat} {s : State} {k : Task} (ht : (s.core core).task = some k)
    (hrun : (s.core core).seqs.ld.run = .halted) (hheld : ∀ q, s.faults.any (fun f => f.unit == .seq core q) = false)
    (hstill : (s.core core).still = true) : exec (.taskEnd core) s = .next (s.endTask core (some (s.core core).seqs.ld.cause)) := by
  have hdead : [Sq.ld, Sq.ex, Sq.st, Sq.ctl].find? (fun q => ((s.core core).seqs.get q).run == .halted &&
      !s.faults.any (fun f => f.unit == .seq core q)) = some .ld := by
    simp [Quad.get, hrun, hheld]
  rw [exec_taskEnd, execTaskEnd]
  dsimp only
  rw [hdead, ht]
  simp [hstill, Quad.get]

/-- Settles O35, by whether a sequencer is halted; what settles the record afterwards leaves the core vacant. -/
theorem taskEnds : Obligations.TaskEnds := by
  intro core s k c ht hheld
  refine ⟨fun hended hl hs hcp hact hpend hcoll => ?_, fun hhalt hl hs => ?_, fun hno hgo => ?_, fun hn hl hs hlaunch => ?_⟩
  · have hfin : c.finished = true := by
      have hall : c.seqs.toList.all (fun x => x.run == .ended) = true := by
        simp [Quad.toList, show c.seqs.ld.run = _ from hended .ld, show c.seqs.ex.run = _ from hended .ex,
          show c.seqs.st.run = _ from hended .st, show c.seqs.ctl.run = _ from hended .ctl]
      simp [Core.finished, Core.still, hall, hl, hs, hcp, hact, hpend, hcoll]
    have hend := taskEnd_of_no_halt ht (fun q => by rw [hended q]; decide)
    rw [if_pos hfin] at hend
    refine ⟨fun hlate => ?_, fun e hlate => ?_⟩
    · have hnone : c.seqs.toList.findSome? SeqState.late = none := by
        simp [Quad.toList, show c.seqs.ld.late = _ from hlate .ld, show c.seqs.ex.late = _ from hlate .ex,
          show c.seqs.st.late = _ from hlate .st, show c.seqs.ctl.late = _ from hlate .ctl]
      rw [hend, hnone]
    · have hfirst : c.seqs.toList.findSome? SeqState.late = some e := by simp [Quad.toList, hlate]
      rw [hend, hfirst]
  · exact taskEnd_of_halt ht hhalt hheld (by simp [Core.still, show (s.core core).loads = [] from hl, show (s.core core).stores = [] from hs])
  · have hgoing : c.finished = false := by
      obtain ⟨q, hq⟩ := hgo
      have : c.seqs.toList.all (fun x => x.run == .ended) = false := by
        rw [List.all_eq_false]
        exact ⟨c.seqs.get q, by cases q <;> simp [Quad.toList, Quad.get], by obtain h | h := hq <;> simp [h]⟩
      simp [Core.finished, this]
    rw [taskEnd_of_no_halt ht hno, if_neg (by simpa using hgoing)]
  · have left := State.endOne_vacant hn ht hlaunch hl hs none
    refine ⟨_, rfl, ?_⟩
    rw [State.endTask_alone ht hlaunch]
    exact ⟨left.task, left.idle .ld, left.copies, left.mints⟩

end Sys2Proof.Machine
end

section
/-!
PROOFS. The start of tasks (R22, R24, R27, R28, R274): which cores are chosen, what each begins with, and which are claimed.
-/
namespace Sys2Proof.Machine

/-! The cores that are chosen are free cores of the partition (R275). -/

theorem seatGangs_subset {g fuel left : Nat} {free cores : List Nat} (h : seatGangs g fuel left free = some cores) :
    ∀ n ∈ cores, n ∈ free := by
  induction fuel generalizing left free cores with
  | zero =>
    cases left with
    | zero => cases h; simp
    | succ _ => cases h
  | succ fuel ih =>
    cases left with
    | zero => cases h; simp
    | succ left =>
      unfold seatGangs at h
      dsimp only at h
      split at h
      · cases h
      · next cs hcs =>
        obtain ⟨k, _, hk⟩ := List.exists_of_findSome?_eq_some hcs
        rw [Option.map_eq_some_iff] at h
        obtain ⟨rest, hrest, rfl⟩ := h
        split at hk
        · cases hk
          intro n hn
          obtain hn | hn := List.mem_append.mp hn
          · exact (List.mem_filter.mp (List.mem_of_mem_take hn)).1
          · exact (List.mem_filter.mp (ih hrest n hn)).1
        · cases hk

/-- The cores of one cluster, taken from a list. -/
theorem seats_in_cluster {l cores : List Nat} {g : Nat} (h : (List.range Config.numClusters).findSome? (fun k =>
      let cs := l.filter (fun n => n / Config.clusterCores == k)
      if g ≤ cs.length then some (cs.take g) else none) = some cores) : ∀ n ∈ cores, n ∈ l := by
  obtain ⟨k, _, hk⟩ := List.exists_of_findSome?_eq_some h
  dsimp only at hk
  split at hk
  · cases hk
    exact fun n hn => (List.mem_filter.mp (List.mem_of_mem_take hn)).1
  · cases hk

theorem chooseCores_subset {free cores : List Nat} {die : Option Nat} {g : Nat} (h : chooseCores free die g = some cores) :
    ∀ n ∈ cores, n ∈ free := by
  unfold chooseCores at h
  extract_lets prefer at' at h
  have hprefer : ∀ n ∈ prefer, n ∈ free := fun n hn => (List.mem_filter.mp hn).1
  split at h
  · rw [Option.map_eq_some_iff] at h
    obtain ⟨m, hm, rfl⟩ := h
    intro n hn
    rw [List.mem_singleton] at hn
    subst hn
    obtain hmem | hmem := List.mem_append.mp (List.mem_of_mem_head? hm)
    · exact hprefer n hmem
    · exact hmem
  · split at h
    · next hcs => cases h; exact fun n hn => hprefer n (seats_in_cluster hcs n hn)
    · exact seats_in_cluster h

/-- Each core chosen for the next tasks of a record is free for it and lies in its queue's partition (R24, R275). -/
theorem State.seats_free {s : State} {key : Nat} {q : Queue} {r : Record} {scrubbed : Bool} {cores : List Nat}
    (h : s.seats key q r scrubbed = some cores) {n : Nat} (hn : n ∈ cores) :
    s.coreFree key r.ring (key / 64) scrubbed n = true ∧ s.clusterPart (n / 16) = some q.part := by
  have hfree : n ∈ s.freeCores q.part key r.ring (key / 64) scrubbed := by
    unfold State.seats at h
    dsimp only at h
    split at h
    · exact seatGangs_subset h n hn
    · exact chooseCores_subset h n hn
  have := (List.mem_filter.mp hfree).2
  rw [Bool.and_eq_true, beq_iff_eq] at this
  exact ⟨this.2, this.1⟩

/-! A tenant that comes to a cluster (R22): no core of another cluster is touched, and no claim ends. -/

theorem mem_clusterCores {n k : Nat} : n ∈ clusterCores k ↔ n / 16 = k := by
  simp only [clusterCores, Config.clusterCores, List.mem_map, List.mem_range]
  exact ⟨fun ⟨i, hi, e⟩ => by omega, fun h => ⟨n % 16, by omega, by omega⟩⟩

theorem State.scrubCore_core_other (s : State) {m n : Nat} (tenant : Nat) (h : n ≠ m) : (s.scrubCore m tenant).core n = s.core n :=
  s.core_modCore_other _ h

theorem State.scrubCore_core_self (s : State) (m tenant : Nat) : (s.scrubCore m tenant).core m = Core.scrub tenant (s.core m) :=
  s.core_modCore_self m _

theorem State.scrubCore_claim (s : State) (m tenant n : Nat) : ((s.scrubCore m tenant).core n).claim = (s.core n).claim := by
  by_cases h : n = m
  · subst h
    rw [s.scrubCore_core_self n tenant]; rfl
  · rw [s.scrubCore_core_other tenant h]

/-- What scrubbing a list of cores keeps. -/
theorem State.scrubCores_keep (l : List Nat) (tenant : Nat) (s : State) :
    let t := l.foldl (fun (t : State) n => t.scrubCore n tenant) s
    t.clusterTenant = s.clusterTenant ∧ t.queues = s.queues ∧ ∀ n, (n ∉ l → t.core n = s.core n) ∧ (t.core n).claim = (s.core n).claim := by
  induction l generalizing s with
  | nil => exact ⟨rfl, rfl, fun _ => ⟨fun _ => rfl, rfl⟩⟩
  | cons m l ih =>
    obtain ⟨htenant, hqueues, hcores⟩ := ih (s.scrubCore m tenant)
    refine ⟨htenant, hqueues, fun n => ⟨fun hn => ?_, ((hcores n).2).trans (s.scrubCore_claim m tenant n)⟩⟩
    obtain ⟨hne, hn⟩ := not_or.mp (mt List.mem_cons.mpr hn)
    exact ((hcores n).1 hn).trans (s.scrubCore_core_other tenant hne)

section Enter
variable (s : State) (k tenant : Nat)

theorem State.enterCluster_core_other {n : Nat} (h : n / 16 ≠ k) : (s.enterCluster k tenant).core n = s.core n := by
  unfold State.enterCluster
  split
  · rfl
  · exact ((State.scrubCores_keep _ tenant _).2.2 n).1 (fun hn => h (mem_clusterCores.mp hn))

theorem State.enterCluster_claim (n : Nat) : ((s.enterCluster k tenant).core n).claim = (s.core n).claim := by
  unfold State.enterCluster
  split
  · rfl
  · exact ((State.scrubCores_keep _ tenant _).2.2 n).2

theorem State.enterCluster_queues : (s.enterCluster k tenant).queues = s.queues := by
  unfold State.enterCluster
  split
  · rfl
  · exact (State.scrubCores_keep _ tenant _).2.1

/-- The tenant is then the cluster's, and the other clusters keep theirs. -/
theorem State.enterCluster_tenant : Store.find? (s.enterCluster k tenant).clusterTenant k = some tenant := by
  unfold State.enterCluster
  split
  · next h => exact h
  · rw [(State.scrubCores_keep _ tenant _).1, Store.find?_put_self]

theorem State.enterCluster_tenant_other {j : Nat} (h : j ≠ k) :
    Store.find? (s.enterCluster k tenant).clusterTenant j = Store.find? s.clusterTenant j := by
  unfold State.enterCluster
  split
  · rfl
  · rw [(State.scrubCores_keep _ tenant _).1, Store.find?_put_other _ _ h]

/-- A cluster that has the tenant is left alone. -/
theorem State.enterCluster_held {s : State} {k tenant : Nat} (h : Store.find? s.clusterTenant k = some tenant) : s.enterCluster k tenant = s :=
  if_pos h

end Enter

/-! Placing the tasks (R27, R28). -/

/-- A core has begun a task of a record with its number: at the record's entry, and with the registers of R28. -/
def Core.Begun (key : Nat) (q : Queue) (r : Record) (number : Nat) (c : Core) : Prop :=
  ∃ u, c.task = some u ∧ u.number = BitVec.ofNat 32 number ∧ u.tenant = key / 64 ∧ u.ctx = q.ctx ∧ u.part = q.part ∧ u.ring = r.ring ∧
    c.seqs.ctl.pc = r.entries.ctl ∧ c.seqs.ctl.run = .running ∧ c.seqs.ctl.reg 7 = (BitVec.ofNat 32 number).zeroExtend 64

/-- s7 of a core that starts a task holds the task's number (R28). -/
theorem Core.startTask_reg7 (c : Core) (t : Task) (entries : Quad Nat) (scalars : List Word) (cycle writes : Nat) :
    (c.startTask t entries scalars cycle writes).seqs.ctl.reg 7 = t.number.zeroExtend 64 := by
  simp [Core.startTask, SeqState.start, SeqState.reg]

section Place
variable (key : Nat) (q : Queue) (r : Record) (launch : Option Nat) (g gangId : Nat)

/-- One task placed: its core has begun it, its cluster is the tenant's, and another core whose cluster was so already is as it was. -/
theorem State.placeTasks_cons (s : State) (i m : Nat) (cores : List Nat) : ∃ s1 : State,
    s.placeTasks key q r launch g gangId i (m :: cores) = s1.placeTasks key q r launch g gangId (i + 1) cores ∧
    (s1.core m).Begun key q r (r.nextTask + i) ∧ Store.find? s1.clusterTenant (m / 16) = some (key / 64) ∧
    ∀ n, n ≠ m → Store.find? s.clusterTenant (n / 16) = some (key / 64) →
      Store.find? s1.clusterTenant (n / 16) = some (key / 64) ∧ s1.core n = s.core n := by
  refine ⟨_, rfl, ?_, s.enterCluster_tenant _ _, fun n hn htenant => ?_⟩
  · rw [State.core_modCore_self]
    exact ⟨_, rfl, rfl, rfl, rfl, rfl, rfl, rfl, rfl, Core.startTask_reg7 _ _ _ _ _ _⟩
  · rw [State.core_modCore_other _ _ hn]
    by_cases hc : n / 16 = m / 16
    · have held := State.enterCluster_held (hc ▸ htenant)
      exact ⟨(congrArg (fun t : State => Store.find? t.clusterTenant (n / 16)) held).trans htenant, congrArg (State.core · n) held⟩
    · exact ⟨(s.enterCluster_tenant_other _ _ hc).trans htenant, s.enterCluster_core_other _ _ hc⟩

/-- Tasks placed later leave alone a core whose cluster the tenant has entered. -/
theorem State.placeTasks_core_other (cores : List Nat) {s : State} (i : Nat) {n : Nat} (hn : n ∉ cores)
    (htenant : Store.find? s.clusterTenant (n / 16) = some (key / 64)) :
    (s.placeTasks key q r launch g gangId i cores).core n = s.core n := by
  induction cores generalizing s i with
  | nil => rfl
  | cons m cores ih =>
    obtain ⟨hne, hn⟩ := not_or.mp (mt List.mem_cons.mpr hn)
    obtain ⟨s1, hs1, _, _, hothers⟩ := s.placeTasks_cons key q r launch g gangId i m cores
    obtain ⟨htenant1, hcore⟩ := hothers n hne htenant
    rw [hs1, ih (i + 1) hn htenant1, hcore]

/-- Each core of the list begins the task of its place in it. -/
theorem State.placeTasks_begun {cores : List Nat} (s : State) (i : Nat) (hnodup : cores.Nodup) {j n : Nat} (hn : cores[j]? = some n) :
    ((s.placeTasks key q r launch g gangId i cores).core n).Begun key q r (r.nextTask + (i + j)) := by
  induction cores generalizing s i j with
  | nil => simp at hn
  | cons m cores ih =>
    obtain ⟨hm, hnodup⟩ := List.nodup_cons.mp hnodup
    obtain ⟨s1, hs1, hbegun, htenant, _⟩ := s.placeTasks_cons key q r launch g gangId i m cores
    rw [hs1]
    cases j with
    | zero =>
      obtain rfl : m = n := by simpa using hn
      rwa [State.placeTasks_core_other key q r launch g gangId cores (i + 1) hm htenant]
    | succ j =>
      have := ih s1 (i + 1) hnodup (j := j) (by simpa using hn)
      rwa [show i + 1 + j = i + (j + 1) by omega] at this

end Place

@[simp] theorem State.modPart_cores (s : State) (n : Nat) (f : Partition → Partition) : (s.modPart n f).cores = s.cores := by
  unfold State.modPart
  split <;> rfl

theorem State.settleRotation_cores (s : State) (tenant : Nat) : (s.settleRotation tenant).cores = s.cores := by
  unfold State.settleRotation
  split
  · rfl
  · split <;> rfl

theorem State.settleRotations_cores (s : State) : s.settleRotations.cores = s.cores := by
  unfold State.settleRotations
  generalize s.tenants = l
  induction l generalizing s with
  | nil => rfl
  | cons p l ih => exact (ih _).trans (s.settleRotation_cores p.1)

theorem Core.Begun.of_claim {key : Nat} {q : Queue} {r : Record} {number : Nat} {c : Core} (h : c.Begun key q r number)
    (x : Option (Nat × Nat)) : ({ c with claim := x } : Core).Begun key q r number := h

/-- A dispatch begins the record's next tasks, in order, on the cores given (R27, R28). -/
theorem State.dispatch_begun (s : State) (key : Nat) (q : Queue) (r : Record) {cores : List Nat} (hnodup : cores.Nodup) {i n : Nat}
    (hn : cores[i]? = some n) : ((s.dispatch key q r cores).core n).Begun key q r (r.nextTask + i) := by
  unfold State.dispatch
  extract_lets sstep g gangs id s1 s2 s3 s4
  have placed : (s1.core n).Begun key q r (r.nextTask + i) := by
    have := State.placeTasks_begun key q r (if sstep then some id else none) g id s 0 hnodup hn
    rwa [Nat.zero_add] at this
  have kept : s4.cores = s1.cores := by rw [State.modPart_cores, State.modQueue_cores]
  obtain ⟨x, hx⟩ := s4.dropClaims_core key r.ring n
  have same : ((s4.dropClaims key r.ring).settleRotations).core n = { s1.core n with claim := x } := by
    rw [State.core, State.settleRotations_cores, ← State.core, hx, State.core, kept, ← State.core]
  rw [same]
  exact placed.of_claim x

theorem dispatches_hold : Claims.Dispatches := by
  intro part s key q r rest cores horder hseats hnodup
  refine ⟨?_, fun n hn => State.seats_free hseats hn, fun i n hn _ => s.dispatch_begun key q r hnodup hn⟩
  rw [exec_taskDispatch, execTaskDispatch, horder, State.serve, hseats]

/-! Claims (R24). -/

/-- One core is claimed for a record, its cluster entered for the tenant. -/
def State.claimCore (tenant : Nat) (x : Nat × Nat) (s : State) (n : Nat) : State :=
  (s.enterCluster (n / Config.clusterCores) tenant).modCore n (fun c => { c with claim := some x })

theorem State.claimCore_self (tenant : Nat) (x : Nat × Nat) (s : State) (n : Nat) : ((s.claimCore tenant x n).core n).claim = some x := by
  rw [State.claimCore, State.core_modCore_self]

theorem State.claimCore_keeps {tenant : Nat} {x : Nat × Nat} {s : State} {n : Nat} (m : Nat) (h : (s.core n).claim = some x) :
    ((s.claimCore tenant x m).core n).claim = some x := by
  by_cases hm : n = m
  · subst hm; exact s.claimCore_self tenant x n
  · rw [State.claimCore, State.core_modCore_other _ _ hm, State.enterCluster_claim, h]

/-- Every core of a list that is claimed in turn is claimed in the end, and no queue has changed. -/
theorem State.claimCores_claim (tenant : Nat) (x : Nat × Nat) (cores : List Nat) (s : State) :
    (∀ n, n ∈ cores ∨ (s.core n).claim = some x → ((cores.foldl (State.claimCore tenant x) s).core n).claim = some x) ∧
      (cores.foldl (State.claimCore tenant x) s).queues = s.queues := by
  induction cores generalizing s with
  | nil => exact ⟨fun n h => h.resolve_left (List.not_mem_nil), rfl⟩
  | cons m cores ih =>
    obtain ⟨hclaim, hqueues⟩ := ih (s.claimCore tenant x m)
    refine ⟨fun n h => hclaim n ?_, hqueues.trans (s.enterCluster_queues _ tenant)⟩
    obtain hmem | hold := h
    · obtain rfl | hmem := List.mem_cons.mp hmem
      · exact .inr (s.claimCore_self tenant x n)
      · exact .inl hmem
    · exact .inr (State.claimCore_keeps m hold)

theorem coreClaims_hold : Claims.CoreClaims := by
  intro tenant q idx s x r cores key hq hr
  refine ⟨fun hopen => ?_, fun hprot hdis hnone hsome hfree => ?_⟩
  · rw [exec_coreClaim, execCoreClaim]
    simp only [show Store.find? s.queues (queueKey tenant q) = some x from hq, hr, hopen]
    rfl
  · obtain ⟨hclaim, hqueues⟩ := State.claimCores_claim tenant (key, idx) cores s
    refine ⟨_, ?_, fun n hn => hclaim n (.inl hn), hqueues⟩
    rw [exec_coreClaim, execCoreClaim]
    dsimp only
    simp only [show Store.find? s.queues (queueKey tenant q) = some x from hq, hr]
    have hfree' : (s.cores.any fun p : Nat × Core => p.2.claim == some (queueKey tenant q, idx)) = false := hfree
    rw [if_neg (by simp [hprot, hdis, hfree', show s.seats (queueKey tenant q) x r true = none from hnone]),
      show s.seats (queueKey tenant q) x r false = some cores from hsome]
    rfl

/-- Settles O34, by induction on the cores chosen: a cluster once entered for the tenant is not scrubbed again. -/
theorem tasksStart : Obligations.TasksStart := ⟨dispatches_hold, coreClaims_hold⟩

end Sys2Proof.Machine
end

section
/-!
PROOFS. The watchdogs (R39, R254, R288, R292) and the drain of a context (R288).
-/
namespace Sys2Proof.Machine

/-! The deadlock watchdog (R39). -/

/-- A core of a gang has been stuck for 4,096 cycles. -/
def State.starved (s : State) (n : Nat) : Bool :=
  decide (n < Config.numCores) && (s.core n).stuck && decide ((s.core n).lastActive + Config.deadlockCycles ≤ s.cycle)

/-- A stuck core has no access outstanding. -/
theorem Core.stuck_still {c : Core} (h : c.stuck = true) : c.loads = [] ∧ c.stores = [] := by
  simp only [Core.stuck, Core.still, Bool.and_eq_true, List.isEmpty_iff] at h
  obtain ⟨⟨⟨⟨⟨_, hstill⟩, _⟩, _⟩, _⟩, _⟩ := h
  exact hstill

theorem deadlockWatchdog_idle {gang : Nat} {s : State} {g : Gang} (hg : Store.find? s.gangs gang = some g)
    (h : ∃ n ∈ g.cores, (s.core n).stuck = false ∨ s.cycle < (s.core n).lastActive + 4096) :
    exec (.deadlockWatchdog gang) s = .next s := by
  obtain ⟨n, hn, hlive⟩ := h
  have hall : g.cores.all s.starved = false := by
    rw [List.all_eq_false]
    refine ⟨n, hn, ?_⟩
    obtain hrun | hsoon := hlive
    · simp [State.starved, hrun]
    · have : ¬ (s.core n).lastActive + Config.deadlockCycles ≤ s.cycle := Nat.not_le.mpr hsoon
      simp [State.starved, this]
  rw [exec_deadlockWatchdog, execDeadlockWatchdog]
  simp only [hg]
  exact congrArg Host.Outcome.next (if_neg (Bool.eq_false_iff.mp hall))

/-- The task of a gang of one core that has been stuck for 4,096 cycles ends with 0xA5 (R39). -/
theorem deadlockWatchdog_fires {gang core : Nat} {s : State} {g : Gang} {k : Task} (hg : Store.find? s.gangs gang = some g)
    (hcores : g.cores = [core]) (hn : core < 512) (hstuck : (s.core core).stuck = true) (hsince : (s.core core).lastActive + 4096 ≤ s.cycle)
    (ht : (s.core core).task = some k) (hgang : k.gang = gang) : exec (.deadlockWatchdog gang) s = .next (s.endTask core (some 0xA5)) := by
  have hall : g.cores.all s.starved = true := by
    simp [hcores, State.starved, hstuck, show core < Config.numCores from hn,
      show (s.core core).lastActive + Config.deadlockCycles ≤ s.cycle from hsince]
  rw [exec_deadlockWatchdog, execDeadlockWatchdog]
  simp only [hg]
  refine congrArg Host.Outcome.next ((if_pos hall).trans ?_)
  simp [hcores, ht, hgang]

/-- A context that stands is changed where it stands. -/
theorem State.modCtx_of_find {s : State} {ctx : Nat} {c : Context} (h : Store.find? s.ctxs ctx = some c) (f : Context → Context) :
    s.modCtx ctx f = { s with ctxs := Store.put ctx (f c) s.ctxs } := by
  simp [State.modCtx, h]

section Drain
variable {ctx : Nat} {s : State} {c : Context} (hc : Store.find? s.ctxs ctx = some c)
include hc

/-- Before its bound the watchdog of a drain does nothing (R288). -/
theorem drainWatchdog_early {since : Nat} (hd : c.draining = some (since, false))
    (h : s.cycle < since + s.boundOf c.part Partition.drainBound) : exec (.drainWatchdog ctx) s = .next s := by
  rw [exec_drainWatchdog, execDrainWatchdog]
  simp [hc, hd, h]

/-- From its bound on, the tasks that remain are hard-stopped (R288). -/
theorem drainWatchdog_late {since : Nat} (hd : c.draining = some (since, false))
    (h : since + s.boundOf c.part Partition.drainBound ≤ s.cycle) (hleft : s.coresOf ctx ≠ []) (hstop : s.stoppable (s.coresOf ctx) = true) :
    exec (.drainWatchdog ctx) s = .next ((s.coresOf ctx).foldl (fun (t : State) n => t.hardStop n 0xD2 true)
      { s with ctxs := Store.put ctx { c with draining := some (since, true) } s.ctxs, replies := s.replies ++ [.preempted ctx 0xD2 none] }) := by
  rw [exec_drainWatchdog, execDrainWatchdog]
  have hnot : ¬ ((s.coresOf ctx).isEmpty || s.cycle < since + s.boundOf c.part Partition.drainBound || !s.stoppable (s.coresOf ctx)) = true := by
    simp [hleft, hstop, h]
  simp only [hc, hd, if_neg hnot, State.modCtx_of_find hc]

/-- A drain is complete once no task of the context is left (R288). -/
theorem drainComplete_done {since : Nat} {hard : Bool} (hd : c.draining = some (since, hard)) (h : s.coresOf ctx = []) :
    exec (.drainComplete ctx) s = .next { s with
      ctxs := Store.put ctx { c with draining := none, drained := true } s.ctxs
      replies := s.replies ++ [.preempted ctx (if hard then 0xD2 else 0xD0) none] } := by
  rw [exec_drainComplete, execDrainComplete]
  simp [hc, hd, h, State.modCtx_of_find hc]

theorem drainComplete_waits {since : Nat} {hard : Bool} (hd : c.draining = some (since, hard)) (h : s.coresOf ctx ≠ []) :
    exec (.drainComplete ctx) s = .next s := by
  rw [exec_drainComplete, execDrainComplete]
  simp [hc, hd, h]

/-- A context whose tasks are being stopped, or have been, dispatches none (R288). -/
theorem State.not_dispatchable {q : Queue} (hq : q.ctx = ctx) (h : c.draining ≠ none ∨ c.drained = true) (r : Record) :
    s.dispatchable q r = false := by
  have hctx : (c.draining.isNone && !c.drained) = false := by
    obtain h | h := h
    · simp [Option.isNone_eq_false_iff.mpr (Option.isSome_iff_ne_none.mpr h)]
    · simp [h]
  simp [State.dispatchable, hq, hc, hctx]

end Drain

theorem watchdogs_hold : Claims.Watchdogs := by
  intro gang core ctx s k i c since
  refine ⟨fun g hg => ⟨deadlockWatchdog_idle hg, fun hcores hn hstuck hsince ht hgang hlaunch => ?_⟩, fun hi ht => ?_, fun hc hd => ?_⟩
  · obtain ⟨hl, hs⟩ := Core.stuck_still hstuck
    refine ⟨_, deadlockWatchdog_fires hg hcores hn hstuck hsince ht hgang, ?_⟩
    have hcount : (some 0xA5).elim s s.countCheck = s := show s.countCheck 0xA5 = s from if_neg (by decide)
    rw [State.endTask_alone ht hlaunch, hcount]
    refine ⟨(State.endOne_vacant hn ht hlaunch hl hs _).task, fun q r hq hr hfault hlive => ?_⟩
    obtain ⟨q', hq', hr'⟩ := State.endOne_record hn ht hlaunch hl hs (some 0xA5) hq hr hlive
    exact ⟨q', _, hq', hr', by simp [Record.taskEnded, hfault], rfl⟩
  · rw [exec_quiescentPointWatchdog, execQuiescentPointWatchdog, hi, ht]
    exact ⟨fun hdue => congrArg Host.Outcome.next (if_pos hdue), fun hsoon => congrArg Host.Outcome.next (if_neg (Nat.not_le.mpr hsoon))⟩
  · exact ⟨drainWatchdog_early hc hd, drainWatchdog_late hc hd⟩

theorem drains_hold : Claims.Drains := by
  intro ctx s c hc
  refine ⟨fun hd hdr => ?_, fun since hard hd => ⟨drainComplete_done hc hd, drainComplete_waits hc hd⟩, fun hdr => ?_,
    fun q r hq h => State.not_dispatchable hc hq h r⟩
  · rw [exec_sliceEndPreemption, execSliceEndPreemption, State.modCtx_of_find hc]
    simp [hd, hdr]
  · rw [exec_contextResume, execContextResume, State.modCtx_of_find hc, if_pos hdr]

/-- Settles O38; the deadlock watchdog ends the task as TASK_END would, with 0xA5. -/
theorem watchdogsAndDrains : Obligations.WatchdogsAndDrains := ⟨watchdogs_hold, drains_hold⟩

end Sys2Proof.Machine
end

section
/-!
PROOFS. COPY_COMPLETION of a copy whose bytes wait for a page that is being copied (R183, R295): the event puts the copy back among
those of its core, in the place of each that has its id. A core gives every copy that it issues an id of its own (`State.copy`), but the
statement is over all states and no premise of it says so: where two copies share an id, the copies of the core do not stay as they are.
-/
namespace Sys2Proof.Machine

/-- A copy that has ended abnormally, and has not landed, finishes when its core is not being saved (R184). -/
theorem copyCompletion_of_abnormal {core id : Nat} {s : State} {k : Copy} (hk : (s.core core).copy? id = some k) (hfault : k.fault = none)
    (hlanded : k.landed = false) (hsaving : (s.core core).saving = false) (hstatus : k.status ≠ 0) :
    exec (.copyCompletion core id) s = .next (s.finishCopy core k) := by
  rw [exec_copyCompletion, execCopyCompletion]
  simp only [hk, hfault, hlanded, hsaving]
  rw [if_neg (by decide), if_pos (bne_iff_ne.mpr hstatus)]

/-- A copy with bytes for a page that is being copied is put back among the copies of its core, in the place of each of its id (R295). -/
theorem State.finishCopy_of_held {s : State} {k : Copy} (n : Nat) (h : s.copyHeld k = true) :
    ((s.finishCopy n k).core n).copies = (s.core n).copies.map (fun x => if x.id = k.id then k else x) := by
  rw [State.finishCopy, if_pos h, State.core_modCore_self, Core.setCopy]

namespace SharedId

/-- A CPYZ that has ended with 0x73 after its one element, whose byte is yet to be written to the first page of slice 0; the copies of
this family have the id 0 and differ in their issue number. -/
def heldCopy (issue : BitVec 32) : Copy where
  id := 0
  sq := .ld
  issue := issue
  mode := .cpyz
  word := 0
  lit := 0
  dst := 0
  src := 0
  soff := 0
  doff := 0
  extra := 0
  shape := ⟨1, Vector.replicate 10 ⟨1, 0, 0⟩⟩
  next := 1
  status := 0x73
  loadDeps := []
  storeDeps := []
  touched := true
  unverified := []
  staged := [(0, .hbm 0, 0)]
  patched := []
  landed := false
  fault := none
  oldMap := false
  mapTime := 0

/-- A partition whose slice 0 moves to slice 1, page 0 of it being copied (R295). -/
def movingPartition : Partition where
  clusters := [0]
  slices := [0]
  ports := []
  root := 0
  modules := []
  rank := 0
  cap := 0
  level := 0
  cistern := []
  startTimeout := 0
  drainBound := 0
  quiescentBound := 0
  acked := []
  invalsDone := 0
  mapped := 0
  dirty := []
  moving := [⟨0, 1, 0, true⟩]
  sliceMap := []
  accounts := []
  lastTenant := 0
  period := 0
  linkGen := 0
  linkOlder := false
  linkUpdated := []
  linkKeys := []

/-- Core 0 holds two copies of one id, with issue numbers 0 and 1. -/
def twoCopies : State :=
  { State.reset with cores := [(0, { Core.reset with copies := [heldCopy 0, heldCopy 1] })], parts := [(0, movingPartition)] }

theorem copies_twoCopies : (twoCopies.core 0).copies = [heldCopy 0, heldCopy 1] := rfl

theorem copy?_twoCopies : (twoCopies.core 0).copy? 0 = some (heldCopy 0) := rfl

theorem copyHeld_twoCopies : twoCopies.copyHeld (heldCopy 0) = true := by decide

/-- The event makes the copy with issue number 1 a second one with issue number 0. -/
theorem issues_after_copyCompletion {t : State} (ht : exec (.copyCompletion 0 0) twoCopies = .next t) :
    ((t.core 0).copies).map Copy.issue = [0, 0] := by
  rw [copyCompletion_of_abnormal copy?_twoCopies rfl rfl rfl (by decide)] at ht
  cases ht
  rw [State.finishCopy_of_held 0 copyHeld_twoCopies, copies_twoCopies]
  rfl

end SharedId

/-- Refutes O22: while the page is being copied (R295), COPY_COMPLETION of a copy that shares its id with a later one overwrites the
later one, so the copies of the core do not stay as they are. -/
theorem not_copyRuns : ¬ Obligations.CopyRuns := by
  unfold Obligations.CopyRuns
  rintro ⟨-, -, -, ends, -⟩
  obtain ⟨held, -⟩ := ends 0 0 SharedId.twoCopies (SharedId.heldCopy 0) SharedId.copy?_twoCopies rfl rfl (by decide) rfl (.inl (by decide))
  obtain ⟨t, ht, -, same⟩ := held SharedId.copyHeld_twoCopies
  have issues := SharedId.issues_after_copyCompletion ht
  rw [same, SharedId.copies_twoCopies] at issues
  exact absurd issues (by decide)

end Sys2Proof.Machine
end
